-- ==== Sys2Proof/Word.lean ====
section
/-! DEFINITION. The word types of the JK-240's serial ports and the small name types that commands and state share. -/

namespace Sys2Proof

/-- One byte on a serial port (chapter 11). -/
abbrev Byte := BitVec 8

/-- The two check bytes of a frame read as one word, high byte first (R197, R199, R200). -/
abbrev Check := BitVec 16

/-- The two cars (R1). Positions are stated for car A. -/
inductive Car where
  | a
  | b
  deriving DecidableEq, Repr

/-- The other car on the rope. -/
def Car.other : Car → Car
  | .a => .b
  | .b => .a

/-- Door sides as seen facing uphill (00_scope, Conventions). -/
inductive Side where
  | left
  | right
  deriving DecidableEq, Repr

/-- Direction of travel of car A. -/
inductive Dir where
  | up
  | down
  deriving DecidableEq, Repr

/-- The service brake and the emergency brake (R69). -/
inductive BrakeId where
  | sb
  | eb
  deriving DecidableEq, Repr

/-- The primary and the check encoder (R10). -/
inductive EncoderId where
  | primary
  | check
  deriving DecidableEq, Repr

/-- A value for each car. -/
structure PerCar (α : Type) where
  a : α
  b : α
  deriving DecidableEq, Repr

/-- The value held for one car. -/
def PerCar.get {α : Type} (p : PerCar α) : Car → α
  | .a => p.a
  | .b => p.b

/-- Replace the value held for one car. -/
def PerCar.set {α : Type} (p : PerCar α) (c : Car) (v : α) : PerCar α :=
  match c with
  | .a => { p with a := v }
  | .b => { p with b := v }

/-- A value for each door side of one car. -/
structure PerSide (α : Type) where
  left : α
  right : α
  deriving DecidableEq, Repr

/-- The value held for one side. -/
def PerSide.get {α : Type} (p : PerSide α) : Side → α
  | .left => p.left
  | .right => p.right

/-- Replace the value held for one side. -/
def PerSide.set {α : Type} (p : PerSide α) (d : Side) (v : α) : PerSide α :=
  match d with
  | .left => { p with left := v }
  | .right => { p with right := v }

/-- A value for each brake. -/
structure PerBrake (α : Type) where
  sb : α
  eb : α
  deriving DecidableEq, Repr

/-- The value held for one brake. -/
def PerBrake.get {α : Type} (p : PerBrake α) : BrakeId → α
  | .sb => p.sb
  | .eb => p.eb

/-- Replace the value held for one brake. -/
def PerBrake.set {α : Type} (p : PerBrake α) (b : BrakeId) (v : α) : PerBrake α :=
  match b with
  | .sb => { p with sb := v }
  | .eb => { p with eb := v }

/-- The four gate groups, numbered 1 to 4 (R142). -/
inductive Group where
  | g1
  | g2
  | g3
  | g4
  deriving DecidableEq, Repr

/-- A value for each gate group. -/
structure PerGroup (α : Type) where
  g1 : α
  g2 : α
  g3 : α
  g4 : α
  deriving DecidableEq, Repr

/-- The value held for one group. -/
def PerGroup.get {α : Type} (p : PerGroup α) : Group → α
  | .g1 => p.g1
  | .g2 => p.g2
  | .g3 => p.g3
  | .g4 => p.g4

/-- Replace the value held for one group. -/
def PerGroup.set {α : Type} (p : PerGroup α) (g : Group) (v : α) : PerGroup α :=
  match g with
  | .g1 => { p with g1 := v }
  | .g2 => { p with g2 := v }
  | .g3 => { p with g3 := v }
  | .g4 => { p with g4 := v }

end Sys2Proof
end

