-- ==== Sys2Proof/Syntax.lean ====
section
/-! DEFINITION. The commands of the JK-240: one constructor of Instr for each row of the opcode table, events of the
field ports and timers first, then the 46 requests of the station computer. A request carries its tag and its fields as the
wire gives them (R197): integers as natural numbers, enumerated values as their code bytes, so that a field out of its range
can be written down and be refused. -/

namespace Sys2Proof

/-- The 47 line parameters of CONFIGURE_LINE, in the order of R3's table; the last three are code bytes (R198). -/
structure LineFields where
  lineLength : Nat
  vLineMax : Nat
  vReduced : Nat
  vCreep : Nat
  dCreep : Nat
  berthTol : Nat
  platWindow : Nat
  aAcc : Nat
  aDec : Nat
  aSs : Nat
  aEb : Nat
  aFloor : Nat
  tR : Nat
  overrun : Nat
  u0 : Nat
  uPm : Nat
  uMax : Nat
  mEq : Nat
  mP : Nat
  capacity : Nat
  guard : Nat
  mSPm : Nat
  mEPm : Nat
  mSAbs : Nat
  mEAbs : Nat
  vRail : Nat
  aCheck : Nat
  tCheck : Nat
  vStill : Nat
  tStill : Nat
  tSbResp : Nat
  tEbResp : Nat
  scaleP : Nat
  scaleC : Nat
  tEnc : Nat
  wQuiet : Nat
  wCorr : Nat
  dwell : Nat
  tPass : Nat
  tClose : Nat
  passback : Nat
  tSup : Nat
  tWarm : Nat
  tTest : Nat
  alarmAction : Nat
  autoClose : Nat
  queryEnable : Nat
  deriving DecidableEq, Repr

/-- One record of LOAD_SEGMENTS as its 56 bits carry it (R198): speeds in units of 10 mm/s, walkway side as its code. -/
structure SegmentFields where
  start : Nat
  vLimit : Nat
  vCruise : Nat
  sinePm : Nat
  walkway : Nat
  deriving DecidableEq, Repr

/-- The fields of one car in a LOAD_STOPS record (R6). A gate group of 0 is absent (R197). -/
structure StopCarFields where
  sides : Nat
  group : Nat
  terminal : Nat
  deriving DecidableEq, Repr

/-- One record of LOAD_STOPS (R6). -/
structure StopFields where
  index : Nat
  pos : Nat
  carA : StopCarFields
  carB : StopCarFields
  deriving DecidableEq, Repr

/-- One record of LOAD_MARKERS (R7). -/
structure MarkerFields where
  id : Nat
  pos : Nat
  car : Nat
  deriving DecidableEq, Repr

/-- One record of LOAD_GATES (R142). -/
structure GateFields where
  address : Nat
  group : Nat
  deriving DecidableEq, Repr

/-- One pass entry as PASS_INSERT and TICKET_ANSWER carry it: each optional field behind its presence byte (R128, R198). -/
structure PassFields where
  id : Nat
  kind : Nat
  state : Nat
  ridesPresent : Nat
  rides : Nat
  fromPresent : Nat
  validFrom : Nat
  toPresent : Nat
  validTo : Nat
  deriving DecidableEq, Repr

/-- The commands of the block, one constructor per row of spec/opcode_table.json, in the table's order. -/
inductive Instr where
  /-- POWER_ON: the end of power-up (R181). -/
  | powerOn
  /-- RESET_LINE: the external reset line returns to inactive (R181). -/
  | resetLine
  /-- RESET_LINE_ASSERT: the external reset line becomes active (R181). -/
  | resetLineAssert
  /-- ENCODER_COUNT: a run of quadrature edges of one encoder, all of one sense (R10). -/
  | encoderCount (enc : EncoderId) (dir : Dir) (edges : Nat)
  /-- POSITION_SAMPLE: a 5 ms sample with the four switch inputs as it reads them (R11). -/
  | positionSample (lower upper otLower otUpper : Bool)
  /-- DRIVE_REFERENCE_UPDATE: a 20 ms update with the drive lines as it reads them (R33, R42). -/
  | driveReferenceUpdate (ready fault : Bool)
  /-- BRAKE_CONTACT_CHANGE: the two feedback contacts of one brake as they now stand, true for made (R69). -/
  | brakeContactChange (brake : BrakeId) (applied released : Bool)
  /-- BRAKE_RESPONSE_TIMEOUT: expiry of one brake's response timer (R70). -/
  | brakeResponseTimeout (brake : BrakeId)
  /-- DECELERATION_CHECK_TIMEOUT: expiry of t_check (R77). -/
  | decelerationCheckTimeout
  /-- BRAKE_TEST_TIMER_EXPIRY: expiry of t_test (R85). -/
  | brakeTestTimerExpiry
  /-- CAR_STATUS_FRAME: the bytes of one burst received on a car link (R91, R199). -/
  | carStatusFrame (link : Car) (bytes : List Byte)
  /-- CAR_COMMAND_TIMER: 100 ms since the last command frame on one link (R92). -/
  | carCommandTimer (link : Car)
  /-- CAR_STALE_TIMEOUT: 300 ms since the last accepted frame (R94). -/
  | carStaleTimeout (car : Car)
  /-- CAR_LOST_TIMEOUT: 2,000 ms since the last accepted frame (R94). -/
  | carLostTimeout (car : Car)
  /-- ACKNOWLEDGEMENT_TIMEOUT: the 500 ms timer of one side (R112). -/
  | acknowledgementTimeout (car : Car) (side : Side)
  /-- CLOSE_TIMEOUT: the close timer of one side (R117). -/
  | closeTimeout (car : Car) (side : Side)
  /-- RETRY_TIMER_EXPIRY: the retry timer of one side (R118). -/
  | retryTimerExpiry (car : Car) (side : Side)
  /-- LINE_CLOCK_TICK: one second of the Pass Table's timer (R133). -/
  | lineClockTick
  /-- GATE_REPLY: the bytes received on the gate bus within 8 ms of the poll (R144, R146, R200). -/
  | gateReply (bytes : List Byte)
  /-- GATE_REPLY_TIMEOUT: 8 ms since the poll with no good reply (R145). -/
  | gateReplyTimeout
  /-- DWELL_EXPIRY: the dwell timer of one group's window (R149). -/
  | dwellExpiry (group : Nat)
  /-- QUERY_TIMEOUT: the query timer of one gate (R155). -/
  | queryTimeout (gate : Nat)
  /-- PASSAGE_DEADLINE: the passage deadline of one gate (R157). -/
  | passageDeadline (gate : Nat)
  /-- WARMING_TIMEOUT: the warming timer (R172). -/
  | warmingTimeout
  /-- SUPERVISION_EXPIRY: the supervision timer (R177). -/
  | supervisionExpiry
  /-- SKIPPED_BYTE: one byte arrives on the supervisory link (R184). -/
  | skippedByte (b : Byte)
  /-- FRAME_GAP_TIMEOUT: more than 20 ms between two bytes of one frame (R184). -/
  | frameGapTimeout
  /-- BAD_LENGTH_DISCARD: a length byte above 240 (R185). -/
  | badLengthDiscard (len : Byte)
  /-- SUPERVISORY_FRAME: a complete frame, its length byte being the payload's length (R184, R185). -/
  | supervisoryFrame (kind tag : Byte) (payload : List Byte) (check : Check)
  /-- TRANSMIT_END: the end of the transmission in progress (R194). -/
  | transmitEnd
  | configureLine (tag : Byte) (fields : LineFields)
  | loadSegments (tag : Byte) (recs : List SegmentFields)
  | loadStops (tag : Byte) (recs : List StopFields)
  | loadMarkers (tag : Byte) (recs : List MarkerFields)
  | positionRead (tag : Byte)
  | planSet (tag : Byte) (entries : List Nat)
  | planAppend (tag : Byte) (stop : Nat)
  | planClear (tag : Byte)
  | depart (tag : Byte)
  | stop (tag : Byte)
  | haulageRead (tag : Byte)
  | tsrAdd (tag : Byte) (id start stop speed : Nat)
  | tsrRemove (tag : Byte) (id : Nat)
  | envelopeRead (tag : Byte)
  | tripReset (tag : Byte)
  | brakeTest (tag : Byte) (brake : Nat)
  | brakeRead (tag : Byte)
  | alarmClear (tag : Byte) (car : Nat)
  | alarmRouteSet (tag : Byte) (dests : Nat)
  | alarmRouteClear (tag : Byte) (dests : Nat)
  | carRead (tag : Byte)
  | doorRelease (tag : Byte) (car side : Nat)
  | evacRelease (tag : Byte) (car side : Nat)
  | doorClose (tag : Byte) (car side : Nat)
  | doorRead (tag : Byte)
  | passInsert (tag : Byte) (entries : List PassFields)
  | passDelete (tag : Byte) (ids : List Nat)
  | passBlock (tag : Byte) (ids : List Nat)
  | passUnblock (tag : Byte) (ids : List Nat)
  | passRead (tag : Byte) (id : Nat)
  | setDay (tag : Byte) (day : Nat)
  | loadGates (tag : Byte) (recs : List GateFields)
  | boardingExtend (tag : Byte) (group seconds : Nat)
  | boardingClose (tag : Byte) (group : Nat)
  | ticketAnswer (tag : Byte) (gate query verdict present : Nat) (entry : PassFields)
  | gateAccess (tag : Byte) (slot gate command argument : Nat)
  | boardingRead (tag : Byte)
  | setMode (tag : Byte) (target keepLinks keepLoop : Nat)
  | supervise (tag : Byte) (code : Nat)
  | healthSet (tag : Byte) (counter count exponent : Nat)
  | healthRead (tag : Byte)
  | modeRead (tag : Byte)
  | restart (tag : Byte)
  | reportMaskSet (tag : Byte) (classes : Nat)
  | reportMaskClear (tag : Byte) (classes : Nat)
  | linkRead (tag : Byte)
  deriving DecidableEq, Repr

end Sys2Proof
end

