-- ==== Sys2Proof/Config.lean ====
section
/-! DEFINITION. The device's fixed capacities and intervals as the rules give them, and the free values: the fields of a
message whose content the manual does not state. -/

namespace Sys2Proof.Config

/-- Places of the receive buffer (R187). -/
def bufferPlaces : Nat := 4

/-- Entries of the overload list (R188). -/
def overloadPlaces : Nat := 8

/-- Reports the report queue holds (R190). -/
def queuePlaces : Nat := 32

/-- Largest payload of a supervisory frame (R185). -/
def maxPayload : Nat := 240

/-- The sync byte (R184). -/
def syncByte : Byte := 0xA7

/-- The receiver's gap timer in milliseconds (R184). -/
def gapMs : Nat := 20

/-- Places of the Pass Table (R126). -/
def passPlaces : Nat := 4096

/-- Entries of the TSR list (R64). -/
def tsrPlaces : Nat := 8

/-- Entries of the trip plan (R26). -/
def planPlaces : Nat := 8

/-- Command frame interval of a car link in milliseconds (R92). -/
def commandMs : Nat := 100

/-- Acknowledgement timer of a door side in milliseconds (R104). -/
def ackMs : Nat := 500

/-- Retry timer of a door side in milliseconds (R104). -/
def retryMs : Nat := 2000

/-- Query timer of a gate in milliseconds (R153). -/
def queryMs : Nat := 1500

/-- Time a gate has to answer a poll, in milliseconds (R144). -/
def pollMs : Nat := 8

/-- Largest position a request may carry, in millimetres (R5, R6, R7, R65). -/
def maxPosition : Nat := 4000000

/-- Standard gravity in mm/s² (R50). -/
def gravity : Nat := 9807

/-- Hand-overs between blocks that may be nested within one step (assumption log 3). -/
def handOverDepth : Nat := 64

/-- The fields of a message for which some event leaves the manual without a stated content (assumption log 12). -/
inductive OpenField where
  /-- cause of the DOOR report NO_ACK (R123) -/
  | doorCause
  /-- served car of an ADMISSION report while the group's window has none (R162) -/
  | admissionCar
  /-- k of an ADMISSION report whose presentation was refused before a seat count was found (R162) -/
  | admissionSeats
  /-- aboard_min of an ADMISSION report without a served car (R162) -/
  | admissionMin
  /-- aboard_max of an ADMISSION report without a served car (R162) -/
  | admissionMax
  /-- in_flight of an ADMISSION report without a served car (R162) -/
  | admissionFlight
  /-- alarm action of an ALARM report before the line parameters are loaded (R101) -/
  | alarmAction
  /-- a_eff of an OVERSPEED report when no evaluation has been made (R59) -/
  | overspeedAEff
  /-- s, a_penalty, c, m_s or m_e in an ENVELOPE_READ reply before the line parameters are loaded (R67) -/
  | envelopeTerm
  deriving DecidableEq, Repr

/-- What the device sends in a field whose content the manual leaves open. It has no body: nothing can be proved of it. -/
opaque unstated : OpenField → Nat

end Sys2Proof.Config
end

