-- ==== Sys2Proof/Machine/State.lean ====
section
/-! DEFINITION. The whole state of the JK-240 as plain data, block by block, the reports, replies and frames it holds, and
the state right after reset. -/

namespace Sys2Proof.Machine

/-- A timer: the milliseconds left while it runs, none while it is stopped. -/
abbrev Timer := Option Nat

/-! ## Configuration (chapter 1, chapter 8) -/

/-- The walkway side of a segment (R5). -/
inductive Walkway where
  | none
  | left
  | right
  deriving DecidableEq, Repr

/-- A stored segment record, speeds in mm/s (R5). -/
structure Segment where
  start : Nat
  vLimit : Nat
  vCruise : Nat
  sinePm : Nat
  walkway : Walkway
  deriving DecidableEq, Repr

/-- The platform sides of one car at a stop (R6). -/
inductive Platform where
  | none
  | left
  | right
  | both
  deriving DecidableEq, Repr

/-- The fields of one car in a stop record (R6). -/
structure StopCar where
  sides : Platform
  group : Option Group
  terminal : Bool
  deriving DecidableEq, Repr

/-- A stop record (R6); pos is a car A position. -/
structure StopRec where
  index : Nat
  pos : Nat
  car : PerCar StopCar
  deriving DecidableEq, Repr

/-- A marker record (R7); pos is a car A position. -/
structure Marker where
  id : Nat
  pos : Nat
  car : Car
  deriving DecidableEq, Repr

/-! ## Position Tracker (chapter 1) -/

/-- Position validity (R18). -/
inductive Validity where
  | valid
  | lost
  deriving DecidableEq, Repr

/-- Causes of a POSITION report, in R22's order. -/
inductive PositionCause where
  | marker
  | markerFar
  | diverged
  | switch
  | switchFar
  | doubleTerminal
  | homed
  | overtravel
  | config
  deriving DecidableEq, Repr

/-- The end of the line a switch belongs to (R19, R20). -/
inductive LineEnd where
  | lower
  | upper
  deriving DecidableEq, Repr

/-- The distance terms of one sample (R10, R14). -/
structure DistanceTerms where
  p : Int
  c : Int
  deriving DecidableEq, Repr

/-- What the next sample with loaded parameters is (R4, R21). -/
inductive FirstSample where
  /-- an ordinary sample -/
  | ordinary
  /-- the first sample after a reset -/
  | afterReset
  /-- the sample after a CONFIGURE_LINE that changed L or a scale -/
  | afterReconfigure
  deriving DecidableEq, Repr

/-- The Position Tracker's state (chapter 1). -/
structure Tracker where
  /-- count_p (R10) -/
  countP : BitVec 48
  /-- count_c (R10) -/
  countC : BitVec 48
  /-- offset_p (R10) -/
  offsetP : Int
  /-- offset_c (R10) -/
  offsetC : Int
  /-- x of the latest completed sample (R1, R11) -/
  x : Int
  /-- x_c of the latest completed sample -/
  xc : Int
  /-- s_m, distance since the last correction (R12) -/
  sm : Nat
  /-- U (R12) -/
  u : Nat
  /-- distance terms, newest first: the current sample and up to ten before it (R14) -/
  hist : List DistanceTerms
  first : FirstSample
  /-- v_meas (R14) -/
  vMeas : Nat
  standstill : Bool
  /-- milliseconds since the first sample of the unbroken run at or below v_still (R15) -/
  still : Option Nat
  validity : Validity
  /-- cross-check class: true for beyond tolerance (R13) -/
  beyond : Bool
  /-- last passage number of each car (R16) -/
  lastPassage : PerCar (Option Nat)
  /-- readings of the latest sample: lower and upper terminal, lower and upper overtravel (R11) -/
  lower : Bool
  upper : Bool
  otLower : Bool
  otUpper : Bool
  deriving DecidableEq, Repr

/-! ## Haulage Controller (chapter 2) -/

/-- Haulage states (R24). -/
inductive HState where
  | held
  | releasing
  | motoring
  | approaching
  | creeping
  | berthing
  | stopping
  deriving DecidableEq, Repr

/-- The berth record (R25): at stop with its index, or off stop; and the on-platform flags. -/
structure Berth where
  stop : Option Nat
  onA : Bool
  onB : Bool
  deriving DecidableEq, Repr

/-- The content of a drive word (R41). -/
structure DriveWord where
  vRef : Nat
  dir : Dir
  deriving DecidableEq, Repr

/-- The Haulage Controller's state (chapter 2). -/
structure Haulage where
  state : HState
  berth : Berth
  /-- the trip plan, head first (R26) -/
  plan : List Nat
  /-- the current-leg mark (R26) -/
  legMark : Bool
  /-- the destination (R26) -/
  dest : Option Nat
  /-- the direction of the trip in progress (R31) -/
  tripDir : Dir
  vRef : Nat
  /-- the controlled ramp is running (R38a) -/
  ramp : Bool
  /-- the drive ready line as last read (R42) -/
  ready : Bool
  /-- the drive fault line as last read (R42) -/
  fault : Bool
  /-- the stalled report latch (R37a, R46) -/
  stalled : Bool
  /-- the last drive word sent (R41) -/
  word : Option DriveWord
  deriving DecidableEq, Repr

/-! ## Overspeed Supervisor (chapter 3) -/

/-- Overspeed levels, lowest first (R57). -/
inductive Level where
  | none
  | warn
  | service
  | emergency
  | rail
  deriving DecidableEq, Repr

/-- The binding ceiling (R56). -/
inductive Binding where
  | segmentA
  | segmentB
  | cover (id : Nat) (car : Car)
  | mode
  | targetSegment (car : Car) (index : Nat)
  | targetTsr (car : Car) (id : Nat)
  | terminus
  deriving DecidableEq, Repr

/-- The load values of one car: both bounds and the reported load (R48). -/
structure CarLoad where
  aboardMin : Nat
  aboardMax : Nat
  reported : Option Nat
  deriving DecidableEq, Repr

/-- A TSR entry (R64). -/
structure Tsr where
  id : Nat
  start : Nat
  stop : Nat
  speed : Nat
  deriving DecidableEq, Repr

/-- The results of stages 1 and 2 (R49, R50). -/
structure Braking where
  descending : Car
  wD : Nat
  wA : Nat
  excess : Nat
  sine : Nat
  penalty : Nat
  aEff : Nat
  imbalance : Bool
  deriving DecidableEq, Repr

/-- The results of one evaluation that ENVELOPE_READ returns (R67). -/
structure Evaluation where
  braking : Braking
  c : Nat
  mS : Nat
  mE : Nat
  deriving DecidableEq, Repr

/-- The Overspeed Supervisor's state (chapter 3). -/
structure Supervisor where
  level : Level
  vPerm : Nat
  binding : Option Binding
  /-- the load snapshot, in force while present (R48) -/
  snapshot : Option (PerCar CarLoad)
  tsrs : List Tsr
  /-- the wrong-way accumulator (R62) -/
  acc : Nat
  /-- its ordered flag (R63) -/
  ordered : Bool
  /-- its held reference (R62) -/
  heldRef : Int
  /-- the next evaluation is the first after a reset, INIT or PARKED (R62, R68) -/
  fresh : Bool
  /-- the latest evaluation; none while no evaluation runs (R47, R67) -/
  last : Option Evaluation
  deriving DecidableEq, Repr

/-! ## Brake Sequencer (chapter 4) -/

/-- A brake command (R69). -/
inductive BrakeCmd where
  | apply
  | release
  deriving DecidableEq, Repr

/-- The states of a brake record (R69). -/
inductive BrakeState where
  | applied
  | lifting
  | released
  | setting
  | fault
  deriving DecidableEq, Repr

/-- The readings of a brake's contacts (R69). -/
inductive Reading where
  | applied
  | released
  | between
  deriving DecidableEq, Repr

/-- The two feedback contacts of a brake, true for made (R69). These are inputs and outlast a reset. -/
structure Contacts where
  applied : Bool
  released : Bool
  deriving DecidableEq, Repr

/-- A brake record (R69); its reading is formed from the contacts. -/
structure BrakeRec where
  cmd : BrakeCmd
  state : BrakeState
  timer : Timer
  deriving DecidableEq, Repr

/-- Stop kinds (R74). -/
inductive StopKind where
  | controlled
  | brake
  | emergency
  deriving DecidableEq, Repr

/-- Stop causes, in the order of section 4.3's table. -/
inductive StopCause where
  | host
  | drive
  | alarm
  | link
  | supervision
  | overspeed
  | position
  | door
  | interlock
  | rail
  | overtravel
  | rollback
  | external
  | escalation
  | brakeFault
  | testFail
  deriving DecidableEq, Repr

/-- The deceleration check of a BRAKE stop (R77). -/
inductive DecelCheck where
  | absent
  | running (timer : Timer)
  | passed
  | failed
  deriving DecidableEq, Repr

/-- The stop in progress (R74). -/
structure StopRecord where
  kind : StopKind
  cause : StopCause
  x : Int
  vMeas : Nat
  check : DecelCheck
  deriving DecidableEq, Repr

/-- Phases of a brake test (R84). -/
inductive TestPhase where
  | preparing
  | torque
  | restoring
  deriving DecidableEq, Repr

/-- A running brake test (R83 to R86). -/
structure BrakeTest where
  brake : BrakeId
  phase : TestPhase
  /-- the test reference (R84) -/
  ref : Int
  /-- the largest test movement seen -/
  move : Nat
  timer : Timer
  deriving DecidableEq, Repr

/-- The Brake Sequencer's state (chapter 4). -/
structure Brakes where
  recs : PerBrake BrakeRec
  contacts : PerBrake Contacts
  stop : Option StopRecord
  /-- the emergency latch with its cause (R78) -/
  latch : Option StopCause
  /-- the rail-brake trip flag (R80) -/
  railTrip : Bool
  test : Option BrakeTest
  /-- the torque-test line -/
  torqueLine : Bool
  /-- v_meas of the latest 21 samples, newest first (R77) -/
  vHist : List Nat
  deriving DecidableEq, Repr

/-! ## Car Link Unit (chapter 5) -/

/-- Leaf states of a door side (R90, codes of section 11.2). -/
inductive Leaf where
  | opened
  | closed
  | locked
  deriving DecidableEq, Repr

/-- The door fields of one side in a status frame (R90). -/
structure DoorStatus where
  leaf : Leaf
  ack : Bool
  obstruction : Bool
  deriving DecidableEq, Repr

/-- The marker field of a status frame (R90). -/
structure MarkerField where
  id : Nat
  passage : Nat
  deriving DecidableEq, Repr

/-- The content of an accepted status frame (R90). -/
structure CarStatus where
  seq : Nat
  doors : PerSide DoorStatus
  alarm : Bool
  crewKey : Bool
  /-- rail brake APPLIED -/
  rail : Bool
  load : Option Nat
  marker : Option MarkerField
  deriving DecidableEq, Repr

/-- Freshness of a car record (R93). -/
inductive Freshness where
  | fresh
  | stale
  | lost
  | never
  deriving DecidableEq, Repr

/-- The levels of a car command frame (R92). -/
structure CommandLevels where
  releaseLeft : Bool
  releaseRight : Bool
  closeLeft : Bool
  closeRight : Bool
  railTrip : Bool
  deriving DecidableEq, Repr

/-- The record and link of one car (R93, R98, R102). -/
structure CarRec where
  freshness : Freshness
  status : Option CarStatus
  lastSeq : Option Nat
  /-- time since the last accepted frame, ms (R93) -/
  since : Option Nat
  /-- discards since the last accepted frame (R93) -/
  discards : Nat
  accepted : Nat
  discarded : Nat
  duplicates : Nat
  /-- the alarm latch (R98) -/
  alarm : Bool
  /-- the link runs (R96) -/
  running : Bool
  /-- the 100 ms command timer (R92) -/
  timer : Timer
  /-- the levels of the last command frame sent (R102) -/
  lastSent : CommandLevels
  deriving DecidableEq, Repr

/-- The alarm route (R100). -/
structure AlarmRoute where
  report : Bool
  lower : Bool
  upper : Bool
  deriving DecidableEq, Repr

/-- The Car Link Unit's state (chapter 5). The station alarm lines follow from route and latches (R100). -/
structure CarLinks where
  recs : PerCar CarRec
  route : AlarmRoute
  deriving DecidableEq, Repr

/-! ## Door Release Unit (chapter 6) -/

/-- States of a door side (R104). -/
inductive DoorState where
  | secured
  | releasePending
  | released
  | opened
  | closing
  | unproven
  | fault
  deriving DecidableEq, Repr

/-- Release kinds (R104). -/
inductive ReleaseKind where
  | auto
  | manual
  | evac
  deriving DecidableEq, Repr

/-- Fault causes of a door side, in R104's order. -/
inductive DoorFault where
  | unlocked
  | opened
  | lateOpen
  | moving
  | stuck
  deriving DecidableEq, Repr

/-- A door-side record (R104). -/
structure DoorSide where
  state : DoorState
  kind : Option ReleaseKind
  stop : Option Nat
  retries : Nat
  ackTimer : Timer
  closeTimer : Timer
  retryTimer : Timer
  faultCause : Option DoorFault
  /-- the fault-clearing mark -/
  clearing : Bool
  deriving DecidableEq, Repr

/-- The Door Release Unit's state (chapter 6). -/
structure Doors where
  sides : PerCar (PerSide DoorSide)
  /-- the berth clearance marks (R114) -/
  cleared : PerCar Bool
  deriving DecidableEq, Repr

/-! ## Pass Table (chapter 7) -/

/-- Ticket kinds (R126). -/
inductive PassKind where
  | single
  | multi
  | period
  | staff
  | party
  deriving DecidableEq, Repr

/-- Entry states (R126). -/
inductive PassState where
  | active
  | consumed
  | blocked
  deriving DecidableEq, Repr

/-- A recorded admission of a PERIOD entry (R126). -/
structure PassUse where
  group : Group
  day : Nat
  second : Nat
  deriving DecidableEq, Repr

/-- A pass table entry (R126). rides is also the party size of GROUP. -/
structure PassEntry where
  id : Nat
  kind : PassKind
  state : PassState
  rides : Option Nat
  loaded : Option Nat
  validFrom : Option Nat
  validTo : Option Nat
  last : Option PassUse
  prior : Option PassUse
  wasConsumed : Bool
  held : Nat
  /-- the removal mark -/
  removal : Bool
  deriving DecidableEq, Repr

/-- The Pass Table (R126, R133). Entries stand in rising order of id, so that equal tables are equal data. -/
structure PassTable where
  entries : List PassEntry
  day : Nat
  clock : Nat
  deriving DecidableEq, Repr

/-! ## Gate Loop Master and Boarding Tally (chapter 8) -/

/-- Reasons of a REFUSE verdict, in R151's order. -/
inductive RefuseReason where
  | closed
  | locked
  | busy
  | unknown
  | blocked
  | expired
  | used
  | passback
  | inUse
  | seats
  | full
  | balance
  | host
  deriving DecidableEq, Repr

/-- A verdict for a gate: ADMIT with its seat count, or REFUSE (R144). -/
inductive Verdict where
  | entry (k : Nat)
  | refuse (r : RefuseReason)
  deriving DecidableEq, Repr

/-- Gate states (R143). -/
inductive GateState where
  | offline
  | shut
  | ready
  | query
  | passing
  | lockedOut
  | fault
  deriving DecidableEq, Repr

/-- A gate access slot's name (R160). -/
inductive SlotId where
  | s1
  | s2
  deriving DecidableEq, Repr

/-- An admission in progress at a gate (R143). -/
structure Admission where
  ticket : Option Nat
  car : Car
  k : Nat
  pending : Nat
  passed : Nat
  deadline : Timer
  /-- the access slot whose STAFF_OPEN made it (R161) -/
  staff : Option SlotId
  deriving DecidableEq, Repr

/-- How a query ended (R143). -/
inductive QueryEnd where
  | timeout
  | cancelled
  deriving DecidableEq, Repr

/-- The last ended query of a gate (R143). -/
structure EndedQuery where
  number : Nat
  ticket : Nat
  how : QueryEnd
  deriving DecidableEq, Repr

/-- A gate record with its place in the gate list (R142, R143). -/
structure GateRec where
  address : Nat
  group : Group
  state : GateState
  misses : Nat
  code : Option Nat
  /-- the lock-out note -/
  lockNote : Bool
  verdict : Option Verdict
  /-- the poll last sent to this gate carried the pending verdict (R144) -/
  carried : Bool
  admission : Option Admission
  queryNumber : Nat
  queryTicket : Option Nat
  queryTimer : Timer
  lastQuery : Option EndedQuery
  deriving DecidableEq, Repr

/-- Window states (R148). -/
inductive WindowState where
  | shut
  | opened
  | sealing
  | sealed
  deriving DecidableEq, Repr

/-- A boarding window (R148). -/
structure Window where
  state : WindowState
  car : Option Car
  stop : Option Nat
  dwell : Timer
  deriving DecidableEq, Repr

/-- Gate access commands, in R160's order. -/
inductive AccessCommand where
  | lampTest
  | lockOut
  | unlock
  | staffOpen
  | readCounters
  deriving DecidableEq, Repr

/-- A request held in an access slot (R160). -/
structure AccessRequest where
  gate : Nat
  command : AccessCommand
  argument : Nat
  polls : Nat
  deriving DecidableEq, Repr

/-- The two access slots, and which held request was taken earlier when both are held (R160). -/
structure AccessSlots where
  s1 : Option AccessRequest
  s2 : Option AccessRequest
  secondFirst : Bool
  deriving DecidableEq, Repr

/-- What a poll carries of an access slot (R144, section 11.3). -/
structure PollAccess where
  slot : SlotId
  command : AccessCommand
  argument : Nat
  deriving DecidableEq, Repr

/-- The poll whose reply is awaited (R144). -/
structure Poll where
  address : Nat
  windowOpen : Bool
  verdict : Option Verdict
  access : Option PollAccess
  timer : Timer
  deriving DecidableEq, Repr

/-- The Gate Loop Master's state (chapter 8). -/
structure GateLoop where
  /-- gate records in ascending address order; the listed gates -/
  gates : List GateRec
  windows : PerGroup Window
  slots : AccessSlots
  running : Bool
  /-- the cycle counter, 0 to 7 (R144) -/
  cycle : Nat
  /-- the address last polled in this cycle, 0 at its start -/
  cursor : Nat
  poll : Option Poll
  deriving DecidableEq, Repr

/-- The Boarding Tally of one car (R159). -/
structure Tally where
  aboardMin : Nat
  aboardMax : Nat
  inFlight : Nat
  unknown : Bool
  deriving DecidableEq, Repr

/-! ## Line Mode Unit (chapter 9) -/

/-- Line modes (R165). -/
inductive Mode where
  | init
  | parked
  | warming
  | service
  | reduced
  | maintenance
  | evacuation
  | tripped
  deriving DecidableEq, Repr

/-- A parked variant (R165). -/
structure Variant where
  keepLinks : Bool
  keepLoop : Bool
  deriving DecidableEq, Repr

/-- Warming targets (R165). -/
inductive WarmTarget where
  | service
  | reduced
  | maintenance
  deriving DecidableEq, Repr

/-- The two supervision codes (R176): c3C is 0x3C and cC3 is 0xC3. -/
inductive SupCode where
  | c3C
  | cC3
  deriving DecidableEq, Repr

/-- The supervision timer (R176). -/
inductive SupTimer where
  | notStarted
  | running (ms : Nat)
  | stopped
  deriving DecidableEq, Repr

/-- A health counter (R179). -/
structure Counter where
  count : Nat
  exp : Nat
  deriving DecidableEq, Repr

/-- Names of the health counters (R179). -/
inductive CounterName where
  | pos
  | linkA
  | linkB
  | gates
  | frames
  deriving DecidableEq, Repr

/-- The five health counters (R179). -/
structure Health where
  pos : Counter
  linkA : Counter
  linkB : Counter
  gates : Counter
  frames : Counter
  deriving DecidableEq, Repr

/-- Reset causes (R181). -/
inductive ResetCause where
  | powerOn
  | resetLine
  | restart
  deriving DecidableEq, Repr

/-- The Line Mode Unit's state (chapter 9). -/
structure LineMode where
  mode : Mode
  /-- the parked variant, present in PARKED -/
  variant : Option Variant
  /-- the warming target, present in WARMING -/
  target : Option WarmTarget
  warmTimer : Timer
  /-- the variant a failed warming returns to (R172) -/
  warmBack : Variant
  /-- the expected code (R176) -/
  expected : SupCode
  supTimer : SupTimer
  /-- the suspended mark (R178) -/
  suspended : Bool
  /-- the lost flag (R176) -/
  lost : Bool
  health : Health
  cause : ResetCause
  deriving DecidableEq, Repr

/-! ## Reports (the report tables of chapters 1 to 9) -/

/-- The fifteen report classes in the order of section 10.3's table. -/
inductive ReportClass where
  | startUp
  | mode
  | overspeed
  | brake
  | alarm
  | ticketQuery
  | trip
  | door
  | window
  | admission
  | gate
  | accessDone
  | health
  | carLink
  | position
  deriving DecidableEq, Repr

/-- START_UP (R181). -/
structure StartUpReport where
  cause : ResetCause
  loaded : Bool
  segments : Nat
  stops : Nat
  markers : Nat
  gates : Nat
  places : Nat
  day : Nat
  expected : SupCode
  health : Health
  deriving DecidableEq, Repr

/-- Events of a MODE report (R183). -/
inductive ModeEvent where
  | change
  | supervisionLost
  | supervisionRestored
  deriving DecidableEq, Repr

/-- Causes of a mode change (R183). -/
inductive ModeCause where
  | host
  | variant
  | warmed
  | warmFailed
  | forced
  | emergency
  | tripReset
  deriving DecidableEq, Repr

/-- The conditions unmet at a failed warming (R172). -/
structure WarmUnmet where
  ebNotReleased : Bool
  carANotFresh : Bool
  carBNotFresh : Bool
  deriving DecidableEq, Repr

/-- Which of POS, LINK_A and LINK_B are over threshold (R175). -/
structure OverSet where
  pos : Bool
  linkA : Bool
  linkB : Bool
  deriving DecidableEq, Repr

/-- MODE (R183). -/
structure ModeReport where
  event : ModeEvent
  before : Mode
  after : Mode
  cause : Option ModeCause
  variant : Option Variant
  target : Option WarmTarget
  unmet : Option WarmUnmet
  counters : Option OverSet
  deriving DecidableEq, Repr

/-- Events of an OVERSPEED report (R59). -/
inductive OverspeedEvent where
  | level
  | rollback
  deriving DecidableEq, Repr

/-- Orders of the supervisor (R59). -/
inductive OspOrder where
  | none
  | brake
  | emergency
  | emergencyRail
  deriving DecidableEq, Repr

/-- OVERSPEED (R59). -/
structure OverspeedReport where
  event : OverspeedEvent
  before : Level
  after : Level
  vMeas : Nat
  vPerm : Nat
  binding : Option Binding
  x : Int
  dir : Dir
  /-- none where no evaluation has been made -/
  aEff : Option Nat
  order : OspOrder
  wrongWay : Option Nat
  deriving DecidableEq, Repr

/-- Events of a BRAKE report (R87). -/
inductive BrakeEvent where
  | fault
  | faultCleared
  | stopTaken
  | stopReplaced
  | stopEnded
  | railTrip
  | tripReset
  | testStarted
  | testResult
  deriving DecidableEq, Repr

/-- What caused a brake fault (R71). -/
inductive BrakeFaultCause where
  | timer
  | uncommanded
  deriving DecidableEq, Repr

/-- Results of a brake test (R87). -/
inductive TestResult where
  | pass
  | fail
  | aborted
  deriving DecidableEq, Repr

/-- Causes of a test abort, in R86's order. -/
inductive AbortCause where
  | supervision
  | alarm
  | modeRequest
  | stop
  | interlock
  deriving DecidableEq, Repr

/-- BRAKE (R87). -/
structure BrakeReport where
  event : BrakeEvent
  brake : Option BrakeId
  fault : Option BrakeFaultCause
  /-- the command of the brake that FAULT names (R71); R87's table, and so the payload, has no such field (assumption log 45) -/
  command : Option BrakeCmd
  kind : Option StopKind
  cause : Option StopCause
  result : Option TestResult
  abort : Option AbortCause
  move : Option Nat
  sb : BrakeState
  eb : BrakeState
  sbReading : Reading
  ebReading : Reading
  x : Int
  vMeas : Nat
  deriving DecidableEq, Repr

/-- ALARM (R101). -/
structure AlarmReport where
  car : Car
  latched : Bool
  /-- freshness before and freshness after: the present freshness in both (R101) -/
  before : Freshness
  after : Freshness
  lastSeq : Option Nat
  other : Bool
  route : AlarmRoute
  /-- STOP_NOW or RUN_ON as its code; none before the line parameters are loaded -/
  action : Option Nat
  haulage : HState
  x : Int
  deriving DecidableEq, Repr

/-- TICKET_QUERY (R162). -/
structure QueryReport where
  gate : Nat
  group : Group
  car : Car
  number : Nat
  ticket : Nat
  deriving DecidableEq, Repr

/-- Events of a TRIP report (R44). -/
inductive TripEvent where
  | departed
  | arrived
  | stopped
  | stalled
  | drive
  deriving DecidableEq, Repr

/-- TRIP (R44). -/
structure TripReport where
  event : TripEvent
  x : Int
  dir : Dir
  dest : Option Nat
  stop : Option Nat
  offset : Option Int
  atStop : Bool
  onA : Bool
  onB : Bool
  kind : Option StopKind
  head : Option Nat
  ready : Bool
  fault : Bool
  deriving DecidableEq, Repr

/-- Events of a DOOR report (R123). -/
inductive DoorEvent where
  | releasePending
  | released
  | opened
  | closing
  | secured
  | unproven
  | fault
  | noAck
  | retryWait
  | skipped
  deriving DecidableEq, Repr

/-- Causes of a DOOR report (R123); a fault carries its fault cause. -/
inductive DoorCause where
  | auto
  | manual
  | evac
  | ack
  | leaves
  | closeOrder
  | proof
  | obstruction
  | closeTimeout
  | retry
  | lateAck
  | link
  | faultCleared
  | fault (f : DoorFault)
  deriving DecidableEq, Repr

/-- DOOR (R123). -/
structure DoorReport where
  car : Car
  side : Side
  event : DoorEvent
  before : DoorState
  after : DoorState
  /-- none for NO_ACK, for which the manual names no cause -/
  cause : Option DoorCause
  kind : Option ReleaseKind
  stop : Option Nat
  retries : Nat
  freshness : Freshness
  haulage : HState
  deriving DecidableEq, Repr

/-- Causes of a WINDOW report, in R162's order. -/
inductive WindowCause where
  | release
  | dwell
  | host
  | mode
  | supervision
  | doors
  | passagesResolved
  | departure
  deriving DecidableEq, Repr

/-- WINDOW (R162). -/
structure WindowReport where
  group : Group
  before : WindowState
  after : WindowState
  cause : WindowCause
  car : Option Car
  stop : Option Nat
  pending : Nat
  deriving DecidableEq, Repr

/-- Events of an ADMISSION report (R162). -/
inductive AdmissionEvent where
  | verdict
  | complete
  | abandoned
  | unknownFate
  deriving DecidableEq, Repr

/-- ADMISSION (R162). The fields car, k, aboardMin, aboardMax and inFlight are none where the manual states no content. -/
structure AdmissionReport where
  gate : Nat
  group : Group
  car : Option Car
  ticket : Option Nat
  event : AdmissionEvent
  verdict : Option Verdict
  k : Option Nat
  passed : Nat
  remainder : Option Nat
  aEff : Option Nat
  aboardMin : Option Nat
  aboardMax : Option Nat
  inFlight : Option Nat
  deriving DecidableEq, Repr

/-- Events of a GATE report (R162). -/
inductive GateEvent where
  | online
  | offline
  | fault
  | faultCleared
  | lockedOut
  | unlocked
  deriving DecidableEq, Repr

/-- GATE (R162). -/
structure GateReport where
  gate : Nat
  group : Group
  event : GateEvent
  before : GateState
  after : GateState
  misses : Nat
  code : Option Nat
  deriving DecidableEq, Repr

/-- Results of an access request (R162). -/
inductive AccessResult where
  | ack
  | nak
  | noReply
  | gateOffline
  deriving DecidableEq, Repr

/-- ACCESS_DONE (R162). -/
structure AccessReport where
  slot : SlotId
  gate : Nat
  command : AccessCommand
  argument : Nat
  result : AccessResult
  data : Option Nat
  deriving DecidableEq, Repr

/-- HEALTH (R183): isOver is true for OVER and false for CLEARED. -/
structure HealthReport where
  counter : CounterName
  isOver : Bool
  count : Nat
  exp : Nat
  mode : Mode
  deriving DecidableEq, Repr

/-- Events of a CAR_LINK report (R101). -/
inductive CarLinkEvent where
  | freshness
  | crewKey
  | railBrake
  deriving DecidableEq, Repr

/-- CAR_LINK (R101). -/
structure CarLinkReport where
  car : Car
  event : CarLinkEvent
  before : Freshness
  after : Freshness
  value : Option Bool
  lastSeq : Option Nat
  counter : Nat
  deriving DecidableEq, Repr

/-- POSITION (R22). -/
structure PositionReport where
  cause : PositionCause
  before : Int
  after : Int
  validity : Validity
  marker : Option Nat
  switch : Option LineEnd
  deriving DecidableEq, Repr

/-- A report with its fields (section 10.3). -/
inductive Report where
  | startUp (r : StartUpReport)
  | mode (r : ModeReport)
  | overspeed (r : OverspeedReport)
  | brake (r : BrakeReport)
  | alarm (r : AlarmReport)
  | ticketQuery (r : QueryReport)
  | trip (r : TripReport)
  | door (r : DoorReport)
  | window (r : WindowReport)
  | admission (r : AdmissionReport)
  | gate (r : GateReport)
  | accessDone (r : AccessReport)
  | health (r : HealthReport)
  | carLink (r : CarLinkReport)
  | position (r : PositionReport)
  deriving DecidableEq, Repr

/-! ## Replies (section 10.2) -/

/-- The 46 request kinds in the order of section 10's table (their codes are 0x01 to 0x2E). -/
inductive ReqKind where
  | configureLine
  | loadSegments
  | loadStops
  | loadMarkers
  | positionRead
  | planSet
  | planAppend
  | planClear
  | depart
  | stop
  | haulageRead
  | tsrAdd
  | tsrRemove
  | envelopeRead
  | tripReset
  | brakeTest
  | brakeRead
  | alarmClear
  | alarmRouteSet
  | alarmRouteClear
  | carRead
  | doorRelease
  | evacRelease
  | doorClose
  | doorRead
  | passInsert
  | passDelete
  | passBlock
  | passUnblock
  | passRead
  | setDay
  | loadGates
  | boardingExtend
  | boardingClose
  | ticketAnswer
  | gateAccess
  | boardingRead
  | setMode
  | supervise
  | healthSet
  | healthRead
  | modeRead
  | restart
  | reportMaskSet
  | reportMaskClear
  | linkRead
  deriving DecidableEq, Repr

/-- Reason codes of a REFUSED reply, in the order of R189's table. -/
inductive Reason where
  | badLength
  | badKind
  | badField
  | wrongMode
  | busy
  | notHeld
  | inhibited
  | queueFull
  | listFull
  | tableFull
  | notFound
  | slotBusy
  | tooLate
  | forced
  | dayBackward
  | overload
  | configInvalid
  | unknownQuery
  | badCode
  deriving DecidableEq, Repr

/-- DEPART inhibits, in R30's order. -/
inductive Inhibit where
  | mode
  | planEmpty
  | position
  | doors
  | windows
  | carLink
  | supervision
  | imbalance
  | brakes
  | drive
  | alarm
  | test
  deriving DecidableEq, Repr

/-- TRIP_RESET reasons, in R81's order. -/
inductive TripReason where
  | mode
  | moving
  | overtravel
  | sbFeedback
  | ebFeedback
  | railA
  | railB
  deriving DecidableEq, Repr

/-- BRAKE_TEST reasons, in R83's order. -/
inductive TestReason where
  | notHeld
  | mode
  | windows
  | doors
  | brakes
  | carLink
  | stopping
  deriving DecidableEq, Repr

/-- DOOR_RELEASE reasons, in R110's order. -/
inductive ReleaseReason where
  | notHeld
  | mode
  | brake
  | standstill
  | offStop
  | notPlatform
  | carLink
  | sideState
  deriving DecidableEq, Repr

/-- EVAC_RELEASE reasons, in R111's order. -/
inductive EvacReason where
  | mode
  | notHeld
  | brake
  | standstill
  | notWalkway
  | carLink
  | sideState
  deriving DecidableEq, Repr

/-- SET_MODE reasons, in R168's order. -/
inductive ModeReason where
  | notHeld
  | windows
  | doors
  | atStop
  | moving
  | tripLatched
  deriving DecidableEq, Repr

/-- Configuration checks, in the order of R8 and R169. -/
inductive ConfigCheck where
  | lineAbsent
  | segEmpty
  | segFirst
  | segDuplicate
  | segBeyond
  | segLimit
  | stopRange
  | stopDuplicate
  | stopGates
  | markRange
  | creepAboveLine
  | gatesAbsent
  | terminalStop
  deriving DecidableEq, Repr

/-- Outcomes of an insertion (R154). -/
inductive InsertOutcome where
  | new
  | replaced
  | tableFull
  | nothing
  deriving DecidableEq, Repr

/-- The detail of a REFUSED reply, as the refusing rule names it (R189). -/
inductive Detail where
  | empty
  /-- the kind received (R186, R188) -/
  | kind (k : Byte)
  /-- the payload length received (R186) -/
  | length (n : Nat)
  /-- the offset of the field named (R197) -/
  | field (offset : Nat)
  /-- the present line mode (R167) -/
  | mode (m : Mode)
  | inhibits (l : List Inhibit)
  | tripReasons (l : List TripReason)
  | testReasons (l : List TestReason)
  | releaseReasons (l : List ReleaseReason)
  | evacReasons (l : List EvacReason)
  | modeReasons (l : List ModeReason)
  /-- ALARM_CLEAR: NO_STATUS, or ALARM_ACTIVE when true (R99) -/
  | alarm (active : Bool)
  /-- DOOR_CLOSE: NOT_FRESH, or MOVING when true (R116) -/
  | door (moving : Bool)
  | config (c : ConfigCheck)
  /-- counters over threshold (R167) -/
  | counters (o : OverSet)
  /-- the current day (R134) -/
  | day (d : Nat)
  /-- the window state (R150) -/
  | window (w : WindowState)
  /-- the insertion outcome (R154) -/
  | insert (o : InsertOutcome)
  /-- the expected code (R176) -/
  | code (c : SupCode)
  deriving DecidableEq, Repr

/-- POSITION_READ's data (R23). -/
structure PositionData where
  x : Int
  xc : Int
  validity : Validity
  u : Nat
  sm : Nat
  vMeas : Nat
  standstill : Bool
  segA : Option Nat
  segB : Option Nat
  lower : Bool
  upper : Bool
  otLower : Bool
  otUpper : Bool
  loaded : Bool
  deriving DecidableEq, Repr

/-- HAULAGE_READ's data (R45). -/
structure HaulageData where
  state : HState
  berth : Berth
  dest : Option Nat
  dir : Dir
  plan : List Nat
  legMark : Bool
  vRef : Nat
  ramp : Bool
  ready : Bool
  fault : Bool
  notHeld : Bool
  inhibits : List Inhibit
  deriving DecidableEq, Repr

/-- ENVELOPE_READ's data (R67). sine, penalty, c, mS and mE are none where they rest on line parameters that are not loaded yet
(assumption log 12). -/
structure EnvelopeData where
  braking : Braking
  sine : Option Nat
  penalty : Option Nat
  snapshot : Option (PerCar CarLoad)
  c : Option Nat
  vPerm : Nat
  binding : Option Binding
  level : Level
  mS : Option Nat
  mE : Option Nat
  acc : Nat
  ordered : Bool
  tsrs : List Tsr
  deriving DecidableEq, Repr

/-- BRAKE_READ's data (R88). -/
structure BrakeData where
  recs : PerBrake BrakeRec
  readings : PerBrake Reading
  stop : Option StopRecord
  latch : Option StopCause
  railTrip : Bool
  test : Option BrakeTest
  torqueLine : Bool
  reasons : List TripReason
  deriving DecidableEq, Repr

/-- CAR_READ's data (R102). -/
structure CarData where
  recs : PerCar CarRec
  route : AlarmRoute
  lowerLine : Bool
  upperLine : Bool
  deriving DecidableEq, Repr

/-- DOOR_READ's data (R124); the levels follow from the states (R105). -/
structure DoorData where
  sides : PerCar (PerSide DoorSide)
  cleared : PerCar Bool
  deriving DecidableEq, Repr

/-- The Pass Table's summary (R132). -/
structure PassSummary where
  day : Nat
  clock : Nat
  places : Nat
  marked : Nat
  withHeld : Nat
  heldSum : Nat
  deriving DecidableEq, Repr

/-- How a PASS_INSERT ended (R129). -/
inductive InsertEnd where
  | complete
  | tableFull (position : Nat)
  | badField (position offset : Nat)
  deriving DecidableEq, Repr

/-- BOARDING_READ's data (R163). -/
structure BoardingData where
  gates : List GateRec
  windows : PerGroup Window
  slots : AccessSlots
  tally : PerCar Tally
  running : Bool
  deriving DecidableEq, Repr

/-- MODE_READ's data (R183). -/
structure ModeData where
  mode : Mode
  variant : Option Variant
  target : Option WarmTarget
  warmTimer : Timer
  expected : SupCode
  supTimer : SupTimer
  lost : Bool
  cause : ResetCause
  deriving DecidableEq, Repr

/-- The totals of LINK_READ (R195). -/
structure LinkTotals where
  received : Nat
  skipped : Nat
  abandoned : Nat
  lengthDiscards : Nat
  checkDiscards : Nat
  badRefusals : Nat
  overloads : Nat
  unanswered : Nat
  repliesSent : Nat
  reportsSent : Nat
  reportsLost : Nat
  deriving DecidableEq, Repr

/-- The report mask, one bit for each class in the order of section 10.3's table (R190, R197). -/
abbrev ReportMask := BitVec 16

/-- LINK_READ's data (R195). -/
structure LinkData where
  places : Nat
  overloads : Nat
  queued : Nat
  mask : ReportMask
  lost : Nat
  totals : LinkTotals
  deriving DecidableEq, Repr

/-- The data of an ACCEPTED reply, as the owner's rule names it (R189). -/
inductive ReplyData where
  | none
  | position (d : PositionData)
  /-- the resulting queue length (R28) -/
  | queueLength (n : Nat)
  /-- destination stop, its x_s and the direction (R31) -/
  | departed (stop pos : Nat) (dir : Dir)
  /-- the haulage state at acceptance (R38) -/
  | haulageState (h : HState)
  | haulage (d : HaulageData)
  /-- stored speed, replaced, entries held (R65) -/
  | tsrAdded (speed : Nat) (replaced : Bool) (held : Nat)
  /-- removed, entries held (R66) -/
  | tsrRemoved (removed : Bool) (held : Nat)
  | envelope (d : EnvelopeData)
  | brakes (d : BrakeData)
  /-- whether the latch was set (R99) -/
  | alarmCleared (wasSet : Bool)
  /-- the resulting set (R100) -/
  | route (r : AlarmRoute)
  | cars (d : CarData)
  /-- released yes or no (R110, R111) -/
  | released (yes : Bool)
  /-- the side's state after the request (R116) -/
  | doorState (d : DoorState)
  | doors (d : DoorData)
  /-- new, replaced, outcome, places (R129) -/
  | inserted (new replaced : Nat) (how : InsertEnd) (places : Nat)
  /-- not found, deleted, deferred, places (R130) -/
  | deleted (notFound deleted deferred places : Nat)
  /-- changed, left, not found (R131) -/
  | blocked (changed left notFound : Nat)
  | pass (entry : Option PassEntry) (summary : PassSummary)
  /-- purged, deferred, places (R134) -/
  | dayset (purged deferred places : Nat)
  /-- seconds loaded (R150) -/
  | extended (seconds : Nat)
  /-- the window state after the request (R150) -/
  | windowState (w : WindowState)
  /-- verdict set and insertion outcome (R154) -/
  | answered (v : Verdict) (o : InsertOutcome)
  | boarding (d : BoardingData)
  /-- already the target, and the mode after (R167) -/
  | modeSet (already : Bool) (mode : Mode)
  /-- new expected code, and whether supervision had been lost (R176) -/
  | supervised (code : SupCode) (wasLost : Bool)
  /-- stored count and exponent, over threshold (R180) -/
  | healthSet (count exp : Nat) (isOver : Bool)
  | health (h : Health)
  | mode (d : ModeData)
  | mask (m : ReportMask)
  | link (d : LinkData)
  deriving DecidableEq, Repr

/-- An owner's answer to a request (R189). -/
inductive Answer where
  | accepted (d : ReplyData)
  | refused (r : Reason) (d : Detail)
  deriving DecidableEq, Repr

/-- A reply: the tag and kind of its request, and the answer (R189). -/
structure Reply where
  tag : Byte
  kind : Byte
  answer : Answer
  deriving DecidableEq, Repr

/-! ## Supervisory Link Port (chapter 10) -/

/-- The receiver's framing state; in a frame it holds the bytes after the sync (R184). -/
inductive Receiver where
  | hunting
  | inFrame (bytes : List Byte)
  deriving DecidableEq, Repr

/-- A reply waiting for the transmitter, and whether it waits in the overload list (R187, R188). -/
structure Waiting where
  overload : Bool
  reply : Reply
  deriving DecidableEq, Repr

/-- A received frame held unhandled after an accepted RESTART (R189). -/
structure Unhandled where
  tag : Byte
  kind : Byte
  deriving DecidableEq, Repr

/-- A frame on the transmit line (R192, R194). -/
inductive Sending where
  | reply (r : Reply)
  | report (lost : Nat) (r : Report)
  deriving DecidableEq, Repr

/-- The Supervisory Link Port's state (chapter 10). -/
structure Link where
  receiver : Receiver
  /-- the gap timer (R184) -/
  gap : Timer
  /-- waiting replies in the order in which they were made: those of the receive buffer and of the overload list -/
  waiting : List Waiting
  /-- frames held unhandled in the receive buffer (R189) -/
  unhandled : List Unhandled
  queue : List Report
  mask : ReportMask
  lost : Nat
  /-- the frame being sent, none while the transmitter is idle (R194) -/
  sending : Option Sending
  totals : LinkTotals
  /-- a RESTART has been accepted (R182, R189) -/
  restarting : Bool
  deriving DecidableEq, Repr

/-! ## The whole machine -/

/-- The state of the JK-240. -/
structure State where
  ptr : Tracker
  hac : Haulage
  osp : Supervisor
  bsq : Brakes
  clu : CarLinks
  dru : Doors
  ptb : PassTable
  glm : GateLoop
  tally : PerCar Tally
  lmu : LineMode
  slp : Link
  /-- the line parameters, none while not loaded (R4) -/
  line : Option LineFields
  segs : List Segment
  stops : List StopRec
  markers : List Marker
  /-- while the external reset line is held active: the cause its release will give (R181) -/
  inReset : Option ResetCause
  /-- the model's own: hand-overs nested deeper than the model follows (assumption log 3) -/
  overrun : Bool
  /-- the model's own: the commands that are waiting, first in, first out -/
  pending : List Instr
  deriving DecidableEq, Repr

/-- Why the machine stops. -/
inductive Fault where
  /-- A step's hand-overs between blocks nested deeper than Config.handOverDepth, so the model stops rather than drop one.
  Raised by every meaning; the manual gives no such depth and no state it describes reaches it. Safe. -/
  | handOverDepth
  deriving DecidableEq, Repr

/-- Why a command has no meaning. -/
inductive Refusal where
  /-- Raised by exec for a command without a meaning yet; no command of the table is left so. Safe. -/
  | notModelled (mnemonic : String)
  deriving DecidableEq, Repr

/-! ## Reset values -/

/-- The Position Tracker after reset (R21). -/
def Tracker.reset : Tracker :=
  { countP := 0, countC := 0, offsetP := 0, offsetC := 0, x := 0, xc := 0, sm := 0, u := 0, hist := [],
    first := .afterReset, vMeas := 0, standstill := false, still := none, validity := .lost, beyond := false,
    lastPassage := ⟨none, none⟩, lower := false, upper := false, otLower := false, otUpper := false }

/-- An off-stop berth record (R25). -/
def Berth.offStop : Berth := { stop := none, onA := false, onB := false }

/-- The Haulage Controller after reset (R46). -/
def Haulage.reset : Haulage :=
  { state := .held, berth := .offStop, plan := [], legMark := false, dest := none, tripDir := .up, vRef := 0, ramp := false,
    ready := true, fault := false, stalled := false, word := none }

/-- The Overspeed Supervisor after reset (R68). -/
def Supervisor.reset : Supervisor :=
  { level := .none, vPerm := 0, binding := none, snapshot := none, tsrs := [], acc := 0, ordered := false, heldRef := 0,
    fresh := true, last := none }

/-- A brake record after reset with its contacts reading between or released (R89). -/
def BrakeRec.reset : BrakeRec := { cmd := .apply, state := .setting, timer := none }

/-- Contacts both open. -/
def Contacts.bothOpen : Contacts := { applied := false, released := false }

/-- The Brake Sequencer after reset, with contacts both open (R89; the contacts: assumption log 5). -/
def Brakes.reset : Brakes :=
  { recs := ⟨.reset, .reset⟩, contacts := ⟨.bothOpen, .bothOpen⟩, stop := none, latch := none, railTrip := false, test := none,
    torqueLine := false, vHist := [] }

/-- Command levels all withdrawn. -/
def CommandLevels.clear : CommandLevels :=
  { releaseLeft := false, releaseRight := false, closeLeft := false, closeRight := false, railTrip := false }

/-- A car record after reset (R103). -/
def CarRec.reset : CarRec :=
  { freshness := .never, status := none, lastSeq := none, since := none, discards := 0, accepted := 0, discarded := 0,
    duplicates := 0, alarm := false, running := true, timer := some Config.commandMs, lastSent := .clear }

/-- The Car Link Unit after reset (R103). -/
def CarLinks.reset : CarLinks := { recs := ⟨.reset, .reset⟩, route := { report := true, lower := false, upper := false } }

/-- A door-side record after reset (R125). -/
def DoorSide.reset : DoorSide :=
  { state := .unproven, kind := none, stop := none, retries := 0, ackTimer := none, closeTimer := none, retryTimer := none,
    faultCause := none, clearing := false }

/-- The Door Release Unit after reset (R125). -/
def Doors.reset : Doors :=
  { sides := ⟨⟨.reset, .reset⟩, ⟨.reset, .reset⟩⟩, cleared := ⟨false, false⟩ }

/-- The Pass Table after POWER_ON or RESET_LINE (R141). -/
def PassTable.reset : PassTable := { entries := [], day := 0, clock := 0 }

/-- A boarding window after reset (R164). -/
def Window.reset : Window := { state := .shut, car := none, stop := none, dwell := none }

/-- The Gate Loop Master after POWER_ON or RESET_LINE (R164). -/
def GateLoop.reset : GateLoop :=
  { gates := [], windows := ⟨.reset, .reset, .reset, .reset⟩, slots := { s1 := none, s2 := none, secondFirst := false },
    running := true, cycle := 0, cursor := 0, poll := none }

/-- The Boarding Tally of a car after reset while C is unknown (R164). -/
def Tally.reset : Tally := { aboardMin := 0, aboardMax := 0, inFlight := 0, unknown := true }

/-- A health counter after POWER_ON or RESET_LINE (R183). -/
def Counter.reset : Counter := { count := 0, exp := 4 }

/-- The Line Mode Unit after POWER_ON (R183). -/
def LineMode.reset : LineMode :=
  { mode := .init, variant := none, target := none, warmTimer := none, warmBack := { keepLinks := true, keepLoop := true },
    expected := .c3C, supTimer := .notStarted, suspended := false, lost := false,
    health := { pos := .reset, linkA := .reset, linkB := .reset, gates := .reset, frames := .reset }, cause := .powerOn }

/-- The totals after reset (R196). -/
def LinkTotals.reset : LinkTotals :=
  { received := 0, skipped := 0, abandoned := 0, lengthDiscards := 0, checkDiscards := 0, badRefusals := 0, overloads := 0,
    unanswered := 0, repliesSent := 0, reportsSent := 0, reportsLost := 0 }

/-- The Supervisory Link Port after reset, before the START_UP report is queued (R196). -/
def Link.reset : Link :=
  { receiver := .hunting, gap := none, waiting := [], unhandled := [], queue := [], mask := 0, lost := 0, sending := none,
    totals := .reset, restarting := false }

/-- The START_UP report of a power-up (R181). -/
def StartUpReport.powerOn : StartUpReport :=
  { cause := .powerOn, loaded := false, segments := 0, stops := 0, markers := 0, gates := 0, places := 0, day := 0,
    expected := .c3C, health := LineMode.reset.health }

/-- The machine right after a POWER_ON reset: every block at its reset values, the START_UP report queued and, the
transmitter being idle, begun (R181, R194, R196). -/
def State.reset : State :=
  { ptr := .reset, hac := .reset, osp := .reset, bsq := .reset, clu := .reset, dru := .reset, ptb := .reset, glm := .reset,
    tally := ⟨.reset, .reset⟩, lmu := .reset,
    slp := { Link.reset with
      sending := some (.report 0 (.startUp .powerOn)), totals := { LinkTotals.reset with reportsSent := 1 } },
    line := none, segs := [], stops := [], markers := [], inReset := none, overrun := false, pending := [] }

end Sys2Proof.Machine
end

