-- ==== Sys2Proof/Machine/Ops.lean ====
section
/-! DEFINITION. Shared operations: integer arithmetic, reads of state that several blocks use, the report queue and the
transmitter, the health counters, boarding windows as data, and the hand-overs between blocks as the type Act. -/

namespace Sys2Proof.Machine

/-! ## Integer arithmetic (00_scope, Conventions) -/

/-- Quotient rounded up. -/
def ceilDiv (a b : Nat) : Nat := (a + b - 1) / b

/-- The bits of the square root of n from bit i - 1 downward, r being the bits found so far. -/
def isqrtFrom : Nat → Nat → Nat → Nat
  | 0, _, r => r
  | i + 1, n, r => if (r + 2 ^ i) * (r + 2 ^ i) ≤ n then isqrtFrom i n (r + 2 ^ i) else isqrtFrom i n r

/-- The greatest integer whose square does not exceed n. -/
def isqrt (n : Nat) : Nat := isqrtFrom (n.log2 / 2 + 1) n 0

/-- A count raised by an amount and saturating at 65,535 (R91, R179, R195). -/
def satCount (n amount : Nat) : Nat := min 65535 (n + amount)

/-- Apply f to x, n times. -/
def repeatN {α : Type} : Nat → (α → α) → α → α
  | 0, _, x => x
  | n + 1, f, x => repeatN n f (f x)

/-- Apply a step to a state for each element of a list, in order. -/
def forEach {α : Type} (l : List α) (f : α → State → State) (s : State) : State := l.foldl (fun t a => f a t) s

/-! ## Codes of names -/

/-- Both sides of a car, LEFT before RIGHT (R107). -/
def bothSides : List Side := [.left, .right]

/-- Both cars, A before B (R107). -/
def bothCars : List Car := [.a, .b]

/-- The four groups in rising order. -/
def allGroups : List Group := [.g1, .g2, .g3, .g4]

/-- A group's number, 1 to 4. -/
def Group.num : Group → Nat
  | .g1 => 1
  | .g2 => 2
  | .g3 => 3
  | .g4 => 4

/-- The group of a number. -/
def groupOf? : Nat → Option Group
  | 1 => some .g1
  | 2 => some .g2
  | 3 => some .g3
  | 4 => some .g4
  | _ => none

/-- The kind code of a request (section 11.1). -/
def ReqKind.code : ReqKind → Byte
  | .configureLine => 0x01
  | .loadSegments => 0x02
  | .loadStops => 0x03
  | .loadMarkers => 0x04
  | .positionRead => 0x05
  | .planSet => 0x06
  | .planAppend => 0x07
  | .planClear => 0x08
  | .depart => 0x09
  | .stop => 0x0A
  | .haulageRead => 0x0B
  | .tsrAdd => 0x0C
  | .tsrRemove => 0x0D
  | .envelopeRead => 0x0E
  | .tripReset => 0x0F
  | .brakeTest => 0x10
  | .brakeRead => 0x11
  | .alarmClear => 0x12
  | .alarmRouteSet => 0x13
  | .alarmRouteClear => 0x14
  | .carRead => 0x15
  | .doorRelease => 0x16
  | .evacRelease => 0x17
  | .doorClose => 0x18
  | .doorRead => 0x19
  | .passInsert => 0x1A
  | .passDelete => 0x1B
  | .passBlock => 0x1C
  | .passUnblock => 0x1D
  | .passRead => 0x1E
  | .setDay => 0x1F
  | .loadGates => 0x20
  | .boardingExtend => 0x21
  | .boardingClose => 0x22
  | .ticketAnswer => 0x23
  | .gateAccess => 0x24
  | .boardingRead => 0x25
  | .setMode => 0x26
  | .supervise => 0x27
  | .healthSet => 0x28
  | .healthRead => 0x29
  | .modeRead => 0x2A
  | .restart => 0x2B
  | .reportMaskSet => 0x2C
  | .reportMaskClear => 0x2D
  | .linkRead => 0x2E

/-! ## Reports and the transmit line (sections 10.3 and 10.4) -/

/-- The class of a report. -/
def Report.cls : Report → ReportClass
  | .startUp _ => .startUp
  | .mode _ => .mode
  | .overspeed _ => .overspeed
  | .brake _ => .brake
  | .alarm _ => .alarm
  | .ticketQuery _ => .ticketQuery
  | .trip _ => .trip
  | .door _ => .door
  | .window _ => .window
  | .admission _ => .admission
  | .gate _ => .gate
  | .accessDone _ => .accessDone
  | .health _ => .health
  | .carLink _ => .carLink
  | .position _ => .position

/-- The place of a class in section 10.3's table, from 0; its kind value is 0x80 plus this (section 11.1). -/
def ReportClass.index : ReportClass → Nat
  | .startUp => 0
  | .mode => 1
  | .overspeed => 2
  | .brake => 3
  | .alarm => 4
  | .ticketQuery => 5
  | .trip => 6
  | .door => 7
  | .window => 8
  | .admission => 9
  | .gate => 10
  | .accessDone => 11
  | .health => 12
  | .carLink => 13
  | .position => 14

/-- The nine maskable classes (R190). -/
def ReportClass.maskable : ReportClass → Bool
  | .startUp | .mode | .overspeed | .brake | .alarm | .ticketQuery => false
  | .trip | .door | .window | .admission | .gate | .accessDone | .health | .carLink | .position => true

/-- The mask bits of the nine maskable classes. -/
def maskableBits : ReportMask := 0x7FC0

/-- Whether a class is masked (R190). -/
def Link.masks (l : Link) (c : ReportClass) : Bool := c.maskable && l.mask.getLsbD c.index

/-- Count one lost report (R191). -/
def Link.loseOne (l : Link) : Link :=
  { l with lost := min 255 (l.lost + 1), totals := { l.totals with reportsLost := satCount l.totals.reportsLost 1 } }

/-- A queue without its oldest report of a maskable class; without its oldest report where it holds none (R191). -/
def evictFrom (q : List Report) : List Report :=
  if q.any (fun r => r.cls.maskable) then q.eraseP (fun r => r.cls.maskable) else q.tail

/-- A report of an unmasked class meets the report queue (R190, R191). -/
def Link.enqueue (l : Link) (r : Report) : Link :=
  if l.queue.length < Config.queuePlaces then { l with queue := l.queue ++ [r] }
  else if r.cls.maskable then l.loseOne
  else { l.loseOne with queue := evictFrom l.queue ++ [r] }

/-- An idle transmitter with something waiting begins the oldest reply, else the oldest report (R192, R194). -/
def Link.transmit (l : Link) : Link :=
  match l.sending with
  | some _ => l
  | none =>
    match l.waiting with
    | w :: rest =>
      { l with sending := some (.reply w.reply), waiting := rest,
               totals := { l.totals with repliesSent := satCount l.totals.repliesSent 1 } }
    | [] =>
      match l.queue with
      | r :: rest =>
        { l with sending := some (.report l.lost r), queue := rest, lost := 0,
                 totals := { l.totals with reportsSent := satCount l.totals.reportsSent 1 } }
      | [] => l

/-- A block posts a report (R190). -/
def post (r : Report) (s : State) : State :=
  if s.slp.masks r.cls then s else { s with slp := (s.slp.enqueue r).transmit }

/-! ## Reads that several blocks use -/

/-- The line parameters are loaded (R4). -/
def State.loaded (s : State) : Bool := s.line.isSome

/-- A timer's start: the bound while the parameters are loaded, none before (R69, R104). -/
def State.bound (s : State) (f : LineFields → Nat) : Timer := s.line.map f

/-- A timer whose parameter is in seconds. -/
def State.boundSec (s : State) (f : LineFields → Nat) : Timer := s.line.map (fun p => f p * 1000)

/-- A parameter, 0 before the parameters are loaded. -/
def State.param (s : State) (f : LineFields → Nat) : Nat := (s.line.map f).getD 0

/-- The haulage is moving (R24). -/
def State.moving (s : State) : Bool := s.hac.state != .held

/-- The haulage is HELD. -/
def State.isHeld (s : State) : Bool := s.hac.state == .held

/-- The stop record of an index (R26). -/
def State.stopAt? (s : State) (i : Nat) : Option StopRec := s.stops.find? (fun r => r.index == i)

/-- The coming direction (R25). -/
def State.comingDir (s : State) : Dir :=
  if s.moving then s.hac.tripDir
  else
    match s.hac.plan with
    | [] => .up
    | i :: _ =>
      match s.stopAt? i with
      | some r => if s.ptr.x < (r.pos : Int) then .up else .down
      | none => .up

/-- d_p of the latest sample. -/
def Tracker.dp (t : Tracker) : Int := (t.hist.head?.map DistanceTerms.p).getD 0

/-- The track location of a car (R1). -/
def State.locationOf (s : State) (len : Nat) : Car → Int
  | .a => s.ptr.x
  | .b => (len : Int) - s.ptr.x

/-- The place in the stored table of the segment that contains a track location (R2). Of segments with one start, which a table
may hold until its check, the later in the stored order is taken; a location from 0 to below the first start, which R2 leaves
without a record, takes the first (DESIGN CHOICE, assumption log 54). -/
def segmentIndex (segs : List Segment) (len : Nat) (q : Int) : Option Nat :=
  if segs.isEmpty then none
  else if (len : Int) ≤ q then some (segs.length - 1)
  else some ((segs.filter (fun g => (g.start : Int) ≤ q)).length - 1)

/-- The segment index of a car (R2); none while the table is empty or L is unknown. -/
def State.segIndexOf (s : State) (c : Car) : Option Nat :=
  s.line.bind (fun p => segmentIndex s.segs p.lineLength (s.locationOf p.lineLength c))

/-- The segment record of a car (R2). -/
def State.segOf (s : State) (c : Car) : Option Segment := (s.segIndexOf c).bind (fun i => s.segs[i]?)

/-- A door-side record. -/
def State.side (s : State) (c : Car) (d : Side) : DoorSide := (s.dru.sides.get c).get d

/-- Replace a door-side record. -/
def State.setSide (s : State) (c : Car) (d : Side) (r : DoorSide) : State :=
  { s with dru := { s.dru with sides := s.dru.sides.set c ((s.dru.sides.get c).set d r) } }

/-- All four door sides are SECURED. -/
def State.allSecured (s : State) : Bool :=
  bothCars.all (fun c => bothSides.all (fun d => (s.side c d).state == .secured))

/-- The record of a car. -/
def State.car (s : State) (c : Car) : CarRec := s.clu.recs.get c

/-- Replace the record of a car. -/
def State.setCar (s : State) (c : Car) (r : CarRec) : State :=
  { s with clu := { s.clu with recs := s.clu.recs.set c r } }

/-- A car record is FRESH. -/
def State.isFresh (s : State) (c : Car) : Bool := (s.car c).freshness == .fresh

/-- Both car records are FRESH. -/
def State.bothFresh (s : State) : Bool := s.isFresh .a && s.isFresh .b

/-- A brake record. -/
def State.brake (s : State) (b : BrakeId) : BrakeRec := s.bsq.recs.get b

/-- Replace a brake record. -/
def State.setBrake (s : State) (b : BrakeId) (r : BrakeRec) : State :=
  { s with bsq := { s.bsq with recs := s.bsq.recs.set b r } }

/-- The reading of a pair of contacts (R69). -/
def Contacts.reading (c : Contacts) : Reading :=
  match c.applied, c.released with
  | true, false => .applied
  | false, true => .released
  | true, true => .between
  | false, false => .between

/-- The reading of a brake. -/
def State.reading (s : State) (b : BrakeId) : Reading := (s.bsq.contacts.get b).reading

/-- The service brake record is APPLIED. -/
def State.sbApplied (s : State) : Bool := (s.brake .sb).state == .applied

/-- Live load values of both cars (R48). -/
def State.liveLoads (s : State) : PerCar CarLoad :=
  let one (c : Car) : CarLoad :=
    { aboardMin := (s.tally.get c).aboardMin, aboardMax := (s.tally.get c).aboardMax,
      reported := ((s.car c).status.bind CarStatus.load).map (fun l => min 20000 l) }
  ⟨one .a, one .b⟩

/-- A boarding window. -/
def State.window (s : State) (g : Group) : Window := s.glm.windows.get g

/-- Some boarding window is OPEN or SEALING. -/
def State.windowsBusy (s : State) : Bool :=
  allGroups.any (fun g => (s.window g).state == .opened || (s.window g).state == .sealing)

/-- A gate record, found by its address. -/
def State.gate? (s : State) (a : Nat) : Option GateRec := s.glm.gates.find? (fun g => g.address == a)

/-- Replace the gate record that has the same address. -/
def State.setGate (s : State) (g : GateRec) : State :=
  { s with glm := { s.glm with gates := s.glm.gates.map (fun h => if h.address == g.address then g else h) } }

/-- Persons pending at a gate (R143). -/
def GateRec.pending (g : GateRec) : Nat := (g.admission.map Admission.pending).getD 0

/-- Persons pending over the gates of a group. -/
def State.pendingOver (s : State) (g : Group) : Nat :=
  ((s.glm.gates.filter (fun h => h.group == g)).map GateRec.pending).sum

/-- The tally of a car. -/
def State.tallyOf (s : State) (c : Car) : Tally := s.tally.get c

/-- Replace the tally of a car. -/
def State.setTally (s : State) (c : Car) (t : Tally) : State := { s with tally := s.tally.set c t }

/-- Car capacity C; 0 while unknown. -/
def State.capacity (s : State) : Nat := s.param LineFields.capacity

/-! ## Windows as data (R148, R149) -/

/-- Give a window a new record and report the change of state; READY and SHUT gates of the group follow (R143). -/
def setWindow (g : Group) (w : Window) (cause : WindowCause) (s : State) : State :=
  let old := s.window g
  let follow (h : GateRec) : GateRec :=
    if h.group == g && w.state == .opened && h.state == .shut then { h with state := .ready }
    else if h.group == g && w.state != .opened && h.state == .ready then { h with state := .shut }
    else h
  let s := { s with glm := { s.glm with windows := s.glm.windows.set g w, gates := s.glm.gates.map follow } }
  if w.state == old.state then s
  else
    post (.window { group := g, before := old.state, after := w.state, cause := cause, car := w.car, stop := w.stop,
                    pending := s.pendingOver g }) s

/-- When the Haulage Controller leaves HELD every SEALED window becomes SHUT (R149), groups 1 to 4 in turn (DESIGN
CHOICE, assumption log 60). -/
def shutSealedWindows (s : State) : State :=
  forEach allGroups (fun g t =>
    if (t.window g).state == .sealed then setWindow g .reset .departure t else t) s

/-! ## Health counters as data (R179) -/

/-- A health counter. -/
def Health.get (h : Health) : CounterName → Counter
  | .pos => h.pos
  | .linkA => h.linkA
  | .linkB => h.linkB
  | .gates => h.gates
  | .frames => h.frames

/-- Replace a health counter. -/
def Health.set (h : Health) (n : CounterName) (c : Counter) : Health :=
  match n with
  | .pos => { h with pos := c }
  | .linkA => { h with linkA := c }
  | .linkB => { h with linkB := c }
  | .gates => { h with gates := c }
  | .frames => { h with frames := c }

/-- A counter is over threshold while its count is at or above 2^e (R179). -/
def Counter.isOver (c : Counter) : Bool := decide (2 ^ c.exp ≤ c.count)

/-- Which of POS, LINK_A and LINK_B are over threshold (R175). These are the counters that a FORCED refusal and a FORCED MODE
report list; GATES and FRAMES are not among them (R167, R183; DESIGN CHOICE, assumption log 70). -/
def Health.forcing (h : Health) : OverSet :=
  { pos := h.pos.isOver, linkA := h.linkA.isOver, linkB := h.linkB.isOver }

/-- Some member is over threshold. -/
def OverSet.any (o : OverSet) : Bool := o.pos || o.linkA || o.linkB

/-- The counters whose crossing forces REDUCED (R175). -/
def CounterName.forces : CounterName → Bool
  | .pos | .linkA | .linkB => true
  | .gates | .frames => false

/-- The counter of a car's link. -/
def linkCounter : Car → CounterName
  | .a => .linkA
  | .b => .linkB

/-! ## Hand-overs between blocks -/

/-- A mode to enter, with the parked variant of PARKED and the target of WARMING (R165). -/
structure ModeEntry where
  mode : Mode
  variant : Option Variant
  target : Option WarmTarget
  deriving DecidableEq, Repr

/-- An entry into a mode other than PARKED and WARMING. -/
def ModeEntry.plain (m : Mode) : ModeEntry := { mode := m, variant := none, target := none }

/-- What one block can hand to another, each done whole at the moment it is handed over (R165, "each hand-over is made at
once"; assumption log 3). -/
inductive Act where
  /-- an order to the stop record (R74) -/
  | orderStop (kind : StopKind) (cause : StopCause)
  /-- a brake command (R70, R72) -/
  | command (b : BrakeId) (c : BrakeCmd)
  /-- a brake record has changed state (R72) -/
  | brakesChanged
  /-- the conditions of R35a, R40, R75 and R79 may have come true -/
  | settle
  /-- the interlock watch (R73) -/
  | interlock
  /-- abort a running brake test (R86) -/
  | abortTest (cause : AbortCause)
  /-- a door side takes a new record (R107) -/
  | sideTo (car : Car) (side : Side) (r : DoorSide) (event : DoorEvent) (cause : Option DoorCause)
  /-- a close order of R115 -/
  | closeSide (car : Car) (side : Side)
  /-- an OPEN window enters SEALING (R149) -/
  | sealWindow (g : Group) (cause : WindowCause)
  /-- a change of line mode (R165) -/
  | changeMode (entry : ModeEntry) (cause : ModeCause) (unmet : Option WarmUnmet)
  /-- a car record takes a new freshness (R94) -/
  | freshness (car : Car) (f : Freshness)
  deriving DecidableEq, Repr

/-- How an operation reaches the other blocks. -/
abbrev Hand := Act → State → State

/-- An increment of a health counter (R175, R179). -/
def bumpHealth (k : Hand) (n : CounterName) (amount : Nat) (s : State) : State :=
  let old := s.lmu.health.get n
  let new : Counter := { old with count := satCount old.count amount }
  let s := { s with lmu := { s.lmu with health := s.lmu.health.set n new } }
  if !old.isOver && new.isOver then
    let forced := n.forces && s.lmu.mode == .service
    let s := post (.health { counter := n, isOver := true, count := new.count, exp := new.exp,
                             mode := if forced then .reduced else s.lmu.mode }) s
    if forced then k (.changeMode (.plain .reduced) .forced none) s else s
  else s

end Sys2Proof.Machine
end

