-- ==== Sys2Proof/Machine/Envelope.lean ====
section
/-! DEFINITION. The braking envelope: stages 1 to 6 of chapter 3 as arithmetic over the state, the admission projection and
the IMBALANCE condition. Nothing here changes state. -/

namespace Sys2Proof.Machine

/-- The car that descends (R49). -/
def descendingCar : Dir → Car
  | .up => .b
  | .down => .a

/-- W_d: the upper load of the descending car (R49). -/
def upperLoad (massPerPerson : Nat) (l : CarLoad) : Nat := max (l.aboardMax * massPerPerson) (l.reported.getD 0)

/-- W_a: the lower load of the ascending car (R49). -/
def lowerLoad (massPerPerson : Nat) (l : CarLoad) : Nat :=
  match l.reported with
  | some r => min (l.aboardMin * massPerPerson) r
  | none => l.aboardMin * massPerPerson

/-- a_penalty (R50). -/
def penaltyOf (excess sine mEq : Nat) : Nat := ceilDiv (excess * Config.gravity * sine) (1000 * mEq)

/-- Stages 1 and 2 for a coming direction and given loads (R49, R50). Before the line parameters are loaded, R50 states a_eff
and IMBALANCE; s and a_penalty stand at 0 here, where nothing reads them but ENVELOPE_READ, which sends them as fields without
stated content (assumption log 12). -/
def State.braking (s : State) (dir : Dir) (loads : PerCar CarLoad) : Braking :=
  let d := descendingCar dir
  let m := s.param LineFields.mP
  let wD := upperLoad m (loads.get d)
  let wA := lowerLoad m (loads.get d.other)
  let excess := wD - wA
  let sine := ((s.segOf d).map Segment.sinePm).getD 0
  match s.line with
  | none =>
    { descending := d, wD := wD, wA := wA, excess := excess, sine := sine, penalty := 0, aEff := 50, imbalance := true }
  | some p =>
    let penalty := penaltyOf excess sine p.mEq
    let aEff := max 50 (p.aEb - penalty)
    { descending := d, wD := wD, wA := wA, excess := excess, sine := sine, penalty := penalty, aEff := aEff,
      imbalance := decide (aEff < p.aFloor) }

/-- Stages 1 and 2 on demand: live values and the present coming direction (R47, R48). -/
def State.brakingOnDemand (s : State) : Braking := s.braking s.comingDir s.liveLoads

/-- The loads an evaluation uses: the snapshot while the haulage is away from HELD and it is in force, live values otherwise
(R48). -/
def State.evaluationLoads (s : State) : PerCar CarLoad :=
  if s.moving then s.osp.snapshot.getD s.liveLoads else s.liveLoads

/-- The reaction term c (R51). -/
def reactionTerm (aEff tR : Nat) : Nat := ceilDiv (aEff * tR) 1000

/-- A braking target: its speed, its distance, and its name as a binding ceiling (R52 to R54). -/
structure Target where
  vT : Nat
  dist : Nat
  name : Binding
  deriving DecidableEq, Repr

/-- A car's travel sense is increasing (R52). -/
def increasing : Dir → Car → Bool
  | .up, .a => true
  | .up, .b => false
  | .down, .a => false
  | .down, .b => true

/-- The target, if any, that the boundary between two adjacent segments gives a car; j is the index of the later segment
(R52). -/
def boundaryTarget (car : Car) (inc : Bool) (q : Int) (before after : Segment) (j : Nat) : Option Target :=
  if inc then
    if q < (after.start : Int) ∧ after.vLimit < before.vLimit then
      some { vT := after.vLimit, dist := ((after.start : Int) - q).toNat, name := .targetSegment car j }
    else none
  else
    if (after.start : Int) ≤ q ∧ before.vLimit < after.vLimit then
      some { vT := before.vLimit, dist := (q - (after.start : Int)).toNat, name := .targetSegment car (j - 1) }
    else none

/-- The boundary targets of a segment table read upward from the segment of index j - 1. Which boundaries lie ahead is read from
the table of R52 alone, also for a car above L under a table with starts above L (DESIGN CHOICE, assumption log 63). -/
def boundaryTargets (car : Car) (inc : Bool) (q : Int) : List Segment → Nat → List Target
  | before :: after :: rest, j =>
    (boundaryTarget car inc q before after j).toList ++ boundaryTargets car inc q (after :: rest) (j + 1)
  | _, _ => []

/-- Segment targets of a car in the order of its walk (R52). -/
def segmentTargets (segs : List Segment) (car : Car) (inc : Bool) (q : Int) : List Target :=
  let up := boundaryTargets car inc q segs 1
  if inc then up else up.reverse

/-- A TSR zone covers a track location (R53). -/
def Tsr.covers (z : Tsr) (q : Int) : Bool := decide ((z.start : Int) ≤ q ∧ q < (z.stop : Int))

/-- The target, if any, that a TSR zone gives a car (R53). -/
def tsrTarget (car : Car) (inc : Bool) (q : Int) (z : Tsr) : Option Target :=
  if z.covers q then none
  else if inc then
    if q < (z.start : Int) then some { vT := z.speed, dist := ((z.start : Int) - q).toNat, name := .targetTsr car z.id } else none
  else
    if (z.stop : Int) ≤ q then some { vT := z.speed, dist := (q - (z.stop : Int)).toNat, name := .targetTsr car z.id } else none

/-- The terminus target (R54). -/
def terminusTarget (p : LineFields) (dir : Dir) (x : Int) (u : Nat) : Target :=
  let r : Int := match dir with
    | .up => (p.lineLength : Int) - x
    | .down => x
  { vT := 0, dist := (r + (p.overrun : Int) - (u : Int)).toNat, name := .terminus }

/-- v_curve of a target (R55). -/
def curveSpeed (aEff c vT dist : Nat) : Nat := isqrt (c * c + vT * vT + 2 * aEff * dist) - c

/-- The contribution of a target (R55). -/
def Target.contribution (t : Target) (aEff c : Nat) : Nat := max t.vT (curveSpeed aEff c t.vT t.dist)

/-- v_mode of a line mode (R56). -/
def modeSpeed (p : LineFields) : Mode → Nat
  | .service => p.vLineMax
  | .reduced => p.vReduced
  | .maintenance => p.vCreep
  | .init | .parked | .warming | .evacuation | .tripped => 0

/-- Every ceiling of stage 5 with its name, in the order of R56's table. Among ceilings of one row R56 gives no order: covering
zones stand by entry of the list and then car A before car B; targets stand by car and then in the order of the walk or of the
list (DESIGN CHOICE, assumption log 46). With an empty segment table, which an emergency in INIT can leave in TRIPPED and
MAINTENANCE, the rows SEGMENT_A and SEGMENT_B and the segment targets are left out and the other rows stand (DESIGN CHOICE,
assumption log 62). -/
def State.ceilings (s : State) (p : LineFields) (dir : Dir) (aEff c : Nat) : List (Nat × Binding) :=
  let q := s.locationOf p.lineLength
  let own (car : Car) (name : Binding) : List (Nat × Binding) := ((s.segOf car).map (fun g => (g.vLimit, name))).toList
  let covering (car : Car) (z : Tsr) : List (Nat × Binding) := if z.covers (q car) then [(z.speed, .cover z.id car)] else []
  let contributions (l : List Target) : List (Nat × Binding) := l.map (fun t => (t.contribution aEff c, t.name))
  own .a .segmentA ++ own .b .segmentB
    ++ s.osp.tsrs.flatMap (fun z => covering .a z ++ covering .b z)
    ++ [(modeSpeed p s.lmu.mode, .mode)]
    ++ contributions (bothCars.flatMap (fun car => segmentTargets s.segs car (increasing dir car) (q car)))
    ++ contributions (bothCars.flatMap (fun car => s.osp.tsrs.filterMap (tsrTarget car (increasing dir car) (q car))))
    ++ contributions [terminusTarget p dir s.ptr.x s.ptr.u]

/-- The least ceiling, the first named among equals (R56). -/
def leastCeiling : List (Nat × Binding) → Option (Nat × Binding)
  | [] => none
  | h :: rest =>
    match leastCeiling rest with
    | none => some h
    | some m => if m.1 < h.1 then some m else some h

/-- The service margin (R57). -/
def serviceMargin (p : LineFields) (vPerm : Nat) : Nat := max p.mSAbs (vPerm * p.mSPm / 1000)

/-- The emergency margin (R57). -/
def emergencyMargin (p : LineFields) (vPerm : Nat) : Nat := max p.mEAbs (vPerm * p.mEPm / 1000)

/-- The level of a measured speed: the highest whose condition it meets (R57). -/
def levelOf (p : LineFields) (vPerm vMeas : Nat) : Level :=
  if p.vRail < vMeas then .rail
  else if vPerm + emergencyMargin p vPerm < vMeas then .emergency
  else if vPerm + serviceMargin p vPerm < vMeas then .service
  else if vPerm < vMeas then .warn
  else .none

/-- The rank of a level. -/
def Level.rank : Level → Nat
  | .none => 0
  | .warn => 1
  | .service => 2
  | .emergency => 3
  | .rail => 4

/-- What one evaluation yields (R47). -/
structure EnvelopeResult where
  vPerm : Nat
  binding : Option Binding
  level : Level
  eval : Evaluation
  deriving DecidableEq, Repr

/-- Stages 1 to 6 (R49 to R57). -/
def State.envelope (s : State) (p : LineFields) : EnvelopeResult :=
  let dir := s.comingDir
  let b := s.braking dir s.evaluationLoads
  let c := reactionTerm b.aEff p.tR
  let least := leastCeiling (s.ceilings p dir b.aEff c)
  let vPerm := min p.vLineMax ((least.map Prod.fst).getD 0)
  { vPerm := vPerm, binding := least.map Prod.snd, level := levelOf p vPerm s.ptr.vMeas,
    eval := { braking := b, c := c, mS := serviceMargin p vPerm, mE := emergencyMargin p vPerm } }

/-- The answer of the admission projection (R61). -/
structure Projection where
  aEff : Nat
  below : Bool
  descends : Bool
  deriving DecidableEq, Repr

/-- The admission projection: a_eff with k more persons admitted to a car (R61). -/
def State.project (s : State) (c : Car) (k : Nat) : Projection :=
  let dir := s.comingDir
  let live := s.liveLoads
  let descends := decide (descendingCar dir = c)
  let loads :=
    if descends then
      live.set c { live.get c with aboardMax := (live.get c).aboardMax + (s.tallyOf c).inFlight + k }
    else live
  let b := s.braking dir loads
  { aEff := b.aEff, below := b.imbalance, descends := descends }

end Sys2Proof.Machine
end

