-- ==== Sys2Proof/Machine/Operands.lean ====
section
/-! DEFINITION. The examination of request fields: code bytes to names, ranges, and the offset of the first field at fault
(R3, R5, R6, R7, R128, R142, R197). A code without a name, or a value outside its range, is a field out of range. -/

namespace Sys2Proof.Machine

/-- A car code: 0 A, 1 B. -/
def carOf? : Nat → Option Car
  | 0 => some .a
  | 1 => some .b
  | _ => none

/-- A side code: 0 LEFT, 1 RIGHT. -/
def sideOf? : Nat → Option Side
  | 0 => some .left
  | 1 => some .right
  | _ => none

/-- A brake code: 0 SB, 1 EB. -/
def brakeOf? : Nat → Option BrakeId
  | 0 => some .sb
  | 1 => some .eb
  | _ => none

/-- A yes or no code (R197). -/
def flagOf? : Nat → Option Bool
  | 0 => some false
  | 1 => some true
  | _ => none

/-- A walkway code (R198). -/
def walkwayOf? : Nat → Option Walkway
  | 0 => some .none
  | 1 => some .left
  | 2 => some .right
  | _ => none

/-- A platform sides code, in R6's order. -/
def platformOf? : Nat → Option Platform
  | 0 => some .none
  | 1 => some .left
  | 2 => some .right
  | 3 => some .both
  | _ => none

/-- A SET_MODE target code, in R167's order. -/
def targetOf? : Nat → Option Mode
  | 0 => some .parked
  | 1 => some .service
  | 2 => some .reduced
  | 3 => some .maintenance
  | 4 => some .evacuation
  | 5 => some .tripped
  | _ => none

/-- A health counter code, in R179's order. -/
def counterOf? : Nat → Option CounterName
  | 0 => some .pos
  | 1 => some .linkA
  | 2 => some .linkB
  | 3 => some .gates
  | 4 => some .frames
  | _ => none

/-- An access slot number (R160). -/
def slotOf? : Nat → Option SlotId
  | 1 => some .s1
  | 2 => some .s2
  | _ => none

/-- An access command code, in R160's order. -/
def accessOf? : Nat → Option AccessCommand
  | 0 => some .lampTest
  | 1 => some .lockOut
  | 2 => some .unlock
  | 3 => some .staffOpen
  | 4 => some .readCounters
  | _ => none

/-- A ticket kind code, in R126's order. -/
def passKindOf? : Nat → Option PassKind
  | 0 => some .single
  | 1 => some .multi
  | 2 => some .period
  | 3 => some .staff
  | 4 => some .party
  | _ => none

/-- An entry state code, in R126's order. -/
def passStateOf? : Nat → Option PassState
  | 0 => some .active
  | 1 => some .consumed
  | 2 => some .blocked
  | _ => none

/-- A field to examine: whether it is in range, and its offset within the payload. -/
structure FieldCheck where
  good : Bool
  offset : Nat
  deriving DecidableEq, Repr

/-- A field that must lie between two bounds. -/
def FieldCheck.range (v lo hi offset : Nat) : FieldCheck := { good := decide (lo ≤ v ∧ v ≤ hi), offset := offset }

/-- The offset of the first field at fault, in the order examined (R3, R5). -/
def firstFault (l : List FieldCheck) : Option Nat := (l.find? (fun c => !c.good)).map FieldCheck.offset

/-! ## CONFIGURE_LINE (R3) -/

/-- The 47 fields in table order with their ranges and offsets (R3, R198). -/
def lineChecks (f : LineFields) : List FieldCheck :=
  [.range f.lineLength 10000 4000000 0,
   .range f.vLineMax 500 15000 4,
   .range f.vReduced 100 f.vLineMax 6,
   .range f.vCreep 100 1000 8,
   .range f.dCreep 500 10000 10,
   .range f.berthTol 5 100 12,
   .range f.platWindow (max 10 f.berthTol) 500 14,
   .range f.aAcc 100 1500 16,
   .range f.aDec 100 1500 18,
   .range f.aSs 100 1500 20,
   .range f.aEb 300 3000 22,
   .range f.aFloor 100 f.aEb 24,
   .range f.tR 100 2000 26,
   .range f.overrun 0 20000 28,
   .range f.u0 0 5000 30,
   .range f.uPm 0 50 32,
   .range f.uMax f.u0 20000 34,
   .range f.mEq 5000 200000 36,
   .range f.mP 50 120 40,
   .range f.capacity 1 250 42,
   .range f.guard 0 1000 44,
   .range f.mSPm 10 200 46,
   .range f.mEPm (max 10 f.mSPm) 200 48,
   .range f.mSAbs 50 2000 50,
   .range f.mEAbs (max 50 f.mSAbs) 2000 52,
   .range f.vRail f.vLineMax 20000 54,
   .range f.aCheck 100 f.aEb 56,
   .range f.tCheck 100 2000 58,
   .range f.vStill 5 50 60,
   .range f.tStill 200 2000 62,
   .range f.tSbResp 100 3000 64,
   .range f.tEbResp 100 3000 66,
   .range f.scaleP 10 5000 68,
   .range f.scaleC 10 5000 70,
   .range f.tEnc 50 5000 72,
   .range f.wQuiet 0 f.wCorr 74,
   .range f.wCorr 100 5000 76,
   .range f.dwell 10 600 78,
   .range f.tPass 2 20 80,
   .range f.tClose 2 30 82,
   .range f.passback 60 3600 84,
   .range f.tSup 200 5000 86,
   .range f.tWarm 1 60 88,
   .range f.tTest 1 10 90,
   .range f.alarmAction 0 1 92,
   .range f.autoClose 0 1 93,
   .range f.queryEnable 0 1 94]

/-! ## The track tables and the gate list (R5, R6, R7, R142) -/

/-- The fields of each record of a list, the first record standing at an offset and each taking a number of bytes. -/
def recordChecks {α : Type} (checks : α → Nat → List FieldCheck) (size : Nat) : List α → Nat → List FieldCheck
  | [], _ => []
  | r :: rest, at' => checks r at' ++ recordChecks checks size rest (at' + size)

/-- A value already carried by an earlier record, at the place of each record that repeats it. -/
def repeatChecks : List Nat → List Nat → List Bool
  | _, [] => []
  | seen, v :: rest => seen.contains v :: repeatChecks (v :: seen) rest

/-- The fields of one segment record (R5, R198). -/
def segmentChecks (r : SegmentFields) (o : Nat) : List FieldCheck :=
  [.range r.start 0 Config.maxPosition o,
   .range r.vLimit 10 1500 (o + 2),
   .range r.vCruise 10 (min 1500 r.vLimit) (o + 4),
   .range r.sinePm 0 1000 (o + 5),
   .range r.walkway 0 2 (o + 6)]

/-- The stored segment of a record's fields. -/
def segmentOf (r : SegmentFields) : Segment :=
  { start := r.start, vLimit := r.vLimit * 10, vCruise := r.vCruise * 10, sinePm := r.sinePm,
    walkway := (walkwayOf? r.walkway).getD .none }

/-- Put a segment after every stored one whose start is not above its own (R5). -/
def insertSegment (g : Segment) : List Segment → List Segment
  | [] => [g]
  | h :: rest => if g.start < h.start then g :: h :: rest else h :: insertSegment g rest

/-- Segments in ascending order of start, equal starts in the order carried (R5). -/
def sortSegments (l : List Segment) : List Segment := l.foldl (fun acc g => insertSegment g acc) []

/-- The fields of one car in a stop record (R6). -/
def stopCarChecks (c : StopCarFields) (o : Nat) : List FieldCheck :=
  [.range c.sides 0 3 o,
   { good := decide (c.group ≤ 4) && (c.group == 0 || c.sides != 0), offset := o + 1 },
   .range c.terminal 0 1 (o + 2)]

/-- The fields of one stop record; repeated says that an earlier record has its index (R6). -/
def stopChecks (x : StopFields × Bool) (o : Nat) : List FieldCheck :=
  [{ good := decide (x.1.index ≤ 5) && !x.2, offset := o },
   .range x.1.pos 0 Config.maxPosition (o + 1)]
  ++ stopCarChecks x.1.carA (o + 5) ++ stopCarChecks x.1.carB (o + 8)

/-- The stored fields of one car at a stop. -/
def stopCarOf (c : StopCarFields) : StopCar :=
  { sides := (platformOf? c.sides).getD .none, group := groupOf? c.group, terminal := c.terminal == 1 }

/-- The stored stop of a record's fields. -/
def stopOf (r : StopFields) : StopRec :=
  { index := r.index, pos := r.pos, car := ⟨stopCarOf r.carA, stopCarOf r.carB⟩ }

/-- The fields of one marker record; repeated says that an earlier record has its id (R7). -/
def markerChecks (x : MarkerFields × Bool) (o : Nat) : List FieldCheck :=
  [{ good := decide (1 ≤ x.1.id ∧ x.1.id ≤ 16) && !x.2, offset := o },
   .range x.1.pos 0 Config.maxPosition (o + 1),
   .range x.1.car 0 1 (o + 5)]

/-- The stored marker of a record's fields. -/
def markerOf (r : MarkerFields) : Marker := { id := r.id, pos := r.pos, car := (carOf? r.car).getD .a }

/-- The fields of one gate record; repeated says that an earlier record has its address (R142). -/
def gateChecks (x : GateFields × Bool) (o : Nat) : List FieldCheck :=
  [{ good := decide (1 ≤ x.1.address ∧ x.1.address ≤ 16) && !x.2, offset := o },
   .range x.1.group 1 4 (o + 1)]

/-- The whole examination of LOAD_SEGMENTS (R5). -/
def segmentsFault (l : List SegmentFields) : Option Nat :=
  firstFault (.range l.length 0 32 0 :: recordChecks segmentChecks 7 l 1)

/-- The whole examination of LOAD_STOPS (R6). -/
def stopsFault (l : List StopFields) : Option Nat :=
  firstFault (.range l.length 0 6 0 :: recordChecks stopChecks 11 (l.zip (repeatChecks [] (l.map StopFields.index))) 1)

/-- The whole examination of LOAD_MARKERS (R7). -/
def markersFault (l : List MarkerFields) : Option Nat :=
  firstFault (.range l.length 0 16 0 :: recordChecks markerChecks 6 (l.zip (repeatChecks [] (l.map MarkerFields.id))) 1)

/-- The whole examination of LOAD_GATES (R142). -/
def gatesFault (l : List GateFields) : Option Nat :=
  firstFault (.range l.length 0 16 0 :: recordChecks gateChecks 2 (l.zip (repeatChecks [] (l.map GateFields.address))) 1)

/-! ## Pass entries (R128) -/

/-- A good entry offered for insertion. -/
structure PassOffer where
  id : Nat
  kind : PassKind
  state : PassState
  rides : Option Nat
  validFrom : Option Nat
  validTo : Option Nat
  deriving DecidableEq, Repr

/-- An optional field behind its presence byte; none where the byte is neither 0 nor 1 (R197). -/
def optionalOf? (present v : Nat) : Option (Option Nat) :=
  match present with
  | 0 => some none
  | 1 => some (some v)
  | _ => none

/-- Kinds that may be CONSUMED (R126). -/
def PassKind.consumes : PassKind → Bool
  | .single | .party => true
  | .multi | .period | .staff => false

/-- Rides fit the kind: present for MULTI and GROUP within their ranges, absent otherwise (R126, R128). -/
def ridesFit (kind : PassKind) (rides : Option Nat) : Bool :=
  match kind, rides with
  | .multi, some n => decide (n ≤ 255)
  | .party, some n => decide (2 ≤ n ∧ n ≤ 12)
  | .multi, none => false
  | .party, none => false
  | .single, r => r.isNone
  | .period, r => r.isNone
  | .staff, r => r.isNone

/-- An offered entry, or the offset within it of the field at fault (R128). -/
inductive Offer where
  | good (o : PassOffer)
  | faulty (offset : Nat)
  deriving DecidableEq, Repr

/-- The examination of an offered entry, field by field (R128, R197). -/
def offerOf (f : PassFields) : Offer :=
  if f.id = 0 then .faulty 0
  else
    match passKindOf? f.kind with
    | none => .faulty 4
    | some kind =>
      match passStateOf? f.state with
      | none => .faulty 5
      | some state =>
        if state = .consumed ∧ kind.consumes = false then .faulty 5
        else
          match optionalOf? f.ridesPresent f.rides with
          | none => .faulty 6
          | some rides =>
            if ridesFit kind rides = false then .faulty 6
            else
              match optionalOf? f.fromPresent f.validFrom with
              | none => .faulty 8
              | some vf =>
                if vf.any (fun d => decide (65535 < d)) then .faulty 8
                else
                  match optionalOf? f.toPresent f.validTo with
                  | none => .faulty 11
                  | some vt =>
                    if vt.any (fun d => decide (65535 < d)) then .faulty 11
                    else if vf.any (fun a => vt.any (fun b => decide (b < a))) then .faulty 8
                    else .good { id := f.id, kind := kind, state := state, rides := rides, validFrom := vf, validTo := vt }

/-- The whole examination of a list of 1 to 12 ticket ids: the count, then the first id of 0 (R130). -/
def idsFault (ids : List Nat) : Option Nat :=
  if ids.length = 0 ∨ 12 < ids.length then some 0
  else firstFault (recordChecks (fun v o => [{ good := v != 0, offset := o }]) 4 ids 1)

end Sys2Proof.Machine
end

