-- ==== Sys2Proof/Machine/PassTable.lean ====
section
/-! DEFINITION. The Pass Table (chapter 7): insertion, deletion, blocking, the day, the admission lookup, the taking and the
three settlements, as operations on the table alone. -/

namespace Sys2Proof.Machine

/-- The entry held under an id. -/
def PassTable.find? (t : PassTable) (id : Nat) : Option PassEntry := t.entries.find? (fun e => e.id == id)

/-- Put an entry in its place by id; an entry with the same id is replaced. -/
def putEntry (e : PassEntry) : List PassEntry → List PassEntry
  | [] => [e]
  | h :: rest =>
    if e.id < h.id then e :: h :: rest
    else if e.id = h.id then e :: rest
    else h :: putEntry e rest

/-- Hold an entry under its id. -/
def PassTable.put (t : PassTable) (e : PassEntry) : PassTable := { t with entries := putEntry e t.entries }

/-- Remove the entry of an id and free its place. -/
def PassTable.remove (t : PassTable) (id : Nat) : PassTable :=
  { t with entries := t.entries.filter (fun e => e.id != id) }

/-- The seat count k of an entry (R126). -/
def PassEntry.seats (e : PassEntry) : Nat :=
  match e.kind with
  | .party => e.rides.getD 1
  | .single | .multi | .period | .staff => 1

/-- A new entry of an offer (R128). -/
def newEntry (o : PassOffer) : PassEntry :=
  { id := o.id, kind := o.kind, state := o.state, rides := o.rides, loaded := if o.kind = .multi then o.rides else none,
    validFrom := o.validFrom, validTo := o.validTo, last := none, prior := none, wasConsumed := false, held := 0,
    removal := false }

/-- An offer that replaces a held entry (R128). -/
def replacingEntry (old : PassEntry) (o : PassOffer) : PassEntry :=
  let keepUse := old.kind = .period ∧ o.kind = .period
  let n := o.rides.getD 0
  { newEntry o with
    held := old.held,
    rides := if o.kind = .multi then some (n - old.held) else o.rides,
    loaded := if o.kind = .multi then some (max n old.held) else none,
    last := if keepUse then old.last else none,
    prior := if keepUse then old.prior else none }

/-- Insertion of one good entry, and its outcome (R128). -/
def PassTable.insert (t : PassTable) (o : PassOffer) : PassTable × InsertOutcome :=
  match t.find? o.id with
  | some old => (t.put (replacingEntry old o), .replaced)
  | none =>
    if t.entries.length < Config.passPlaces then (t.put (newEntry o), .new)
    else (t, .tableFull)

/-- The running result of a PASS_INSERT (R129). -/
structure InsertRun where
  table : PassTable
  new : Nat
  replaced : Nat
  how : InsertEnd
  deriving DecidableEq, Repr

/-- Take offered entries in order until one stops the request; i is the position of the first of them, counted from 0
(R129). -/
def insertAll : List PassFields → Nat → InsertRun → InsertRun
  | [], _, r => r
  | f :: rest, i, r =>
    match offerOf f with
    | .faulty o => { r with how := .badField i (1 + 14 * i + o) }
    | .good offer =>
      match r.table.insert offer with
      | (t, .new) => insertAll rest (i + 1) { r with table := t, new := r.new + 1 }
      | (t, .replaced) => insertAll rest (i + 1) { r with table := t, replaced := r.replaced + 1 }
      | (_, .tableFull) => { r with how := .tableFull i }
      | (_, .nothing) => { r with how := .tableFull i }

/-- The running result of a PASS_DELETE (R130). -/
structure DeleteRun where
  table : PassTable
  notFound : Nat
  deleted : Nat
  deferred : Nat
  deriving DecidableEq, Repr

/-- Delete one id (R130). -/
def deleteOne (id : Nat) (r : DeleteRun) : DeleteRun :=
  match r.table.find? id with
  | none => { r with notFound := r.notFound + 1 }
  | some e =>
    if e.held = 0 then { r with table := r.table.remove id, deleted := r.deleted + 1 }
    else { r with table := r.table.put { e with removal := true }, deferred := r.deferred + 1 }

/-- PASS_BLOCK of one entry; none where it is left as it is (R131). -/
def blockEntry (e : PassEntry) : Option PassEntry :=
  match e.state with
  | .active => some { e with state := .blocked, wasConsumed := false }
  | .consumed => some { e with state := .blocked, wasConsumed := true }
  | .blocked => none

/-- PASS_UNBLOCK of one entry; none where it is left as it is (R131). -/
def unblockEntry (e : PassEntry) : Option PassEntry :=
  match e.state with
  | .blocked => some { e with state := if e.kind.consumes && e.wasConsumed then .consumed else .active }
  | .active | .consumed => none

/-- The running result of a PASS_BLOCK or PASS_UNBLOCK (R131). -/
structure BlockRun where
  table : PassTable
  changed : Nat
  left : Nat
  notFound : Nat
  deriving DecidableEq, Repr

/-- Take one id under an operation on entries (R131). -/
def blockOne (f : PassEntry → Option PassEntry) (id : Nat) (r : BlockRun) : BlockRun :=
  match r.table.find? id with
  | none => { r with notFound := r.notFound + 1 }
  | some e =>
    match f e with
    | some e' => { r with table := r.table.put e', changed := r.changed + 1 }
    | none => { r with left := r.left + 1 }

/-- The table summary (R132). -/
def PassTable.summary (t : PassTable) : PassSummary :=
  { day := t.day, clock := t.clock, places := t.entries.length,
    marked := (t.entries.filter PassEntry.removal).length,
    withHeld := (t.entries.filter (fun e => e.held != 0)).length,
    heldSum := (t.entries.map PassEntry.held).sum }

/-- One second of the line clock (R133). -/
def PassTable.tick (t : PassTable) : PassTable := { t with clock := min (2 ^ 32 - 1) (t.clock + 1) }

/-- An entry is purged when the day becomes d (R134). -/
def PassEntry.purgedBy (e : PassEntry) (d : Nat) : Bool := e.validTo.any (fun v => decide (v < d))

/-- The entries after a purge at day d: purged entries without held persons leave, the others of them are marked (R134). -/
def purgeEntries (d : Nat) (l : List PassEntry) : List PassEntry :=
  (l.filter (fun e => !(e.purgedBy d && e.held == 0))).map (fun e => if e.purgedBy d then { e with removal := true } else e)

/-- The day moves forward to d (R134). -/
def PassTable.forward (t : PassTable) (d : Nat) : PassTable :=
  { entries := purgeEntries d t.entries, day := d, clock := 0 }

/-- The answer of a lookup: eligible with kind and seat count, or the refusal (R135). -/
inductive LookupAnswer where
  | eligible (kind : PassKind) (k : Nat)
  | refused (r : RefuseReason)
  deriving DecidableEq, Repr

/-- A PERIOD entry is within its passback interval at a group (R135). -/
def PassTable.inPassback (t : PassTable) (passback : Nat) (e : PassEntry) (g : Group) : Bool :=
  e.kind == .period &&
    e.last.any (fun u => u.group == g && u.day == t.day && decide (t.clock - u.second < passback))

/-- USED: a SINGLE or GROUP entry is CONSUMED, or a MULTI entry has no ride left (R135, R136). -/
def PassEntry.used (e : PassEntry) : Bool :=
  (e.kind.consumes && e.state == .consumed) || (e.kind == .multi && e.rides == some 0)

/-- The admission lookup (R135). -/
def PassTable.lookup (t : PassTable) (passback id : Nat) (g : Group) : LookupAnswer :=
  match t.find? id with
  | none => .refused .unknown
  | some e =>
    if e.removal then .refused .unknown
    else if e.state == .blocked then .refused .blocked
    else if e.validFrom.any (fun v => decide (t.day < v)) || e.validTo.any (fun v => decide (v < t.day)) then .refused .expired
    else if e.used then .refused .used
    else if t.inPassback passback e g then .refused .passback
    else if 12 < e.held + e.seats then .refused .inUse
    else .eligible e.kind e.seats

/-- An entry after an admission of it is taken with k persons at a group (R136). -/
def PassTable.takenEntry (t : PassTable) (e : PassEntry) (k : Nat) (g : Group) : PassEntry :=
  let e := { e with held := e.held + k }
  match e.kind with
  | .single | .party => { e with state := .consumed }
  | .multi => { e with rides := e.rides.map (· - 1) }
  | .period => { e with prior := e.last, last := some { group := g, day := t.day, second := t.clock } }
  | .staff => e

/-- The reason a taking is declined, if it is (R136). -/
def PassTable.declines (t : PassTable) (id k : Nat) : Option RefuseReason :=
  match t.find? id with
  | none => some .unknown
  | some e =>
    if e.removal then some .unknown
    else if e.state == .blocked then some .blocked
    else if e.used then some .used
    else if 12 < e.held + k then some .inUse
    else if k ≠ e.seats then some .seats
    else none

/-- A taking that is not declined: the table after it, and the kind and held that its answer carries (R136). -/
structure Taking where
  table : PassTable
  kind : PassKind
  held : Nat
  deriving DecidableEq, Repr

/-- A taking: what it gives, or the reason it is declined (R136). -/
def PassTable.taking (t : PassTable) (id k : Nat) (g : Group) : Taking ⊕ RefuseReason :=
  match t.declines id k with
  | some r => .inr r
  | none =>
    match t.find? id with
    | some e =>
      let e' := t.takenEntry e k g
      .inl { table := t.put e', kind := e'.kind, held := e'.held }
    | none => .inr .unknown

/-- The table after a taking, or the reason it is declined (R136). -/
def PassTable.take (t : PassTable) (id k : Nat) (g : Group) : PassTable ⊕ RefuseReason :=
  match t.taking id k g with
  | .inl a => .inl a.table
  | .inr r => .inr r

/-- The end of a settlement: with nobody held the prior admission is cleared and a marked entry removed (R140). -/
def PassTable.settled (t : PassTable) (e : PassEntry) : PassTable :=
  if e.held = 0 then
    if e.removal then t.remove e.id else t.put { e with prior := none }
  else t.put e

/-- A passage of one person (R137). -/
def PassTable.passage (t : PassTable) (id : Nat) : PassTable :=
  match t.find? id with
  | none => t
  | some e => if e.held = 0 then t else t.settled { e with held := e.held - 1 }

/-- What a whole abandonment gives back (R138). -/
def refund (e : PassEntry) (g : Group) : PassEntry :=
  match e.kind with
  | .single | .party =>
    match e.state with
    | .consumed => { e with state := .active }
    | .blocked => { e with wasConsumed := false }
    | .active => e
  | .multi =>
    { e with rides := e.rides.map (fun n => if n + 1 + e.held ≤ e.loaded.getD 0 then n + 1 else n) }
  | .period =>
    if e.last.any (fun u => u.group == g) then { e with last := e.prior, prior := none } else e
  | .staff => e

/-- An abandonment of r persons (R138). -/
def PassTable.abandon (t : PassTable) (id r : Nat) (whole : Bool) (g : Group) : PassTable :=
  match t.find? id with
  | none => t
  | some e =>
    let e := { e with held := e.held - r }
    t.settled (if whole then refund e g else e)

/-- A release of r persons (R139). -/
def PassTable.release (t : PassTable) (id r : Nat) : PassTable :=
  match t.find? id with
  | none => t
  | some e => t.settled { e with held := e.held - r }

end Sys2Proof.Machine
end

