-- ==== Sys2Proof/Machine/GateLoop.lean ====
section
/-! DEFINITION. The Gate Loop Master's own operations (chapter 8): windows and their sealing, gate records, polling, verdicts
and admissions, queries, passages and the two gate access slots. -/

namespace Sys2Proof.Machine

/-! ## Windows (R148, R149) -/

/-- The platform sides of a car at a stop, LEFT before RIGHT (R6). -/
def Platform.sides : Platform → List Side
  | .none => []
  | .left => [.left]
  | .right => [.right]
  | .both => [.left, .right]

/-- The platform sides of a car at the stop of an index; none where the index has no record. -/
def State.platformSides (s : State) (c : Car) (stop : Nat) : List Side :=
  ((s.stopAt? stop).map (fun r => (r.car.get c).sides.sides)).getD []

/-- A gate of the group is in QUERY. -/
def State.querying (s : State) (g : Group) : Bool := s.glm.gates.any (fun h => h.group == g && h.state == .query)

/-- The close orders of auto-close when a window becomes SEALED (R115, R149). -/
def autoClose (k : Hand) (w : Window) (s : State) : State :=
  match w.car, w.stop with
  | some c, some i =>
    if s.param LineFields.autoClose == 1 then forEach (s.platformSides c i) (fun d t => k (.closeSide c d) t) s else s
  | _, _ => s

/-- The act is a close order. -/
def Act.isClose : Act → Bool
  | .closeSide _ _ => true
  | .orderStop _ _ | .command _ _ | .brakesChanged | .settle | .interlock | .abortTest _ | .sideTo _ _ _ _ _ | .sealWindow _ _
  | .changeMode _ _ _ | .freshness _ _ => false

/-- A hand that holds the close orders back. -/
def withoutClose (k : Hand) : Hand := fun a s => if a.isClose then s else k a s

/-- The auto-close orders of the windows that one event has made SEALED, given once all stand SEALED: car A's sides before car
B's (R107; assumption log 60). -/
def closeSealed (k : Hand) (before s : State) : State :=
  forEach bothCars (fun c t => forEach allGroups (fun g u =>
    let w := s.window g
    if w.state == .sealed && (before.window g).state != .sealed && w.car == some c then autoClose k w u else u) t) s

/-- The examination of a window for sealing (R149). -/
def examineWindow (k : Hand) (g : Group) (s : State) : State :=
  let w := s.window g
  if w.state == .sealing && !s.querying g && s.pendingOver g == 0 then
    autoClose k w (setWindow g { w with state := .sealed } .passagesResolved s)
  else s

/-- An OPEN window enters SEALING and is examined at once (R149). -/
def sealWindowNow (k : Hand) (g : Group) (cause : WindowCause) (s : State) : State :=
  let w := s.window g
  if w.state == .opened then examineWindow k g (setWindow g { w with state := .sealing, dwell := none } cause s) else s

/-- A side of a car at a stop enters RELEASED by AUTO or MANUAL release: its group's window opens or reopens (R148). -/
def openWindow (c : Car) (stop : Nat) (s : State) : State :=
  match (s.stopAt? stop).bind (fun r => (r.car.get c).group) with
  | none => s
  | some g =>
    let w := s.window g
    let opened : Window := { state := .opened, car := some c, stop := some stop, dwell := s.boundSec LineFields.dwell }
    match w.state with
    | .shut => setWindow g opened .release s
    | .sealed => if w.car = some c ∧ w.stop = some stop then setWindow g opened .release s else s
    | .opened | .sealing => s

/-! ## Gate records (R143, R145) -/

/-- A gate record after every reset and for every newly listed gate (R142, R164). -/
def GateRec.fresh (address : Nat) (group : Group) : GateRec :=
  { address := address, group := group, state := .offline, misses := 3, code := none, lockNote := false, verdict := none,
    carried := false, admission := none, queryNumber := 0, queryTicket := none, queryTimer := none, lastQuery := none }

/-- Change the record of a gate. -/
def onGate (a : Nat) (f : GateRec → GateRec) (s : State) : State :=
  match s.gate? a with
  | some g => s.setGate (f g)
  | none => s

/-- The resting state of a gate (R143). -/
def State.resting (s : State) (g : GateRec) : GateState :=
  if g.lockNote then .lockedOut
  else if (s.window g.group).state == .opened then .ready
  else .shut

/-- A GATE report for a gate whose state was before (R162). -/
def gateReport (a : Nat) (before : GateState) (event : GateEvent) (s : State) : State :=
  match s.gate? a with
  | some g =>
    post (.gate { gate := a, group := g.group, event := event, before := before, after := g.state, misses := g.misses,
                  code := g.code }) s
  | none => s

/-- A gate takes a new state with the report of its event, if any, and then the report of an entry into or out of
LOCKED_OUT (R161): where one change posts both, no rule orders them (DESIGN CHOICE, assumption log 58). -/
def gateTo (a : Nat) (new : GateState) (event : Option GateEvent) (s : State) : State :=
  match s.gate? a with
  | none => s
  | some g =>
    let s := s.setGate { g with state := new }
    let s := match event with
      | some e => gateReport a g.state e s
      | none => s
    if g.state != .lockedOut && new == .lockedOut then gateReport a g.state .lockedOut s
    else if g.state == .lockedOut && new != .lockedOut then gateReport a g.state .unlocked s
    else s

/-- A gate goes to its resting state (R143). -/
def gateToRest (a : Nat) (event : Option GateEvent) (s : State) : State :=
  match s.gate? a with
  | none => s
  | some g => gateTo a (s.resting g) event s

/-- A verdict is set for a gate; it has not been carried by any poll yet (R144). -/
def setVerdict (a : Nat) (v : Verdict) (s : State) : State :=
  onGate a (fun g => { g with verdict := some v, carried := false }) s

/-! ## ADMISSION reports and the tally (R159, R162) -/

/-- An ADMISSION report for a gate; the tally fields are those of the car after the event. -/
def admissionReport (a : Nat) (car : Option Car) (ticket : Option Nat) (event : AdmissionEvent) (verdict : Option Verdict)
    (k : Option Nat) (passed : Nat) (remainder : Option Nat) (aEff : Option Nat) (s : State) : State :=
  match s.gate? a with
  | none => s
  | some g =>
    post (.admission { gate := a, group := g.group, car := car, ticket := ticket, event := event, verdict := verdict, k := k,
                       passed := passed, remainder := remainder, aEff := aEff,
                       aboardMin := car.map (fun c => (s.tallyOf c).aboardMin),
                       aboardMax := car.map (fun c => (s.tallyOf c).aboardMax),
                       inFlight := car.map (fun c => (s.tallyOf c).inFlight) }) s

/-- A refusal at a gate: the verdict and its report. -/
def refuseAt (a : Nat) (car : Option Car) (ticket : Nat) (r : RefuseReason) (k aEff : Option Nat) (s : State) : State :=
  admissionReport a car (some ticket) .verdict (some (.refuse r)) k 0 none aEff (setVerdict a (.refuse r) s)

/-- Seats left in a car: C − aboard_max − in_flight (R151). -/
def State.seatsLeft (s : State) (c : Car) : Int :=
  (s.capacity : Int) - ((s.tallyOf c).aboardMax : Int) - ((s.tallyOf c).inFlight : Int)

/-- An admission is made (R152): in_flight, the gate's current admission, its deadline and PASSING. -/
def makeAdmission (a : Nat) (c : Car) (ticket : Option Nat) (k : Nat) (staff : Option SlotId) (s : State) : State :=
  let t := s.tallyOf c
  let s := s.setTally c { t with inFlight := t.inFlight + k }
  let adm : Admission :=
    { ticket := ticket, car := c, k := k, pending := k, passed := 0, deadline := s.boundSec LineFields.tPass, staff := staff }
  onGate a (fun g => { g with admission := some adm, state := .passing }) s

/-- Checks 2, 3 and 4 of R151 for an entry with seat count k: the state after the verdict, and the verdict. -/
def judgeSeats (a : Nat) (group : Group) (c : Car) (ticket k : Nat) (s : State) : State × Verdict :=
  if s.seatsLeft c < (k : Int) then (refuseAt a (some c) ticket .full (some k) none s, .refuse .full)
  else
    let p := s.project c k
    if p.descends && p.below then (refuseAt a (some c) ticket .balance (some k) (some p.aEff) s, .refuse .balance)
    else
      match s.ptb.taking ticket k group with
      | .inr r => (refuseAt a (some c) ticket r (some k) (some p.aEff) s, .refuse r)
      | .inl t =>
        let s := makeAdmission a c (some ticket) k none { s with ptb := t.table }
        let s := setVerdict a (.entry k) s
        (admissionReport a (some c) (some ticket) .verdict (some (.entry k)) (some k) 0 none (some p.aEff) s, .entry k)

/-- A ticket query is started (R153). -/
def startQuery (a : Nat) (group : Group) (c : Car) (ticket : Nat) (s : State) : State :=
  match s.gate? a with
  | none => s
  | some g =>
    let n := (g.queryNumber + 1) % 256
    let s := s.setGate { g with state := .query, queryNumber := n, queryTicket := some ticket,
                                queryTimer := some Config.queryMs }
    post (.ticketQuery { gate := a, group := group, car := c, number := n, ticket := ticket }) s

/-- A presentation at a READY gate (R151, R200). A READY gate's window is OPEN and serves a car. -/
def judge (a : Nat) (ticket : Nat) (s : State) : State :=
  match s.gate? a with
  | none => s
  | some g =>
    match (s.window g.group).car with
    | none => s
    | some c =>
      if ticket = 0 then refuseAt a (some c) ticket .unknown none none s
      else
        match s.ptb.lookup (s.param LineFields.passback) ticket g.group with
        | .refused .unknown =>
          if s.param LineFields.queryEnable == 1 && !s.lmu.lost then startQuery a g.group c ticket s
          else refuseAt a (some c) ticket .unknown none none s
        | .refused r => refuseAt a (some c) ticket r none none s
        | .eligible _ seats => (judgeSeats a g.group c ticket seats s).1

/-- A PRESENTED reply (R146): ignored while a verdict is pending. -/
def presented (a : Nat) (ticket : Nat) (s : State) : State :=
  match s.gate? a with
  | none => s
  | some g =>
    if g.verdict.isSome then s
    else
      match g.state with
      | .shut => refuseAt a (s.window g.group).car ticket .closed none none s
      | .ready => judge a ticket s
      | .query => s
      | .passing => refuseAt a (s.window g.group).car ticket .busy none none s
      | .lockedOut => refuseAt a (s.window g.group).car ticket .locked none none s
      | .offline | .fault => s

/-! ## Queries and passages (R155 to R158) -/

/-- The query in flight at a gate ends in a given way; the gate keeps its state (R155). -/
def endQuery (a : Nat) (how : QueryEnd) (s : State) : State :=
  onGate a (fun g =>
    { g with queryTimer := none, queryTicket := none,
             lastQuery := match g.queryTicket with
               | some t => some { number := g.queryNumber, ticket := t, how := how }
               | none => g.lastQuery }) s

/-- Expiry of a gate's query timer (R155). -/
def queryExpired (k : Hand) (a : Nat) (s : State) : State :=
  match s.gate? a with
  | none => s
  | some g =>
    let car := (s.window g.group).car
    let s := endQuery a .timeout (setVerdict a (.refuse .unknown) s)
    let s := gateToRest a none s
    let s := admissionReport a car g.queryTicket .verdict (some (.refuse .unknown)) none 0 none none s
    examineWindow k g.group s

/-- One person passes at a gate with persons pending (R156). -/
def onePassage (k : Hand) (a : Nat) (s : State) : State :=
  match s.gate? a with
  | none => s
  | some g =>
    match g.admission with
    | none => s
    | some adm =>
      let t := s.tallyOf adm.car
      let s := s.setTally adm.car
        { t with aboardMin := t.aboardMin + 1, aboardMax := t.aboardMax + 1, inFlight := t.inFlight - 1 }
      let s := match adm.ticket with
        | some id => { s with ptb := s.ptb.passage id }
        | none => s
      let adm := { adm with pending := adm.pending - 1, passed := adm.passed + 1 }
      if adm.pending = 0 then
        let s := onGate a (fun h => { h with admission := none }) s
        let s := admissionReport a (some adm.car) adm.ticket .complete none (some adm.k) adm.passed none none s
        examineWindow k g.group (gateToRest a none s)
      else onGate a (fun h => { h with admission := some adm }) s

/-- A PASSED reply (R146, R156). -/
def passed (k : Hand) (a n : Nat) (s : State) : State :=
  match s.gate? a with
  | none => s
  | some g =>
    if g.state == .passing then
      let m := min n g.pending
      let s := repeatN m (onePassage k a) s
      if n - m = 0 then s else bumpHealth k .gates (n - m) s
    else bumpHealth k .gates n s

/-- The remainder of a gate's admission is abandoned (R157). -/
def abandonAdmission (k : Hand) (a : Nat) (s : State) : State :=
  match s.gate? a with
  | none => s
  | some g =>
    match g.admission with
    | none => s
    | some adm =>
      let t := s.tallyOf adm.car
      let s := s.setTally adm.car { t with inFlight := t.inFlight - adm.pending }
      let s := match adm.ticket with
        | some id => { s with ptb := s.ptb.abandon id adm.pending (adm.passed == 0) g.group }
        | none => s
      let s := onGate a (fun h => { h with admission := none }) s
      let s := admissionReport a (some adm.car) adm.ticket .abandoned none (some adm.k) adm.passed (some adm.pending) none s
      examineWindow k g.group (gateToRest a none s)

/-- The fate of a gate's pending persons cannot be known (R158); the gate's own change of state follows. -/
def unknownFate (a : Nat) (s : State) : State :=
  match s.gate? a with
  | none => s
  | some g =>
    match g.admission with
    | none => s
    | some adm =>
      let t := s.tallyOf adm.car
      let s := s.setTally adm.car
        { t with inFlight := t.inFlight - adm.pending, aboardMax := t.aboardMax + adm.pending }
      let s := match adm.ticket with
        | some id => { s with ptb := s.ptb.release id adm.pending }
        | none => s
      let s := onGate a (fun h => { h with admission := none }) s
      admissionReport a (some adm.car) adm.ticket .unknownFate none (some adm.k) adm.passed (some adm.pending) none s

/-! ## Gate access (R160, R161) -/

/-- An access slot. -/
def AccessSlots.get (l : AccessSlots) : SlotId → Option AccessRequest
  | .s1 => l.s1
  | .s2 => l.s2

/-- Replace the content of an access slot. -/
def AccessSlots.set (l : AccessSlots) (i : SlotId) (r : Option AccessRequest) : AccessSlots :=
  match i with
  | .s1 => { l with s1 := r }
  | .s2 => { l with s2 := r }

/-- The two slots, the one whose request was taken earlier first. -/
def AccessSlots.order (l : AccessSlots) : List SlotId := if l.secondFirst then [.s2, .s1] else [.s1, .s2]

/-- A request is taken into a free slot; the other slot's request, if any, was taken earlier. -/
def AccessSlots.take (l : AccessSlots) (i : SlotId) (r : AccessRequest) : AccessSlots :=
  { l.set i (some r) with secondFirst := match i with
      | .s1 => l.s2.isSome
      | .s2 => l.s1.isNone }

/-- The slot whose request a poll to a gate carries: the one taken earlier (R160). -/
def AccessSlots.forGate (l : AccessSlots) (a : Nat) : Option SlotId :=
  l.order.find? (fun i => (l.get i).any (fun r => r.gate == a))

/-- What a completed command does (R161). -/
def accessEffect (k : Hand) (slot : SlotId) (r : AccessRequest) (result : AccessResult) (s : State) : State :=
  match r.command, result with
  | .lockOut, .ack =>
    let s := onGate r.gate (fun g => { g with lockNote := true }) s
    match s.gate? r.gate with
    | some g => if g.state == .shut || g.state == .ready then gateTo r.gate .lockedOut none s else s
    | none => s
  | .unlock, .ack =>
    let s := onGate r.gate (fun g => { g with lockNote := false }) s
    match s.gate? r.gate with
    | some g => if g.state == .lockedOut then gateToRest r.gate none s else s
    | none => s
  | .staffOpen, .nak | .staffOpen, .noReply =>
    match s.gate? r.gate with
    | some g => if g.admission.any (fun adm => adm.staff == some slot) then abandonAdmission k r.gate s else s
    | none => s
  | _, _ => s

/-- A request in a slot completes: the slot frees, ACCESS_DONE is posted and the command acts (R160, R161). -/
def completeAccess (k : Hand) (slot : SlotId) (result : AccessResult) (data : Option Nat) (s : State) : State :=
  match s.glm.slots.get slot with
  | none => s
  | some r =>
    let s := { s with glm := { s.glm with slots := s.glm.slots.set slot none } }
    let s := post (.accessDone { slot := slot, gate := r.gate, command := r.command, argument := r.argument,
                                 result := result, data := data }) s
    accessEffect k slot r result s

/-- Every held request for a gate completes with a result (R160), the earlier taken first (DESIGN CHOICE, assumption log 69). -/
def completeAllFor (k : Hand) (a : Nat) (result : AccessResult) (s : State) : State :=
  forEach s.glm.slots.order (fun i t =>
    if (t.glm.slots.get i).any (fun r => r.gate == a) then completeAccess k i result none t else t) s

/-- The request a poll carried frees with NO_REPLY when its third poll has passed (R160). -/
def thirdPollPassed (k : Hand) (p : Poll) (s : State) : State :=
  match p.access with
  | none => s
  | some c =>
    if (s.glm.slots.get c.slot).any (fun r => r.gate == p.address && decide (3 ≤ r.polls))
    then completeAccess k c.slot .noReply none s else s

/-! ## Going offline, faults and replies (R145, R146) -/

/-- A gate goes offline (R145). -/
def goOffline (k : Hand) (a : Nat) (s : State) : State :=
  match s.gate? a with
  | none => s
  | some g =>
    let s := unknownFate a s
    let s := if g.state == .query then endQuery a .cancelled s else s
    let s := onGate a (fun h => { h with verdict := none, carried := false, misses := 3 }) s
    let s := onGate a (fun h => { h with state := .offline }) s
    let s := completeAllFor k a .noReply s
    let s := gateReport a g.state .offline s
    let s := if g.state == .lockedOut then gateReport a g.state .unlocked s else s
    examineWindow k g.group s

/-- A FAULT reply (R146). -/
def gateFault (k : Hand) (a code : Nat) (s : State) : State :=
  match s.gate? a with
  | none => s
  | some g =>
    if g.state == .fault then onGate a (fun h => { h with code := some code }) s
    else
      let s := if g.state == .query then endQuery a .cancelled s else unknownFate a s
      let s := onGate a (fun h => { h with code := some code }) s
      let s := gateTo a .fault (some .fault) s
      examineWindow k g.group s

/-- The content of a good reply (R146, R200). -/
inductive GateMsg where
  | idle
  | presented (ticket : Nat)
  | passed (n : Nat)
  | fault (code : Nat)
  | access (ack : Bool) (data : Option Nat)
  deriving DecidableEq, Repr

/-- The message is FAULT. -/
def GateMsg.isFault : GateMsg → Bool
  | .fault _ => true
  | .idle | .presented _ | .passed _ | .access _ _ => false

/-- A gate in FAULT that sends anything else leaves FAULT first (R146). -/
def leaveFault (a : Nat) (m : GateMsg) (s : State) : State :=
  match s.gate? a with
  | some g =>
    if g.state == .fault && !m.isFault then
      gateToRest a (some .faultCleared) (onGate a (fun h => { h with code := none }) s)
    else s
  | none => s

/-- A good reply from an OFFLINE gate brings it online (R145). -/
def comeOnline (a : Nat) (s : State) : State :=
  match s.gate? a with
  | some g => if g.state == .offline then gateToRest a (some .online) s else s
  | none => s

/-- A good reply delivers the verdict its poll carried (R144). -/
def deliver (a : Nat) (s : State) : State :=
  onGate a (fun g => if g.carried then { g with verdict := none, carried := false } else g) s

/-- The content of a good reply, after delivery and after the gate has left OFFLINE or FAULT (R146). -/
def replyContent (k : Hand) (a : Nat) (m : GateMsg) (s : State) : State :=
  match m with
  | .idle => s
  | .presented ticket => presented a ticket s
  | .passed n => passed k a n s
  | .fault code => gateFault k a code s
  | .access ack data =>
    match s.glm.slots.forGate a with
    | some i => completeAccess k i (if ack then .ack else .nak) data s
    | none => s

/-! ## Polling (R144) -/

/-- The next gate a cycle polls after an address: the least listed address above it that the cycle polls. -/
def GateLoop.nextIn (l : GateLoop) (cycle cursor : Nat) : Option GateRec :=
  l.gates.find? (fun g => decide (cursor < g.address) && (g.state != .offline || cycle == 0))

/-- The next gate to poll, running on into the following cycles where a cycle has none left: with its cycle number. -/
def GateLoop.nextPoll (l : GateLoop) : Nat → Nat → Nat → Option (Nat × GateRec)
  | 0, _, _ => none
  | n + 1, cycle, cursor =>
    match l.nextIn cycle cursor with
    | some g => some (cycle, g)
    | none => l.nextPoll n ((cycle + 1) % 8) 0

/-- The window indication of a poll (R144). -/
def State.windowOpenFor (s : State) (g : GateRec) : Bool :=
  (s.window g.group).state == .opened && (g.state == .ready || g.state == .query || g.state == .passing)

/-- A poll is sent to a gate (R144, R160). -/
def sendPoll (cycle : Nat) (g : GateRec) (s : State) : State :=
  let slot := s.glm.slots.forGate g.address
  let access : Option PollAccess :=
    slot.bind (fun i => (s.glm.slots.get i).map (fun r => { slot := i, command := r.command, argument := r.argument }))
  let slots := match slot with
    | some i => s.glm.slots.set i ((s.glm.slots.get i).map (fun r => { r with polls := r.polls + 1 }))
    | none => s.glm.slots
  let s := s.setGate { g with carried := g.verdict.isSome }
  { s with glm := { s.glm with
      slots := slots, cycle := cycle, cursor := g.address,
      poll := some { address := g.address, windowOpen := s.windowOpenFor g, verdict := g.verdict, access := access,
                     timer := some Config.pollMs } } }

/-- The next exchange of the gate loop begins, where the loop runs and lists a gate (R144). -/
def pollNext (s : State) : State :=
  let s := { s with glm := { s.glm with poll := none } }
  if s.glm.running then
    match s.glm.nextPoll 9 s.glm.cycle s.glm.cursor with
    | some (cycle, g) => sendPoll cycle g s
    | none => s
  else s

/-- A good reply to the outstanding poll (R144 to R146). -/
def goodReply (k : Hand) (p : Poll) (m : GateMsg) (s : State) : State :=
  let a := p.address
  let s := onGate a (fun g => { g with misses := 0 }) s
  let s := comeOnline a s
  let s := deliver a s
  let s := leaveFault a m s
  let s := replyContent k a m s
  pollNext (thirdPollPassed k p s)

/-- A miss of the outstanding poll (R145). -/
def missedPoll (k : Hand) (p : Poll) (s : State) : State :=
  let a := p.address
  let s := match s.gate? a with
    | none => s
    | some g =>
      if g.state == .offline then s
      else
        let s := onGate a (fun h => { h with misses := h.misses + 1 }) s
        let s := bumpHealth k .gates 1 s
        if 3 ≤ g.misses + 1 then goOffline k a s else s
  pollNext (thirdPollPassed k p s)

/-- The gate loop stops: every online gate goes offline, in ascending address order, which R147 leaves open (DESIGN CHOICE,
assumption log 68). -/
def stopLoop (k : Hand) (s : State) : State :=
  if s.glm.running then
    let s := { s with glm := { s.glm with running := false, poll := none } }
    let s := closeSealed k s (forEach (s.glm.gates.map GateRec.address) (fun a t =>
      if (t.gate? a).any (fun g => g.state != .offline) then goOffline (withoutClose k) a t else t) s)
    { s with glm := { s.glm with cycle := 0, cursor := 0 } }
  else s

/-- The gate loop starts; a running loop is left as it is (R147). -/
def startLoop (s : State) : State :=
  if s.glm.running then s else pollNext { s with glm := { s.glm with running := true, cycle := 0, cursor := 0 } }

end Sys2Proof.Machine
end

