-- ==== Sys2Proof/Machine/Haulage.lean ====
section
/-! DEFINITION. The Haulage Controller's own operations (chapter 2): state changes with their hand-overs, the berth record,
the drive word, stops as the controller acts on them, and the arithmetic of the drive reference. -/

namespace Sys2Proof.Machine

/-- The drive word as it would be sent now (R41). -/
def driveWordOf (s : State) : DriveWord :=
  if s.loaded then { vRef := s.hac.vRef, dir := s.comingDir } else { vRef := 0, dir := .up }

/-- A drive word is sent (R41). -/
def sendWord (s : State) : State := { s with hac := { s.hac with word := some (driveWordOf s) } }

/-- The fields every TRIP report carries (R44). -/
def tripReport (s : State) (event : TripEvent) (dir : Dir) : TripReport :=
  { event := event, x := s.ptr.x, dir := dir, dest := none, stop := none, offset := none, atStop := false, onA := false,
    onB := false, kind := none, head := s.hac.plan.head?, ready := s.hac.ready, fault := s.hac.fault }

/-- The Overspeed Supervisor takes a change of haulage state: accumulator, held reference and load snapshot (R48, R62). -/
def supervisorOnHaulage (old new : HState) (s : State) : State :=
  { s with osp := { s.osp with
      acc := 0, ordered := false,
      heldRef := if new == .held then s.ptr.dp else s.osp.heldRef,
      snapshot := if old == .held then some s.liveLoads else if new == .held then none else s.osp.snapshot } }

/-- A change of haulage state with the hand-overs of R24 that change other blocks at once: the supervisor's accumulator and
snapshot, and, on leaving HELD, the berth clearance marks (R114) and the SEALED windows (R149). -/
def setHaulage (new : HState) (s : State) : State :=
  let old := s.hac.state
  if old == new then s
  else
    let s := supervisorOnHaulage old new { s with hac := { s.hac with state := new } }
    if old == .held then shutSealedWindows { s with dru := { s.dru with cleared := ⟨false, false⟩ } } else s

/-- The berth record changes; at a change the berth clearance marks are cleared (R25, R114). -/
def setBerth (b : Berth) (s : State) : State :=
  if s.hac.berth = b then s
  else { s with hac := { s.hac with berth := b }, dru := { s.dru with cleared := ⟨false, false⟩ } }

/-- The berth record of standing at a stop: each flag set where that car has a platform side there (R35, R36). -/
def Berth.at (r : StopRec) : Berth :=
  { stop := some r.index, onA := r.car.a.sides != .none, onB := r.car.b.sides != .none }

/-- The controller enters STOPPING with the reference at 0 and no ramp. -/
def enterStopping (s : State) : State :=
  setHaulage .stopping { s with hac := { s.hac with vRef := 0, ramp := false } }

/-- The Haulage Controller acts on a stop taken into the stop record or replacing another (R32, R35a, R37a, R38a, R39). A CONTROLLED
stop that finds v_ref already 0 in MOTORING, APPROACHING or CREEPING enters STOPPING at once, whether or not the trip is marked
stalled: the ramp has nothing left to take down (DESIGN CHOICE, assumption log 49). -/
def haulageOnStop (kind : StopKind) (s : State) : State :=
  match kind with
  | .controlled =>
    match s.hac.state with
    | .motoring | .approaching | .creeping =>
      if s.hac.vRef == 0 then enterStopping s else { s with hac := { s.hac with ramp := true } }
    | .releasing => enterStopping s
    | .held | .berthing | .stopping => s
  | .brake | .emergency =>
    match s.hac.state with
    | .releasing | .motoring | .approaching | .creeping | .berthing => sendWord (enterStopping s)
    | .held | .stopping => s

/-- v_perm is handed over: a reference above it is cut and sent at once, and a ramp cut to 0 ends in STOPPING (R37, R38a). -/
def cutReference (vPerm : Nat) (s : State) : State :=
  if vPerm < s.hac.vRef then
    let s := sendWord { s with hac := { s.hac with vRef := vPerm } }
    if s.hac.ramp && vPerm == 0 && s.moving then enterStopping s else s
  else s

/-- Notice that a door side has left SECURED: the reference becomes 0 and is sent at once (R37). -/
def zeroReference (s : State) : State := sendWord { s with hac := { s.hac with vRef := 0 } }

/-- Leaving STOPPING at rest: HELD off stop, the head kept, and the STOPPED report (R40). -/
def heldFromStopping (s : State) : State :=
  let dir := s.comingDir
  let kind := s.bsq.stop.map StopRecord.kind
  let s := setHaulage .held s
  let s := setBerth .offStop { s with hac := { s.hac with dest := none, legMark := false } }
  post (.trip { tripReport s .stopped dir with kind := kind }) s

/-- Homing while HELD: the terminal's stop becomes the berth, and a plan head equal to it is removed (R36). Where two stops carry
the terminal's position, which the table checks have not seen yet, the first in the order carried is taken (DESIGN CHOICE,
assumption log 50). -/
def homedWhileHeld (target : Nat) (s : State) : State :=
  if s.isHeld then
    match s.stops.find? (fun r => r.pos == target) with
    | some r =>
      let s := setBerth (.at r) s
      if s.hac.plan.head? = some r.index then { s with hac := { s.hac with plan := s.hac.plan.tail } } else s
    | none => s
  else s

/-! ## The drive reference (R33, R34) -/

/-- d_stop (R33). -/
def stopDistance (dir : Dir) (x pos : Int) : Nat :=
  match dir with
  | .up => (pos - x).toNat
  | .down => (x - pos).toNat

/-- v_app (R33). -/
def approachSpeed (p : LineFields) (dStop : Nat) : Nat :=
  if dStop ≤ p.berthTol then 0
  else if dStop ≤ p.dCreep then p.vCreep
  else p.vCreep + isqrt (2 * p.aDec * (dStop - p.dCreep))

/-- v_cap (R34, step 1). -/
def State.speedCap (s : State) (p : LineFields) : Nat :=
  let cruise (c : Car) : Nat := ((s.segOf c).map Segment.vCruise).getD 0
  min (min (cruise .a) (cruise .b)) (min (modeSpeed p s.lmu.mode) (s.osp.vPerm - p.guard))

/-- A ramp step: a rate over one 20 ms update (R34, R38a). -/
def rampStep (rate : Nat) : Nat := rate * 20 / 1000

/-- The reference after one update toward a target speed, within the ramp steps and v_perm (R34, steps 3 and 4). -/
def rampedReference (p : LineFields) (vRef vTgt vPerm : Nat) : Nat :=
  let v :=
    if vRef < vTgt then min vTgt (vRef + rampStep p.aAcc)
    else if vTgt < vRef then max vTgt (vRef - rampStep p.aDec)
    else vRef
  min v vPerm

/-- The state set from the terms that bound (R34, step 5). -/
def boundState (p : LineFields) (dStop vApp vCap : Nat) : HState :=
  if p.berthTol < dStop ∧ dStop ≤ p.dCreep then .creeping
  else if vApp < vCap then .approaching
  else .motoring

/-- An update of the controlled ramp (R38a). -/
def rampUpdate (p : LineFields) (s : State) : State :=
  let v := if s.allSecured then min (s.hac.vRef - rampStep p.aSs) s.osp.vPerm else 0
  let s := { s with hac := { s.hac with vRef := v } }
  if v == 0 then enterStopping s else s

/-- The stalled report and its latch at an update whose reference stands at v (R37a). -/
def stallWatch (p : LineFields) (vCap v : Nat) (s : State) : State :=
  if 0 < vCap then { s with hac := { s.hac with stalled := false } }
  else if s.osp.vPerm ≤ p.guard && v == 0 && s.ptr.standstill && !s.hac.stalled then
    let s := { s with hac := { s.hac with stalled := true } }
    post (.trip { tripReport s .stalled s.comingDir with dest := s.hac.dest }) s
  else s

/-- An update of R33 and R34 in MOTORING, APPROACHING or CREEPING without a ramp. -/
def tripUpdate (p : LineFields) (s : State) : State :=
  let pos : Int := ((s.hac.dest.bind s.stopAt?).map (fun r => (r.pos : Int))).getD s.ptr.x
  let dStop := stopDistance s.hac.tripDir s.ptr.x pos
  let vApp := approachSpeed p dStop
  if vApp == 0 then setHaulage .berthing { s with hac := { s.hac with vRef := 0 } }
  else
    let vCap := s.speedCap p
    let v := rampedReference p s.hac.vRef (min vCap vApp) s.osp.vPerm
    let v := if s.allSecured then v else 0
    let s := setHaulage (boundState p dStop vApp vCap) { s with hac := { s.hac with vRef := v } }
    stallWatch p vCap v s

/-- The reference part of an update (R33, R34, R38a); other states keep their reference. -/
def referenceUpdate (s : State) : State :=
  match s.line with
  | none => s
  | some p =>
    match s.hac.state with
    | .motoring | .approaching | .creeping => if s.hac.ramp then rampUpdate p s else tripUpdate p s
    | .held | .releasing | .berthing | .stopping => s

/-- The drive lines are read (R42): the order and the report a change calls for while moving. -/
def readDriveLines (k : Hand) (ready fault : Bool) (s : State) : State :=
  let bad := (fault && !s.hac.fault) || (!ready && s.hac.ready)
  let s := { s with hac := { s.hac with ready := ready, fault := fault } }
  if bad && s.moving then
    let dir := s.comingDir
    let s := k (.orderStop .controlled .drive) s
    post (.trip (tripReport s .drive dir)) s
  else s

end Sys2Proof.Machine
end

