-- ==== Sys2Proof/Machine/Doors.lean ====
section
/-! DEFINITION. The Door Release Unit's own operations (chapter 6): release, acknowledgement, closing and its retries, the
judging of status frames, door faults, freshness, and the correction of the Boarding Tally. -/

namespace Sys2Proof.Machine

/-- A side counts as released in RELEASE_PENDING, RELEASED and OPEN (R105). -/
def DoorState.isReleased : DoorState → Bool
  | .releasePending | .released | .opened => true
  | .secured | .closing | .unproven | .fault => false

/-- The release level of a state (R105). -/
def DoorState.releaseLevel (d : DoorState) : Bool := d.isReleased

/-- The close level of a state (R105). -/
def DoorState.closeLevel : DoorState → Bool
  | .closing => true
  | .secured | .releasePending | .released | .opened | .unproven | .fault => false

/-- A status frame proves a side (R106). -/
def DoorStatus.proves (x : DoorStatus) : Bool := x.leaf == .locked && !x.ack

/-- The fields of a side in a status frame. -/
def CarStatus.door (x : CarStatus) (d : Side) : DoorStatus := x.doors.get d

/-- The DOOR report of an event at a side as its record now stands (R123). -/
def doorReport (c : Car) (d : Side) (before : DoorState) (event : DoorEvent) (cause : Option DoorCause) (s : State) : State :=
  let r := s.side c d
  post (.door { car := c, side := d, event := event, before := before, after := r.state, cause := cause, kind := r.kind,
                stop := r.stop, retries := r.retries, freshness := (s.car c).freshness, haulage := s.hac.state }) s

/-- The stop of a release is flagged terminal for the car (R6, R114). -/
def State.terminalFor (s : State) (c : Car) (stop : Option Nat) : Bool :=
  ((stop.bind s.stopAt?).map (fun r => (r.car.get c).terminal)).getD false

/-- The correction of the Boarding Tally at an entry of a side into RELEASED (R114). -/
def correctTally (c : Car) (r : DoorSide) (s : State) : State :=
  let t := s.tallyOf c
  let onStop := r.kind == some .auto || r.kind == some .manual
  if onStop && s.terminalFor c r.stop && !s.dru.cleared.get c then
    let s := s.setTally c { t with aboardMin := 0, aboardMax := 0, unknown := false }
    { s with dru := { s.dru with cleared := s.dru.cleared.set c true } }
  else s.setTally c { t with aboardMin := 0 }

/-- Some side of a car is released. -/
def State.anyReleased (s : State) (c : Car) : Bool := bothSides.any (fun d => (s.side c d).state.isReleased)

/-- OPEN windows whose served car has no released side enter SEALING (R149), groups 1 to 4 in turn (DESIGN CHOICE, assumption
log 60). -/
def sealUnreleased (k : Hand) (s : State) : State :=
  forEach allGroups (fun g t =>
    let w := t.window g
    if w.state == .opened && !(w.car.any t.anyReleased) then k (.sealWindow g .doors) t else t) s

/-- A door side takes a new record with a change of state: the report and the hand-overs of R107 in their order. -/
def sideToNow (k : Hand) (c : Car) (d : Side) (r : DoorSide) (event : DoorEvent) (cause : Option DoorCause)
    (s : State) : State :=
  let old := s.side c d
  let s := doorReport c d old.state event cause (s.setSide c d r)
  let s := if r.state == .released then correctTally c r s else s
  let s := if old.state == .secured && r.state != .secured then zeroReference s else s
  let s := k .interlock s
  let s :=
    if old.state == .releasePending && r.state == .released && (r.kind == some .auto || r.kind == some .manual) then
      match r.stop with
      | some i => openWindow c i s
      | none => s
    else s
  sealUnreleased k s

/-! ## The records entered -/

/-- A record at rest in a state: no release, no timers. -/
def DoorSide.atRest (r : DoorSide) (st : DoorState) : DoorSide :=
  { r with state := st, kind := none, stop := none, ackTimer := none, closeTimer := none, retryTimer := none,
           faultCause := none, clearing := false }

/-- Entry to SECURED; the close retries return to 0 (R117). -/
def DoorSide.secured (r : DoorSide) : DoorSide := { r.atRest .secured with retries := 0 }

/-- Entry to UNPROVEN when the car leaves FRESH (R121) or by a late acknowledgement (R119). -/
def DoorSide.unproven (r : DoorSide) : DoorSide := { r.atRest .unproven with retries := 0 }

/-- Entry to FAULT with a cause (R122). -/
def DoorSide.faulted (r : DoorSide) (f : DoorFault) : DoorSide := { r.atRest .fault with faultCause := some f }

/-- Entry to RELEASE_PENDING (R108). -/
def DoorSide.pending (r : DoorSide) (kind : ReleaseKind) (stop : Option Nat) (ack : Timer) : DoorSide :=
  { r with state := .releasePending, kind := some kind, stop := stop, ackTimer := ack }

/-- Entry to CLOSING on a close order (R115). -/
def DoorSide.closing (r : DoorSide) (bound : Timer) : DoorSide :=
  { r with state := .closing, retries := 0, ackTimer := none, retryTimer := none, closeTimer := bound, faultCause := none }

/-! ## Release (R108 to R112) -/

/-- The bound of the acknowledgement timer; the timers run only while the parameters are loaded (R104). -/
def State.ackBound (s : State) : Timer := s.line.map (fun _ => Config.ackMs)

/-- The bound of the retry timer (R104). -/
def State.retryBound (s : State) : Timer := s.line.map (fun _ => Config.retryMs)

/-- The bound of the close timer (R104). -/
def State.closeBound (s : State) : Timer := s.boundSec LineFields.tClose

/-- The release conditions other than the side being SECURED (R108). -/
def State.releaseAllowed (s : State) (c : Car) : Bool := s.isHeld && s.sbApplied && s.ptr.standstill && s.isFresh c

/-- The DOOR cause of a release kind. -/
def ReleaseKind.cause : ReleaseKind → DoorCause
  | .auto => .auto
  | .manual => .manual
  | .evac => .evac

/-- A side enters RELEASE_PENDING (R108). -/
def releaseSide (k : Hand) (c : Car) (d : Side) (kind : ReleaseKind) (stop : Option Nat) (s : State) : State :=
  k (.sideTo c d ((s.side c d).pending kind stop s.ackBound) .releasePending (some kind.cause)) s

/-- Automatic release of one platform side at a stop (R109). -/
def autoReleaseSide (k : Hand) (c : Car) (d : Side) (stop : Nat) (s : State) : State :=
  if s.releaseAllowed c then
    let r := s.side c d
    if r.state == .secured then releaseSide k c d .auto (some stop) s
    else doorReport c d r.state .skipped (some .auto) s
  else s

/-- Automatic release at the entry to HELD at a stop (R109). -/
def autoRelease (k : Hand) (stop : Nat) (onA onB : Bool) (s : State) : State :=
  if s.lmu.mode == .service || s.lmu.mode == .reduced then
    forEach bothCars (fun c t =>
      let on := match c with
        | .a => onA
        | .b => onB
      if on then forEach (t.platformSides c stop) (fun d u => autoReleaseSide k c d stop u) t else t) s
  else s

/-- Expiry of the acknowledgement timer (R112). -/
def ackExpired (k : Hand) (c : Car) (d : Side) (s : State) : State :=
  let r := s.side c d
  if r.state == .releasePending then k (.sideTo c d r.secured .noAck none) s
  else s.setSide c d { r with ackTimer := none }

/-! ## Closing (R115 to R118) -/

/-- A side enters CLOSING on a close order. -/
def enterClosing (k : Hand) (c : Car) (d : Side) (s : State) : State :=
  k (.sideTo c d ((s.side c d).closing s.closeBound) .closing (some .closeOrder)) s

/-- A close order from auto-close or a mode change (R115). -/
def closeSideNow (k : Hand) (c : Car) (d : Side) (s : State) : State :=
  let r := s.side c d
  match r.state with
  | .releasePending => enterClosing k c d s
  | .released | .opened => if r.retryTimer.isSome then s else enterClosing k c d s
  | .unproven => if s.isFresh c then enterClosing k c d s else s
  | .secured | .closing | .fault => s

/-- A close attempt has failed (R118). -/
def attemptFailed (k : Hand) (c : Car) (d : Side) (cause : DoorCause) (s : State) : State :=
  let r := s.side c d
  if r.retries < 3 then
    k (.sideTo c d { r with state := .opened, closeTimer := none, retryTimer := s.retryBound } .retryWait (some cause)) s
  else k (.sideTo c d (r.faulted .stuck) .fault (some (.fault .stuck))) s

/-- Expiry of the close timer (R117). -/
def closeExpired (k : Hand) (c : Car) (d : Side) (s : State) : State :=
  let r := s.side c d
  if r.state == .closing then attemptFailed k c d .closeTimeout s
  else s.setSide c d { r with closeTimer := none }

/-- Expiry of the retry timer (R118). -/
def retryExpired (k : Hand) (c : Car) (d : Side) (s : State) : State :=
  let r := s.side c d
  if r.state == .opened || r.state == .released then
    k (.sideTo c d { r with state := .closing, retries := r.retries + 1, retryTimer := none, closeTimer := s.closeBound }
      .closing (some .retry)) s
  else s.setSide c d { r with retryTimer := none }

/-! ## Judging a status frame (R112, R113, R117, R119, R120) -/

/-- A side enters FAULT. -/
def faultSide (k : Hand) (c : Car) (d : Side) (f : DoorFault) (s : State) : State :=
  k (.sideTo c d ((s.side c d).faulted f) .fault (some (.fault f))) s

/-- A side enters FAULT with cause MOVING, which orders a BRAKE stop (R120). -/
def faultMoving (k : Hand) (c : Car) (d : Side) (s : State) : State :=
  k (.orderStop .brake .door) (faultSide k c d .moving s)

/-- RELEASE_PENDING at a frame (R112). Where the acknowledging frame shows the leaves unlocked, the side goes on to OPEN at the
same frame; the cause of that second report is LEAVES, R123 naming none (DESIGN CHOICE, assumption log 47). -/
def judgePending (k : Hand) (c : Car) (d : Side) (x : DoorStatus) (s : State) : State :=
  let r := s.side c d
  if x.ack then
    let s := k (.sideTo c d { r with state := .released, ackTimer := none } .released (some .ack)) s
    let r := s.side c d
    if x.leaf != .locked && r.state == .released then k (.sideTo c d { r with state := .opened } .opened (some .leaves)) s
    else s
  else if x.leaf == .opened then faultSide k c d .opened s
  else s

/-- CLOSING at a frame (R117). -/
def judgeClosing (k : Hand) (c : Car) (d : Side) (x : DoorStatus) (s : State) : State :=
  let r := s.side c d
  if x.proves then k (.sideTo c d r.secured .secured (some (if r.clearing then .faultCleared else .proof))) s
  else if x.obstruction then attemptFailed k c d .obstruction s
  else s

/-- SECURED at a frame (R119, R120); moving says that the line was moving when the frame came to be judged. -/
def judgeSecured (k : Hand) (moving : Bool) (c : Car) (d : Side) (x : DoorStatus) (s : State) : State :=
  match x.leaf with
  | .locked => s
  | .closed =>
    if moving then faultMoving k c d s
    else if x.ack then k (.sideTo c d (s.side c d).unproven .unproven (some .lateAck)) s
    else faultSide k c d .unlocked s
  | .opened =>
    if moving then faultMoving k c d s
    else if x.ack then faultSide k c d .lateOpen s
    else faultSide k c d .opened s

/-- UNPROVEN at a frame (R119, R120). -/
def judgeUnproven (k : Hand) (moving : Bool) (c : Car) (d : Side) (x : DoorStatus) (s : State) : State :=
  if x.proves then k (.sideTo c d (s.side c d).secured .secured (some .proof)) s
  else if moving then faultMoving k c d s
  else s

/-- One side judged against an accepted status frame (R106). -/
def judgeSide (k : Hand) (moving : Bool) (c : Car) (d : Side) (x : DoorStatus) (s : State) : State :=
  let r := s.side c d
  match r.state with
  | .secured => judgeSecured k moving c d x s
  | .unproven => judgeUnproven k moving c d x s
  | .releasePending => judgePending k c d x s
  | .released =>
    if x.leaf == .locked then s else k (.sideTo c d { r with state := .opened } .opened (some .leaves)) s
  | .opened =>
    if x.leaf == .locked then k (.sideTo c d { r with state := .released } .released (some .leaves)) s else s
  | .closing => judgeClosing k c d x s
  | .fault => s

/-- Both sides of a car judged against an accepted frame, LEFT before RIGHT (R106, R107). Whether the line moves is read once,
for each side of the car is judged by R120 at a frame accepted while it does. -/
def judgeFrame (k : Hand) (c : Car) (x : CarStatus) (s : State) : State :=
  forEach bothSides (fun d t => judgeSide k s.moving c d (x.door d) t) s

/-! ## Freshness (R121) -/

/-- A side of a car that has left FRESH or entered NEVER. -/
def unproveSide (k : Hand) (c : Car) (d : Side) (s : State) : State :=
  let r := s.side c d
  match r.state with
  | .fault => s
  | .unproven => s.setSide c d r.unproven
  | .secured | .releasePending | .released | .opened | .closing =>
    k (.sideTo c d r.unproven .unproven (some .link)) s

/-- The Door Release Unit takes a change of freshness (R121). -/
def doorsOnFreshness (k : Hand) (c : Car) (f : Freshness) (s : State) : State :=
  match f with
  | .stale | .never => forEach bothSides (fun d t => unproveSide k c d t) s
  | .fresh | .lost => s

end Sys2Proof.Machine
end

