-- ==== Sys2Proof/Machine/LineMode.lean ====
section
/-! DEFINITION. The Line Mode Unit's own operations (chapter 9): changes of mode with their hand-overs, the parked variants,
the links and the loop, warming, and the supervision of the station computer. -/

namespace Sys2Proof.Machine

/-- A MODE report of the mode as it now stands (R183). -/
def modeReport (event : ModeEvent) (before : Mode) (cause : Option ModeCause) (unmet : Option WarmUnmet) (s : State) : State :=
  post (.mode { event := event, before := before, after := s.lmu.mode, cause := cause, variant := s.lmu.variant,
                target := s.lmu.target, unmet := unmet,
                counters := if cause = some .forced then some s.lmu.health.forcing else none }) s

/-- Neither flag of a variant is set. -/
def Variant.quiet (v : Variant) : Bool := !v.keepLinks && !v.keepLoop

/-- The line is in the PARKED variant with neither flag set. -/
def LineMode.isQuiet (l : LineMode) : Bool := l.mode == .parked && l.variant.any Variant.quiet

/-- The supervision timer starts afresh; its bound is known once the parameters are loaded (R176; assumption log 17). -/
def State.freshSupTimer (s : State) : SupTimer :=
  match s.line with
  | some p => .running p.tSup
  | none => .notStarted

/-- A supervision timer after a change into or out of the quiet variant (R178). -/
def suspendOrResume (wasQuiet : Bool) (s : State) : State :=
  let quiet := s.lmu.isQuiet
  if quiet && !wasQuiet then
    match s.lmu.supTimer with
    | .running _ => { s with lmu := { s.lmu with supTimer := .stopped, suspended := true } }
    | .notStarted | .stopped => s
  else if !quiet && wasQuiet && s.lmu.suspended then
    { s with lmu := { s.lmu with supTimer := s.freshSupTimer, suspended := false } }
  else s

/-! ## Car links (R96) -/

/-- One link stops (R96). -/
def stopLink (k : Hand) (c : Car) (s : State) : State :=
  if (s.car c).running then
    let s := s.setCar c { s.car c with running := false, timer := none }
    let s := k (.freshness c .never) s
    s.setCar c { s.car c with status := none, lastSeq := none, since := none, discards := 0 }
  else s

/-- One link starts; a running link is left as it is (R96). -/
def startLink (c : Car) (s : State) : State :=
  if (s.car c).running then s else s.setCar c { s.car c with running := true, timer := some Config.commandMs }

/-- Both links stop, car A's before car B's (DESIGN CHOICE, assumption log 71). -/
def stopLinks (k : Hand) (s : State) : State := forEach bothCars (stopLink k) s

/-- Both links start. -/
def startLinks (s : State) : State := forEach bothCars startLink s

/-- The links and the loop follow a parked variant (R170). -/
def followVariant (k : Hand) (v : Variant) (s : State) : State :=
  let s := if v.keepLinks then startLinks s else stopLinks k s
  if v.keepLoop then startLoop s else stopLoop k s

/-! ## Changes of mode (R165) -/

/-- The Overspeed Supervisor at entry to PARKED (R47). -/
def supervisorPark (s : State) : State :=
  let old := s.osp.level
  let aEff := s.osp.last.map (fun e => e.braking.aEff)
  let s := { s with osp := { s.osp with vPerm := 0, binding := none, level := .none, fresh := true, last := none } }
  if old == .none then s
  else
    post (.overspeed { event := .level, before := old, after := .none, vMeas := s.ptr.vMeas, vPerm := 0, binding := none,
                       x := s.ptr.x, dir := s.comingDir, aEff := aEff, order := .none, wrongWay := none }) s

/-- Modes at whose entry every OPEN window enters SEALING (R149). -/
def Mode.sealsWindows : Mode → Bool
  | .parked | .tripped | .evacuation => true
  | .init | .warming | .service | .reduced | .maintenance => false

/-- Modes in which sides may be released. -/
def Mode.releases : Mode → Bool
  | .service | .reduced | .evacuation => true
  | .init | .parked | .warming | .maintenance | .tripped => false

/-- A change of mode orders the close of all four sides (R115, R165). -/
def closesDoors (old new : Mode) : Bool :=
  old.releases && !(old == .service && new == .reduced) && !(old == .reduced && new == .service)

/-- Every OPEN window enters SEALING with a cause and is examined, its close orders held back. No rule orders the windows of one
event: groups 1 to 4 (DESIGN CHOICE, assumption log 60). -/
def sealOpen (k : Hand) (cause : WindowCause) (s : State) : State :=
  forEach allGroups (fun g t => sealWindowNow (withoutClose k) g cause t) s

/-- Every OPEN window enters SEALING with a cause, and those that become SEALED give their close orders, car A's sides before
car B's (R107, R149; assumption log 60). -/
def sealAll (k : Hand) (cause : WindowCause) (s : State) : State := closeSealed k s (sealOpen k cause s)

/-- Close orders to all four sides, LEFT before RIGHT and car A before car B (R107). -/
def closeAll (k : Hand) (s : State) : State :=
  forEach bothCars (fun c t => forEach bothSides (fun d u => k (.closeSide c d) u) t) s

/-- The windows and then the doors at a change of mode (R165). Where all four sides are ordered to close, these orders stand for
those of auto-close as well, so that each side is changed once and in R107's order. -/
def closeOnMode (k : Hand) (old new : Mode) (s : State) : State :=
  if closesDoors old new then closeAll k (if new.sealsWindows then sealOpen k .mode s else s)
  else if new.sealsWindows then sealAll k .mode s
  else s

/-- Entry to WARMING, past the links (R171). -/
def enterWarming (k : Hand) (s : State) : State :=
  k (.command .eb .release) { s with lmu := { s.lmu with warmTimer := s.boundSec LineFields.tWarm } }

/-- The mode, the variant, the target and the warming state of an entry. -/
def LineMode.enter (l : LineMode) (e : ModeEntry) : LineMode :=
  { l with mode := e.mode, variant := e.variant, target := e.target, warmTimer := none,
           warmBack := if e.mode == .warming then l.variant.getD { keepLinks := true, keepLoop := true } else l.warmBack }

/-- The links and the loop at a change of mode (R170). -/
def linksOnMode (k : Hand) (old : Mode) (e : ModeEntry) (s : State) : State :=
  match e.variant with
  | some v => followVariant k v s
  | none => if old == .parked then startLoop (startLinks s) else s

/-- A change of line mode with its report and its hand-overs (R165, R170, R171, R178). -/
def changeModeNow (k : Hand) (e : ModeEntry) (cause : ModeCause) (unmet : Option WarmUnmet) (s : State) : State :=
  let old := s.lmu.mode
  let wasQuiet := s.lmu.isQuiet
  let s := suspendOrResume wasQuiet { s with lmu := s.lmu.enter e }
  let s := modeReport .change old (some cause) unmet s
  let s := if e.mode == .parked then k (.command .eb .apply) (k (.command .sb .apply) (supervisorPark s)) else s
  let s := closeOnMode k old e.mode s
  let s := linksOnMode k old e s
  if e.mode == .warming then enterWarming k s else s

/-- A change of variant within PARKED (R167, R170, R178). -/
def changeVariant (k : Hand) (v : Variant) (s : State) : State :=
  let wasQuiet := s.lmu.isQuiet
  let s := suspendOrResume wasQuiet { s with lmu := { s.lmu with variant := some v } }
  let s := modeReport .change .parked (some .variant) none s
  followVariant k v s

/-! ## Warming (R171, R172) -/

/-- The mode a warming target gives. -/
def WarmTarget.mode : WarmTarget → Mode
  | .service => .service
  | .reduced => .reduced
  | .maintenance => .maintenance

/-- Warming is complete (R171). -/
def State.warm (s : State) : Bool := (s.brake .eb).state == .released && s.bothFresh

/-- The test of completion at a hand-over of brake states or of freshness (R171, R172). -/
def warmingCheck (k : Hand) (s : State) : State :=
  if s.lmu.mode == .warming && s.warm then
    match s.lmu.target with
    | none => s
    | some .service =>
      if s.lmu.health.forcing.any then k (.changeMode (.plain .reduced) .forced none) s
      else k (.changeMode (.plain .service) .warmed none) s
    | some t => k (.changeMode (.plain t.mode) .warmed none) s
  else s

/-- The conditions of a complete warming that are unmet (R172). -/
def State.warmUnmet (s : State) : WarmUnmet :=
  { ebNotReleased := (s.brake .eb).state != .released, carANotFresh := !s.isFresh .a, carBNotFresh := !s.isFresh .b }

/-- Expiry of the warming timer (R172). -/
def warmingExpired (k : Hand) (s : State) : State :=
  if s.lmu.mode == .warming then
    k (.changeMode { mode := .parked, variant := some s.lmu.warmBack, target := none } .warmFailed (some s.warmUnmet)) s
  else { s with lmu := { s.lmu with warmTimer := none } }

/-! ## Supervision of the station computer (R176, R177) -/

/-- A supervision expiry, by the timer or by a wrong code (R177, R178). A running test is aborted first, as R86 has it of every
event that aborts one; R177 lists the abort last among what the expiry does (DEDUCED, assumption log 52). -/
def supervisionExpired (k : Hand) (s : State) : State :=
  let s := k (.abortTest .supervision) s
  let s := { s with lmu := { s.lmu with lost := true, supTimer := .stopped, suspended := false } }
  let s := modeReport .supervisionLost s.lmu.mode none none s
  let s := if s.moving then k (.orderStop .controlled .supervision) s else s
  sealAll k .supervision s

/-- The other supervision code. -/
def SupCode.other : SupCode → SupCode
  | .c3C => .cC3
  | .cC3 => .c3C

/-- The value of a supervision code. -/
def SupCode.value : SupCode → Nat
  | .c3C => 0x3C
  | .cC3 => 0xC3

/-- A correct SUPERVISE (R176, R178). In the quiet PARKED variant the timer is marked suspended; one never started then reads
stopped and no longer not started, which R176 and R178 leave open (DESIGN CHOICE, assumption log 59). -/
def supervised (s : State) : State :=
  let wasLost := s.lmu.lost
  let s := { s with lmu := { s.lmu with
    expected := s.lmu.expected.other, lost := false,
    supTimer := if s.lmu.isQuiet then .stopped else s.freshSupTimer,
    suspended := s.lmu.isQuiet } }
  if wasLost then modeReport .supervisionRestored s.lmu.mode none none s else s

end Sys2Proof.Machine
end

