-- ==== Sys2Proof/Machine/Position.lean ====
section
/-! DEFINITION. The Position Tracker's reports, the loss of validity and the handling of marker passages (chapter 1). -/

namespace Sys2Proof.Machine

/-- A POSITION report (R22) with x before and after the event; the validity is that after the event. -/
def positionReport (cause : PositionCause) (before after : Int) (marker : Option Nat) (switch : Option LineEnd)
    (s : State) : State :=
  post (.position { cause := cause, before := before, after := after, validity := s.ptr.validity, marker := marker,
                    switch := switch }) s

/-- Validity becomes LOST where it was VALID: the report of the cause and, while moving, the BRAKE stop (R18). -/
def loseValidity (k : Hand) (cause : PositionCause) (marker : Option Nat) (switch : Option LineEnd) (s : State) : State :=
  match s.ptr.validity with
  | .lost => s
  | .valid =>
    let s := { s with ptr := { s.ptr with validity := .lost } }
    let s := positionReport cause s.ptr.x s.ptr.x marker switch s
    if s.moving then k (.orderStop .brake .position) s else s

/-- Both offsets shift by an error, s_m becomes 0 and U becomes U0 (R17). -/
def shiftOffsets (u0 : Nat) (e : Int) (s : State) : State :=
  { s with ptr := { s.ptr with offsetP := s.ptr.offsetP + e, offsetC := s.ptr.offsetC + e, sm := 0, u := u0 } }

/-- A passage taken for correction (R17). R17 lets x take its new value at the next sample, and R22 has the report carry x after
the event: the MARKER report carries x plus the error, the value the shifted offsets give (DESIGN CHOICE, assumption log 48). -/
def correctAt (k : Hand) (p : LineFields) (c : Car) (id : Nat) (s : State) : State :=
  match s.markers.find? (fun r => r.id == id && r.car == c) with
  | none => bumpHealth k .pos 1 s
  | some r =>
    let e : Int := (r.pos : Int) - s.ptr.x
    if e.natAbs ≤ p.wQuiet then shiftOffsets p.u0 e s
    else if e.natAbs ≤ p.wCorr then
      let s := positionReport .marker s.ptr.x (s.ptr.x + e) (some id) none (shiftOffsets p.u0 e s)
      bumpHealth k .pos 1 s
    else loseValidity k .markerFar (some id) none (bumpHealth k .pos 1 s)

/-- The marker field of an accepted frame with the freshness its car's record held before it (R16). -/
def markerHandOver (k : Hand) (c : Car) (m : Option MarkerField) (before : Freshness) (s : State) : State :=
  match m with
  | none => s
  | some f =>
    let last := s.ptr.lastPassage.get c
    let s := { s with ptr := { s.ptr with lastPassage := s.ptr.lastPassage.set c (some f.passage) } }
    match last with
    | none => s
    | some n =>
      if n = f.passage then s
      else
        match s.line with
        | none => s
        | some p => if before == .fresh then correctAt k p c f.id s else s

end Sys2Proof.Machine
end

