-- ==== Sys2Proof/Machine/CarLink.lean ====
section
/-! DEFINITION. The Car Link Unit's own operations (chapter 5): command frames, freshness, sequence gaps, accepted frames, the
crew key and rail brake watch, and the passenger alarm. -/

namespace Sys2Proof.Machine

/-- The levels of a command frame as they stand (R92, R105). -/
def State.levels (s : State) (c : Car) : CommandLevels :=
  { releaseLeft := (s.side c .left).state.releaseLevel, releaseRight := (s.side c .right).state.releaseLevel,
    closeLeft := (s.side c .left).state.closeLevel, closeRight := (s.side c .right).state.closeLevel,
    railTrip := s.bsq.railTrip }

/-- A command frame is sent on a running link and restarts its 100 ms timer (R92). -/
def sendCommand (c : Car) (s : State) : State :=
  if (s.car c).running then
    s.setCar c { s.car c with lastSent := s.levels c, timer := some Config.commandMs }
  else s

/-- A CAR_LINK report (R101). -/
def carLinkReport (c : Car) (event : CarLinkEvent) (before : Freshness) (value : Option Bool) (s : State) : State :=
  let r := s.car c
  post (.carLink { car := c, event := event, before := before, after := r.freshness, value := value, lastSeq := r.lastSeq,
                   counter := (s.lmu.health.get (linkCounter c)).count }) s

/-- A change of freshness with its report and its hand-overs (R94). -/
def freshnessNow (k : Hand) (c : Car) (f : Freshness) (s : State) : State :=
  let old := (s.car c).freshness
  if old == f then s
  else
    let s := s.setCar c { s.car c with freshness := f }
    let s := if f == .never then { s with ptr := { s.ptr with lastPassage := s.ptr.lastPassage.set c none } } else s
    let s := if f == .lost then bumpHealth k (linkCounter c) 1 s else s
    let s := carLinkReport c .freshness old none s
    let s := doorsOnFreshness k c f s
    let s := k .interlock s
    let s := warmingCheck k s
    if f == .lost && s.moving then k (.orderStop .controlled .link) s else s

/-- The frames lost since the previous accepted frame (R95). -/
def gapCount (r : CarRec) (seq : Nat) : Nat :=
  match r.lastSeq with
  | none => 0
  | some last =>
    if r.freshness == .never || r.freshness == .lost then 0
    else (seq + 256 - last % 256 - 1) % 256 - r.discards

/-- An ALARM report of a car as its latch now stands (R101). -/
def alarmReportOf (s : State) (c : Car) : AlarmReport :=
  let r := s.car c
  { car := c, latched := r.alarm, before := r.freshness, after := r.freshness, lastSeq := r.lastSeq, other := (s.car c.other).alarm,
    route := s.clu.route, action := s.line.map LineFields.alarmAction, haulage := s.hac.state, x := s.ptr.x }

/-- The route's REPORT destination carries an ALARM report (R100). -/
def reportAlarm (r : AlarmReport) (s : State) : State := if s.clu.route.report then post (.alarm r) s else s

/-- The station alarm lines (R100). -/
def State.alarmLines (s : State) : Bool × Bool :=
  let any := (s.car .a).alarm || (s.car .b).alarm
  (s.clu.route.lower && any, s.clu.route.upper && any)

/-- The alarm field of an accepted frame (R43, R98). -/
def watchAlarm (k : Hand) (c : Car) (x : CarStatus) (s : State) : State :=
  if x.alarm && !(s.car c).alarm then
    let s := s.setCar c { s.car c with alarm := true }
    let r := alarmReportOf s c
    let stopNow := s.line.any (fun p => p.alarmAction == 0)
    let s := if s.moving && stopNow then k (.orderStop .controlled .alarm) s else s
    let s := k (.abortTest .alarm) s
    reportAlarm r s
  else s

/-- The crew key and the rail brake of an accepted frame against the previous last status (R97). Where both
change at one frame no rule orders the reports: CREW_KEY comes first (DESIGN CHOICE, assumption log 67). -/
def watchCrew (c : Car) (prev : Option CarStatus) (x : CarStatus) (s : State) : State :=
  let key := (prev.map CarStatus.crewKey).getD false
  let rail := (prev.map CarStatus.rail).getD false
  let s := if x.crewKey != key then carLinkReport c .crewKey (s.car c).freshness (some x.crewKey) s else s
  if x.rail != rail then carLinkReport c .railBrake (s.car c).freshness (some x.rail) s else s

/-- An accepted status frame (R93), answered by a command frame (R92). -/
def acceptStatus (k : Hand) (c : Car) (x : CarStatus) (s : State) : State :=
  let old := s.car c
  let s := markerHandOver k c x.marker old.freshness s
  let gap := gapCount old x.seq
  let s := if gap = 0 then s else bumpHealth k (linkCounter c) gap s
  let s := s.setCar c { s.car c with lastSeq := some x.seq, discards := 0, status := some x, since := some 0,
                                     accepted := satCount (s.car c).accepted 1 }
  let s := k (.freshness c .fresh) s
  let s := judgeFrame k c x s
  let s := watchAlarm k c x s
  let s := watchCrew c old.status x s
  sendCommand c s

/-- A discarded status frame (R91). -/
def discardStatus (k : Hand) (c : Car) (s : State) : State :=
  let r := s.car c
  let s := s.setCar c { r with discards := min 255 (r.discards + 1), discarded := satCount r.discarded 1 }
  bumpHealth k (linkCounter c) 1 s

/-- A duplicate status frame (R91). -/
def duplicateStatus (c : Car) (s : State) : State :=
  let r := s.car c
  s.setCar c { r with duplicates := satCount r.duplicates 1 }

/-- A burst on a car link, read as a status frame where it is one: discarded, a duplicate, or accepted (R91); nothing is
received on a stopped link (R96). -/
def receiveStatus (k : Hand) (c : Car) (x? : Option CarStatus) (s : State) : State :=
  if (s.car c).running then
    match x? with
    | none => discardStatus k c s
    | some x => if (s.car c).lastSeq = some x.seq then duplicateStatus c s else acceptStatus k c x s
  else s

end Sys2Proof.Machine
end

