-- ==== Sys2Proof/Machine/Trips.lean ====
section
/-! DEFINITION. The ends of a trip as the Haulage Controller takes them from the Brake Sequencer's hand-overs (chapter 2): the
lift completed, the plan after an arrival and the berth result. -/

namespace Sys2Proof.Machine

/-- SB RELEASED in RELEASING: MOTORING and the DEPARTED report (R32). -/
def departed (s : State) : State :=
  let s := setHaulage .motoring s
  post (.trip { tripReport s .departed s.comingDir with dest := s.hac.dest }) s

/-- The berth result of the destination at the latest x (R35). -/
def berthResult (p : LineFields) (r : StopRec) (x : Int) : Berth :=
  if (x - (r.pos : Int)).natAbs ≤ p.platWindow then .at r else .offStop

/-- The plan and the current-leg mark after an arrival (R35). -/
def arrivePlan (s : State) : State :=
  { s with hac := { s.hac with
      plan := if s.hac.legMark then s.hac.plan.tail else s.hac.plan, legMark := false, dest := none } }

/-- SB APPLIED in BERTHING: HELD, the berth result, the ARRIVED report and the automatic release (R35, R35a, R109). -/
def berthArrive (k : Hand) (s : State) : State :=
  let dir := s.comingDir
  let dest := s.hac.dest
  let rec? := dest.bind s.stopAt?
  let berth : Berth := match s.line, rec? with
    | some p, some r => berthResult p r s.ptr.x
    | _, _ => .offStop
  let s := arrivePlan (setBerth berth (setHaulage .held s))
  let s := post (.trip { tripReport s .arrived dir with
    stop := dest, offset := rec?.map (fun r => s.ptr.x - (r.pos : Int)),
    atStop := berth.stop.isSome, onA := berth.onA, onB := berth.onB }) s
  match berth.stop with
  | some i => autoRelease k i berth.onA berth.onB s
  | none => s

end Sys2Proof.Machine
end

