-- ==== Sys2Proof/Machine/Brakes.lean ====
section
/-! DEFINITION. The Brake Sequencer's own operations (chapter 4): commands and readings of the two brakes, faults, the stop
record and its three kinds, the interlock watch, the deceleration check and the brake test. -/

namespace Sys2Proof.Machine

/-- A BRAKE report with no optional field, of the records as they now stand (R87). -/
def brakeReport (s : State) (event : BrakeEvent) : BrakeReport :=
  { event := event, brake := none, fault := none, command := none, kind := none, cause := none, result := none, abort := none, move := none,
    sb := (s.brake .sb).state, eb := (s.brake .eb).state, sbReading := s.reading .sb, ebReading := s.reading .eb,
    x := s.ptr.x, vMeas := s.ptr.vMeas }

/-- The bound of a brake's response timer (R69). -/
def State.respBound (s : State) : BrakeId → Timer
  | .sb => s.bound LineFields.tSbResp
  | .eb => s.bound LineFields.tEbResp

/-! ## Commands (R70) -/

/-- A record whose command becomes RELEASE, the reading being given (R70). -/
def BrakeRec.commandRelease (r : BrakeRec) (x : Reading) (bound : Timer) : BrakeRec :=
  match r.state with
  | .applied | .setting =>
    if x == .released then { cmd := .release, state := .released, timer := none }
    else { cmd := .release, state := .lifting, timer := bound }
  | .lifting | .released | .fault => { r with cmd := .release }

/-- A record whose command becomes APPLY, the reading being given (R70). -/
def BrakeRec.commandApply (r : BrakeRec) (x : Reading) (bound : Timer) : BrakeRec :=
  match r.state with
  | .lifting | .released =>
    if x == .applied then { cmd := .apply, state := .applied, timer := none }
    else { cmd := .apply, state := .setting, timer := bound }
  | .applied | .setting | .fault => { r with cmd := .apply }

/-- A record after a command; the same command again changes nothing. -/
def BrakeRec.commanded (r : BrakeRec) (c : BrakeCmd) (x : Reading) (bound : Timer) : BrakeRec :=
  if r.cmd = c then r
  else
    match c with
    | .release => r.commandRelease x bound
    | .apply => r.commandApply x bound

/-- A command given to a brake without the hand-overs that a change of state brings. -/
def rawCommand (b : BrakeId) (c : BrakeCmd) (s : State) : State :=
  s.setBrake b ((s.brake b).commanded c (s.reading b) (s.respBound b))

/-- The condition of R73 for commanding SB RELEASE. -/
def State.interlockHolds (s : State) : Bool := s.allSecured && s.bothFresh

/-- A command that the laws of R73 and R78 allow: SB RELEASE only while the interlock holds, EB RELEASE only while the
emergency latch is clear. -/
def State.commandAllowed (s : State) (b : BrakeId) (c : BrakeCmd) : Bool :=
  match b, c with
  | .sb, .release => s.interlockHolds
  | .eb, .release => s.bsq.latch.isNone
  | .sb, .apply => true
  | .eb, .apply => true

/-- The two states of the records, to see whether a hand-over is due. -/
def State.brakeStates (s : State) : BrakeState × BrakeState := ((s.brake .sb).state, (s.brake .eb).state)

/-- The hand-over of brake states where an operation has changed one (R72). -/
def handOverBrakes (k : Hand) (before : BrakeState × BrakeState) (s : State) : State :=
  if s.brakeStates = before then s else k .brakesChanged s

/-- A brake command (R70, R72). -/
def commandBrake (k : Hand) (b : BrakeId) (c : BrakeCmd) (s : State) : State :=
  if s.commandAllowed b c then handOverBrakes k s.brakeStates (rawCommand b c s) else s

/-! ## Faults and readings (R70, R71) -/

/-- A record enters FAULT; the report names the brake, its command, its reading and the cause (R71). -/
def brakeFault (k : Hand) (b : BrakeId) (cause : BrakeFaultCause) (s : State) : State :=
  let s := s.setBrake b { s.brake b with state := .fault, timer := none }
  let s := post (.brake { brakeReport s .fault with brake := some b, fault := some cause, command := some (s.brake b).cmd }) s
  let s := k (.orderStop .emergency .brakeFault) s
  k .brakesChanged s

/-- The external trip of the emergency brake (R70). -/
def externalTrip (k : Hand) (s : State) : State :=
  let s := s.setBrake .eb { cmd := .apply, state := .applied, timer := none }
  let s := k .brakesChanged s
  k (.orderStop .emergency .external) s

/-- A record takes a new state and stops its timer, and hands it over. -/
def settleBrake (k : Hand) (b : BrakeId) (st : BrakeState) (s : State) : State :=
  k .brakesChanged (s.setBrake b { s.brake b with state := st, timer := none })

/-- A record's timer alone changes. -/
def setBrakeTimer (b : BrakeId) (t : Timer) (s : State) : State := s.setBrake b { s.brake b with timer := t }

/-- A brake's reading has become x (R70). -/
def readingChanged (k : Hand) (b : BrakeId) (x : Reading) (s : State) : State :=
  match (s.brake b).state, x with
  | .applied, .applied => setBrakeTimer b none s
  | .applied, .released => brakeFault k b .uncommanded s
  | .applied, .between => setBrakeTimer b (s.respBound b) s
  | .lifting, .released => settleBrake k b .released s
  | .lifting, .applied | .lifting, .between => s
  | .released, .applied =>
    match b with
    | .sb => brakeFault k .sb .uncommanded s
    | .eb => externalTrip k s
  | .released, .released => setBrakeTimer b none s
  | .released, .between => setBrakeTimer b (s.respBound b) s
  | .setting, .applied => settleBrake k b .applied s
  | .setting, .released | .setting, .between => s
  | .fault, _ => s

/-- The contacts of a brake as they now stand; only a change of the reading moves the record (R69, R70). -/
def contactsChanged (k : Hand) (b : BrakeId) (c : Contacts) (s : State) : State :=
  let old := s.reading b
  let s := { s with bsq := { s.bsq with contacts := s.bsq.contacts.set b c } }
  if c.reading == old then s else readingChanged k b c.reading s

/-- Expiry of a brake's response timer (R70). -/
def responseExpired (k : Hand) (b : BrakeId) (s : State) : State :=
  if (s.brake b).state == .fault then setBrakeTimer b none s else brakeFault k b .timer s

/-- A response timer that was due before the parameters were loaded (R69, R89). -/
def startResponse (b : BrakeId) (s : State) : State :=
  let r := s.brake b
  let due := r.state == .lifting || r.state == .setting
    || ((r.state == .applied || r.state == .released) && s.reading b == .between)
  if due && r.timer.isNone then setBrakeTimer b (s.respBound b) s else s

/-! ## The stop record (R74 to R79) -/

/-- The rank of a stop kind (R74). -/
def StopKind.rank : StopKind → Nat
  | .controlled => 1
  | .brake => 2
  | .emergency => 3

/-- An order enters the record: it is empty or holds a weaker kind (R74). -/
def State.takesStop (s : State) (kind : StopKind) : Bool :=
  match s.bsq.stop with
  | none => true
  | some r => decide (r.kind.rank < kind.rank)

/-- The deceleration check with which a stop begins (R76, R77). -/
def State.firstCheck (s : State) (kind : StopKind) : DecelCheck :=
  match kind with
  | .brake =>
    if s.ptr.standstill || s.hac.state == .releasing || s.isHeld then .passed
    else .running (s.bound LineFields.tCheck)
  | .controlled | .emergency => .absent

/-- The brake commands that a kind gives at its taking or replacement (R74 to R78). -/
def stopCommands (kind : StopKind) (s : State) : State :=
  match kind with
  | .controlled => if (s.brake .sb).state == .lifting then rawCommand .sb .apply s else s
  | .brake => rawCommand .sb .apply s
  | .emergency => rawCommand .eb .apply (rawCommand .sb .apply s)

/-- The emergency latch at an emergency stop; it keeps its first cause (R78). -/
def setLatch (kind : StopKind) (cause : StopCause) (s : State) : State :=
  match kind, s.bsq.latch with
  | .emergency, none => { s with bsq := { s.bsq with latch := some cause } }
  | _, _ => s

/-- The notice of an emergency to the Line Mode Unit (R78, R166). -/
def emergencyMode (k : Hand) (kind : StopKind) (s : State) : State :=
  if kind == .emergency && s.lmu.mode != .tripped then k (.changeMode (.plain .tripped) .emergency none) s else s

/-- An order is taken into the record or replaces what it holds (R74). -/
def takeStop (k : Hand) (kind : StopKind) (cause : StopCause) (s : State) : State :=
  let event : BrakeEvent := if s.bsq.stop.isSome then .stopReplaced else .stopTaken
  let check := s.firstCheck kind
  let s := k (.abortTest .stop) s
  let before := s.brakeStates
  let s := { s with bsq := { s.bsq with
    stop := some { kind := kind, cause := cause, x := s.ptr.x, vMeas := s.ptr.vMeas, check := check } } }
  let s := haulageOnStop kind s
  let s := stopCommands kind s
  let s := setLatch kind cause s
  let s := post (.brake { brakeReport s event with kind := some kind, cause := some cause }) s
  let s := emergencyMode k kind s
  let s := handOverBrakes k before s
  k .settle s

/-- An order reaches the Brake Sequencer (R74). -/
def orderStopNow (k : Hand) (kind : StopKind) (cause : StopCause) (s : State) : State :=
  if s.takesStop kind then takeStop k kind cause s else s

/-- A stop in progress ends (R79). -/
def endStop (s : State) : State :=
  match s.bsq.stop with
  | none => s
  | some r =>
    let s := { s with bsq := { s.bsq with stop := none } }
    post (.brake { brakeReport s .stopEnded with kind := some r.kind, cause := some r.cause }) s

/-- A CONTROLLED stop is in the record. -/
def State.controlledStop (s : State) : Bool := s.bsq.stop.any (fun r => r.kind == .controlled)

/-- SB is to be commanded APPLY at rest: the set request of BERTHING (R35a) or a CONTROLLED stop in STOPPING (R75). -/
def State.setDue (s : State) : Bool :=
  s.ptr.standstill && (s.brake .sb).cmd == .release
    && (s.hac.state == .berthing || (s.hac.state == .stopping && s.controlledStop))

/-- What follows from standstill and SB APPLIED (R35a, R40, R75, R79). Where one event ends the stop record and leaves STOPPING
or BERTHING, the TRIP report stands before the BRAKE report STOP_ENDED: R40 and R79 give no order (DESIGN CHOICE, assumption log
53). -/
def settleNow (k : Hand) (s : State) : State :=
  let s := if s.setDue then k (.command .sb .apply) s else s
  let s := if s.hac.state == .stopping && s.ptr.standstill && s.sbApplied then heldFromStopping s else s
  if s.ptr.standstill && s.sbApplied then endStop s else s

/-- The interlock watch (R73). -/
def interlockNow (k : Hand) (s : State) : State :=
  if (s.brake .sb).cmd == .release && !s.interlockHolds then
    let s := if s.moving then k (.orderStop .brake .interlock) s else k (.abortTest .interlock) s
    k (.command .sb .apply) s
  else s

/-! ## The deceleration check (R77) -/

/-- The measured deceleration at a sample, from the kept speeds newest first (R77). -/
def measuredDeceleration (hist : List Nat) : Int :=
  match hist, hist.getLast? with
  | now :: _, some earliest => 10 * ((earliest : Int) - (now : Int))
  | _, _ => 0

/-- The speeds kept after a sample: the latest 21 (R77). -/
def keepSpeeds (v : Nat) (hist : List Nat) : List Nat := (v :: hist).take 21

/-- A sample is kept and a running check examined (R77). -/
def decelerationSample (s : State) : State :=
  let hist := keepSpeeds s.ptr.vMeas s.bsq.vHist
  let s := { s with bsq := { s.bsq with vHist := hist } }
  match s.bsq.stop with
  | some r =>
    match r.check with
    | .running _ =>
      if s.ptr.standstill || s.line.any (fun p => decide ((p.aCheck : Int) ≤ measuredDeceleration hist)) then
        { s with bsq := { s.bsq with stop := some { r with check := .passed } } }
      else s
    | .absent | .passed | .failed => s
  | none => s

/-- Expiry of t_check (R77). -/
def checkExpired (k : Hand) (s : State) : State :=
  match s.bsq.stop with
  | some r =>
    match r.check with
    | .running _ =>
      k (.orderStop .emergency .escalation) { s with bsq := { s.bsq with stop := some { r with check := .failed } } }
    | .absent | .passed | .failed => s
  | none => s

/-! ## The rail-brake trip (R80) -/

/-- The rail-brake trip is handed over (R80). -/
def assertRail (s : State) : State :=
  if s.bsq.railTrip then s
  else
    let s := { s with bsq := { s.bsq with railTrip := true } }
    post (.brake (brakeReport s .railTrip)) s

/-! ## The brake test (R83 to R86) -/

/-- A running test takes a new record. -/
def setTest (t : Option BrakeTest) (torque : Bool) (s : State) : State :=
  { s with bsq := { s.bsq with test := t, torqueLine := torque } }

/-- Entry to TORQUE (R84). -/
def enterTorque (t : BrakeTest) (s : State) : State :=
  setTest (some { t with phase := .torque, ref := s.ptr.dp, timer := s.boundSec LineFields.tTest }) true s

/-- A test ends with result PASS (R85). -/
def passTest (t : BrakeTest) (s : State) : State :=
  let s := setTest none false s
  post (.brake { brakeReport s .testResult with brake := some t.brake, result := some .pass, move := some t.move }) s

/-- A running test is aborted (R86). -/
def abortTestNow (k : Hand) (cause : AbortCause) (s : State) : State :=
  match s.bsq.test with
  | none => s
  | some t =>
    let s := setTest none false s
    let s := k (.command .eb .apply) (k (.command .sb .apply) s)
    post (.brake { brakeReport s .testResult with
      brake := some t.brake, result := some .aborted, abort := some cause, move := some t.move }) s

/-- A test fails (R85). -/
def failTest (k : Hand) (t : BrakeTest) (s : State) : State :=
  let s := setTest none false s
  let s := k (.orderStop .emergency .testFail) s
  post (.brake { brakeReport s .testResult with brake := some t.brake, result := some .fail, move := some t.move }) s

/-- A sample during TORQUE (R84, R85). -/
def testSample (k : Hand) (s : State) : State :=
  match s.bsq.test with
  | none => s
  | some t =>
    match t.phase with
    | .torque =>
      let m := (s.ptr.dp - t.ref).natAbs
      let t := { t with move := max t.move m }
      if 50 < m then failTest k t s else setTest (some t) s.bsq.torqueLine s
    | .preparing | .restoring => s

/-- A running test goes on where a brake has reached the state it waits for (R84, R85). -/
def testProgress (k : Hand) (s : State) : State :=
  match s.bsq.test with
  | none => s
  | some t =>
    let sb := s.brake .sb
    let eb := s.brake .eb
    match t.brake, t.phase with
    | .eb, .preparing =>
      if eb.state == .applied && eb.cmd == .apply then
        if sb.state == .released then enterTorque t s
        else if sb.cmd == .apply then
          if s.interlockHolds then k (.command .sb .release) s else k (.abortTest .interlock) s
        else s
      else s
    | .eb, .restoring =>
      if sb.state == .applied then
        if eb.state == .released then passTest t s
        else if eb.cmd == .apply then k (.command .eb .release) s
        else s
      else s
    | .eb, .torque => s
    | .sb, _ => s

/-- Expiry of t_test (R85). -/
def testExpired (k : Hand) (s : State) : State :=
  match s.bsq.test with
  | none => s
  | some t =>
    match t.phase with
    | .torque =>
      match t.brake with
      | .sb => passTest t s
      | .eb => k (.command .sb .apply) (setTest (some { t with phase := .restoring, timer := none }) false s)
    | .preparing | .restoring => s

/-! ## The hand-over of brake states (R72) -/

/-- What the Haulage Controller does on a change of brake states (R32, R35a). -/
def haulageOnBrakes (k : Hand) (s : State) : State :=
  match s.hac.state with
  | .releasing => if (s.brake .sb).state == .released then departed s else s
  | .berthing => if s.sbApplied then berthArrive k s else s
  | .held | .motoring | .approaching | .creeping | .stopping => s

/-- A brake record has changed state (R72). -/
def brakesChangedNow (k : Hand) (s : State) : State :=
  let s := haulageOnBrakes k s
  let s := k .settle s
  let s := testProgress k s
  warmingCheck k s

end Sys2Proof.Machine
end

