-- ==== Sys2Proof/Machine/Overspeed.lean ====
section
/-! DEFINITION. One evaluation of the Overspeed Supervisor with its hand-overs: the wrong-way accumulator, the reference cut,
the level orders and the rollback order (chapter 3). -/

namespace Sys2Proof.Machine

/-- Evaluations take place: parameters loaded, mode neither INIT nor PARKED (R47). -/
def State.evaluates (s : State) : Bool := s.loaded && s.lmu.mode != .init && s.lmu.mode != .parked

/-- The wrong-way accumulator after a sample of signed travel t (R62). -/
def accumulate (s : State) (t : Int) : Nat :=
  if s.osp.fresh then 0
  else if s.isHeld then (s.ptr.dp - s.osp.heldRef).natAbs
  else
    match s.comingDir with
    | .up => ((s.osp.acc : Int) - t).toNat
    | .down => ((s.osp.acc : Int) + t).toNat

/-- The order of a level risen into (R58). -/
def Level.order : Level → OspOrder
  | .none | .warn => .none
  | .service => .brake
  | .emergency => .emergency
  | .rail => .emergencyRail

/-- The order given at a rise into a level (R58). At RAIL the emergency stop runs to its end, with its reports, its mode change and
the end of a stop at rest, before the rail-brake trip is asserted and reported: R58 hands them over together (DESIGN CHOICE,
assumption log 56). -/
def levelOrder (k : Hand) (l : Level) (s : State) : State :=
  match l with
  | .none | .warn => s
  | .service => k (.orderStop .brake .overspeed) s
  | .emergency => k (.orderStop .emergency .overspeed) s
  | .rail => assertRail (k (.orderStop .emergency .rail) s)

/-- The results of an evaluation enter the supervisor's state (R47, R62). -/
def storeEvaluation (r : EnvelopeResult) (acc : Nat) (exceeds : Bool) (s : State) : State :=
  { s with osp := { s.osp with
      level := r.level, vPerm := r.vPerm, binding := r.binding, last := some r.eval, acc := acc,
      heldRef := if s.osp.fresh then s.ptr.dp else s.osp.heldRef,
      ordered := (!s.osp.fresh && s.osp.ordered) || exceeds, fresh := false } }

/-- One evaluation at a completed sample of signed travel t (R47, R58, R59, R62, R63). What waits for standstill (R35a, R40, R75,
R79) comes about once the accumulator is judged and the reference is cut, and before the level and ROLLBACK orders of the same
evaluation: no rule orders them within a sample (DESIGN CHOICE, assumption log 55). -/
def evaluate (k : Hand) (p : LineFields) (t : Int) (s : State) : State :=
  let r := s.envelope p
  let old := s.osp.level
  let dir := s.comingDir
  let acc := accumulate s t
  let exceeds := decide (200 < acc) && (s.osp.fresh || !s.osp.ordered)
  let rise := decide (old.rank < r.level.rank)
  let report (event : OverspeedEvent) (before : Level) (order : OspOrder) (w : Option Nat) : Report :=
    .overspeed { event := event, before := before, after := r.level, vMeas := s.ptr.vMeas, vPerm := r.vPerm,
                 binding := r.binding, x := s.ptr.x, dir := dir, aEff := some r.eval.braking.aEff, order := order,
                 wrongWay := w }
  let s := storeEvaluation r acc exceeds s
  let s := cutReference r.vPerm s
  let s := k .settle s
  let s := if rise then levelOrder k r.level s else s
  let s := if r.level == old then s else post (report .level old (if rise then r.level.order else .none) none) s
  if exceeds then
    post (report .rollback r.level .emergency (some acc)) (k (.orderStop .emergency .rollback) s)
  else s

end Sys2Proof.Machine
end

