-- ==== Sys2Proof/Machine/Flags.lean ====
section
/-! DEFINITION. The sets of reasons that the requests evaluate, each in its owning table's order, and the configuration
checks. -/

namespace Sys2Proof.Machine

/-- The names whose condition is present, in the order listed. -/
def namesPresent {α : Type} (l : List (Bool × α)) : List α := (l.filter Prod.fst).map Prod.snd

/-- The coming destination is a terminal stop (R30). -/
def State.terminalAhead (s : State) : Bool :=
  match s.hac.plan.head?.bind s.stopAt?, s.line with
  | some r, some p => r.pos == 0 || r.pos == p.lineLength
  | _, _ => false

/-- The mode is one of those in which the cars may move. -/
def Mode.runs : Mode → Bool
  | .service | .reduced | .maintenance => true
  | .init | .parked | .warming | .evacuation | .tripped => false

/-- Some alarm latch is set. -/
def State.anyAlarm (s : State) : Bool := (s.car .a).alarm || (s.car .b).alarm

/-- The inhibits a DEPART meets (R30). -/
def State.inhibits (s : State) : List Inhibit :=
  namesPresent
    [(!s.lmu.mode.runs, .mode),
     (s.hac.plan.isEmpty, .planEmpty),
     (s.ptr.validity == .lost && !(s.lmu.mode == .maintenance && s.terminalAhead), .position),
     (!s.allSecured, .doors),
     (s.windowsBusy, .windows),
     (!s.bothFresh, .carLink),
     (s.lmu.lost, .supervision),
     (s.brakingOnDemand.imbalance, .imbalance),
     ((s.brake .sb).state != .applied || (s.brake .eb).state != .released, .brakes),
     (!s.hac.ready || s.hac.fault, .drive),
     (s.anyAlarm, .alarm),
     (s.bsq.test.isSome, .test)]

/-- A car's rail-brake reason: not FRESH, or its latest status shows the rail brake APPLIED (R81). -/
def State.railReason (s : State) (c : Car) : Bool :=
  !s.isFresh c || (s.car c).status.any CarStatus.rail

/-- The reasons a TRIP_RESET meets (R81). -/
def State.tripReasons (s : State) : List TripReason :=
  namesPresent
    [(s.lmu.mode != .tripped, .mode),
     (!s.ptr.standstill, .moving),
     (s.ptr.otLower || s.ptr.otUpper, .overtravel),
     (s.reading .sb != .applied, .sbFeedback),
     (s.reading .eb != .applied, .ebFeedback),
     (s.railReason .a, .railA),
     (s.railReason .b, .railB)]

/-- The reasons a BRAKE_TEST of a brake meets (R83). -/
def State.testReasons (s : State) (b : BrakeId) : List TestReason :=
  namesPresent
    [(s.moving, .notHeld),
     (!s.lmu.mode.runs, .mode),
     (s.windowsBusy, .windows),
     (!s.allSecured, .doors),
     ((s.brake .sb).state != .applied || (s.brake .eb).state != .released, .brakes),
     (b == .eb && !s.bothFresh, .carLink),
     (s.bsq.stop.isSome, .stopping)]

/-- The SIDE_STATE condition of a release (R110, R111). -/
def DoorState.barred : DoorState → Bool
  | .unproven | .closing | .fault => true
  | .secured | .releasePending | .released | .opened => false

/-- The reasons a DOOR_RELEASE meets (R110). -/
def State.releaseReasons (s : State) (c : Car) (d : Side) : List ReleaseReason :=
  namesPresent
    [(s.moving, .notHeld),
     (!(s.lmu.mode == .service || s.lmu.mode == .reduced), .mode),
     (!s.sbApplied, .brake),
     (!s.ptr.standstill, .standstill),
     (s.hac.berth.stop.isNone, .offStop),
     (s.hac.berth.stop.any (fun i => !(s.platformSides c i).contains d), .notPlatform),
     (!s.isFresh c, .carLink),
     ((s.side c d).state.barred, .sideState)]

/-- The walkway side of a car's segment is the side named (R111). -/
def State.walkwayIs (s : State) (c : Car) (d : Side) : Bool :=
  match s.segOf c, d with
  | some g, .left => g.walkway == .left
  | some g, .right => g.walkway == .right
  | none, _ => false

/-- The reasons an EVAC_RELEASE meets (R111). -/
def State.evacReasons (s : State) (c : Car) (d : Side) : List EvacReason :=
  namesPresent
    [(s.lmu.mode != .evacuation, .mode),
     (s.moving, .notHeld),
     (!s.sbApplied, .brake),
     (!s.ptr.standstill, .standstill),
     (!s.walkwayIs c d, .notWalkway),
     (!s.isFresh c, .carLink),
     ((s.side c d).state.barred, .sideState)]

/-! ## SET_MODE (R167, R168) -/

/-- What a change of mode requires (R168). -/
structure ModeConditions where
  held : Bool := false
  windows : Bool := false
  doors : Bool := false
  offStop : Bool := false
  standstill : Bool := false
  latchClear : Bool := false
  /-- the configuration checks of R169 -/
  checks : Bool := false
  deriving DecidableEq, Repr

/-- The changes SET_MODE can make, with their conditions; none for a change outside the table (R168). -/
def modeChange (old new : Mode) : Option ModeConditions :=
  match old, new with
  | .init, .parked | .init, .service | .init, .reduced | .init, .maintenance
  | .parked, .service | .parked, .reduced | .parked, .maintenance => some { checks := true }
  | .service, .reduced | .reduced, .service | .evacuation, .tripped => some {}
  | .service, .maintenance | .reduced, .maintenance => some { held := true }
  | .service, .parked | .reduced, .parked | .maintenance, .parked => some { held := true, windows := true, doors := true }
  | .service, .evacuation | .reduced, .evacuation | .maintenance, .evacuation => some { held := true, offStop := true }
  | .tripped, .evacuation => some { standstill := true }
  | .evacuation, .parked => some { held := true, latchClear := true }
  | _, _ => none

/-- The reasons present against a change (R168). -/
def State.modeReasons (s : State) (c : ModeConditions) : List ModeReason :=
  namesPresent
    [(c.held && s.moving, .notHeld),
     (c.windows && s.windowsBusy, .windows),
     (c.doors && !s.allSecured, .doors),
     (c.offStop && s.hac.berth.stop.isSome, .atStop),
     (c.standstill && !s.ptr.standstill, .moving),
     (c.latchClear && s.bsq.latch.isSome, .tripLatched)]

/-! ## Configuration checks (R8, R169) -/

/-- Some value stands twice in a list. -/
def hasRepeat : List Nat → Bool
  | [] => false
  | v :: rest => rest.contains v || hasRepeat rest

/-- The gate groups a stop names. -/
def StopRec.groups (r : StopRec) : List Group := r.car.a.group.toList ++ r.car.b.group.toList

/-- The gate groups the stop table names. -/
def State.namedGroups (s : State) : List Group := s.stops.flatMap StopRec.groups

/-- Some gate of the list belongs to a group. -/
def State.hasGate (s : State) (g : Group) : Bool := s.glm.gates.any (fun h => h.group == g)

/-- The checks of the loaded configuration in their order, each with whether it fails (R8, R169). -/
def State.configChecks (s : State) (p : LineFields) : List (Bool × ConfigCheck) :=
  [(s.segs.isEmpty, .segEmpty),
   (s.segs.head?.any (fun g => g.start != 0), .segFirst),
   (hasRepeat (s.segs.map Segment.start), .segDuplicate),
   (s.segs.any (fun g => decide (p.lineLength ≤ g.start)), .segBeyond),
   (s.segs.any (fun g => decide (p.vLineMax < g.vLimit)), .segLimit),
   (s.stops.any (fun r => decide (p.lineLength < r.pos)), .stopRange),
   (hasRepeat (s.stops.map StopRec.pos), .stopDuplicate),
   (!s.glm.gates.isEmpty && s.namedGroups.any (fun g => !s.hasGate g), .stopGates),
   (s.markers.any (fun r => decide (p.lineLength < r.pos)), .markRange),
   (decide (p.vLineMax < p.vCreep), .creepAboveLine),
   (!s.namedGroups.isEmpty && s.glm.gates.isEmpty, .gatesAbsent),
   (!s.stops.any (fun r => r.pos == 0 || r.pos == p.lineLength), .terminalStop)]

/-- The first configuration check that fails (R8, R169). -/
def State.configFault (s : State) : Option ConfigCheck :=
  match s.line with
  | none => some .lineAbsent
  | some p => (namesPresent (s.configChecks p)).head?

end Sys2Proof.Machine
end

