-- ==== Sys2Proof/Machine/Tracker.lean ====
section
/-! DEFINITION. One position sample of the Position Tracker (chapter 1): distance terms, uncertainty, speed and standstill, the
cross-check, the terminal and overtravel switches, and the blocks that act on the completed sample. -/

namespace Sys2Proof.Machine

/-- A distance term: the sign of the count times floor(|count| × scale / 1000) (R10). -/
def distanceTerm (count : BitVec 48) (scale : Nat) : Int :=
  let n := count.toInt
  n.sign * ((n.natAbs * scale / 1000 : Nat) : Int)

/-- U for a distance since the last correction (R12). -/
def uncertainty (p : LineFields) (sm : Nat) : Nat := min p.uMax (p.u0 + ceilDiv (sm * p.uPm) 1000)

/-- The distance terms kept after a sample: the current ones and the ten before them, all alike at a restart (R14). -/
def keepTerms (first : FirstSample) (cur : DistanceTerms) (hist : List DistanceTerms) : List DistanceTerms :=
  match first with
  | .ordinary => (cur :: hist).take 11
  | .afterReset | .afterReconfigure => List.replicate 11 cur

/-- v_meas from the kept terms (R14). -/
def measuredSpeed (hist : List DistanceTerms) : Nat :=
  match hist, hist.getLast? with
  | cur :: _, some old => 20 * max (cur.p - old.p).natAbs (cur.c - old.c).natAbs
  | _, _ => 0

/-- The run at or below v_still after a sample: milliseconds since its first sample (R15). -/
def stillRun (p : LineFields) (v : Nat) (run : Option Nat) : Option Nat :=
  if v ≤ p.vStill then some ((run.map (· + 5)).getD 0) else none

/-- The standstill flag after a sample (R15). -/
def standstillAfter (p : LineFields) (run : Option Nat) (old : Bool) : Bool :=
  match run with
  | none => false
  | some n => old || decide (p.tStill ≤ n)

/-- The signed travel of a sample: nothing at the first sample after a reset (R12), nor at the sample that R21 gives the same
standing (assumption log 18). -/
def travelOf (t : Tracker) (cur : DistanceTerms) : Int :=
  match t.first with
  | .afterReset | .afterReconfigure => 0
  | .ordinary => cur.p - t.dp

/-- The class the cross-check compares a sample against: that of the previous sample, and within tolerance at the first sample
after a reset (R13). The sample after a CONFIGURE_LINE that changes L or a scale is compared against within tolerance too: R21
gives it the standing of a first sample and R13 does not say more (DEDUCED, assumption log 18). -/
def Tracker.wasBeyond (t : Tracker) : Bool :=
  match t.first with
  | .ordinary => t.beyond
  | .afterReset | .afterReconfigure => false

/-- The distance terms of the present counts. -/
def Tracker.terms (t : Tracker) (p : LineFields) : DistanceTerms :=
  { p := distanceTerm t.countP p.scaleP, c := distanceTerm t.countC p.scaleC }

/-- The tracker after the place of a sample is known: distance terms, x and x_c, s_m, U and the cross-check's class (R10, R12,
R13). -/
def Tracker.locate (t : Tracker) (p : LineFields) : Tracker :=
  let cur := t.terms p
  let sm := min Config.maxPosition (t.sm + (travelOf t cur).natAbs)
  let x := t.offsetP + cur.p
  let xc := t.offsetC + cur.c
  { t with x := x, xc := xc, sm := sm, u := uncertainty p sm, hist := keepTerms t.first cur t.hist,
           beyond := decide (p.tEnc < (x - xc).natAbs), first := .ordinary }

/-- The tracker after the measured speed and the standstill flag of a sample, which follow the cross-check (R11, R14, R15). -/
def Tracker.gauge (t : Tracker) (p : LineFields) : Tracker :=
  let v := measuredSpeed t.hist
  let run := stillRun p v t.still
  { t with vMeas := v, still := run, standstill := standstillAfter p run t.standstill }

/-- The encoder cross-check (R13); wasBeyond is the class it is compared against. The BRAKE stop it orders reads the speed and
the flag of the sample before, for R11 puts the cross-check before them (assumption log 11). -/
def crossCheck (k : Hand) (p : LineFields) (wasBeyond : Bool) (s : State) : State :=
  let d := (s.ptr.x - s.ptr.xc).natAbs
  let s := if s.ptr.beyond && !wasBeyond then bumpHealth k .pos 1 s else s
  if 4 * p.tEnc < d then loseValidity k .diverged none none s else s

/-- The position is set to a terminal's target (R19). -/
def setPosition (p : LineFields) (target : Int) (v : Validity) (cause : PositionCause) (sw : LineEnd) (s : State) : State :=
  let before := s.ptr.x
  let cur := s.ptr.terms p
  let s := { s with ptr := { s.ptr with
    offsetP := target - cur.p, offsetC := target - cur.c, x := target, xc := target, sm := 0, u := p.u0, validity := v } }
  positionReport cause before target none (some sw) s

/-- The target of a switch (R19). -/
def LineEnd.target (p : LineFields) : LineEnd → Nat
  | .lower => 0
  | .upper => p.lineLength

/-- Homing at a switch, with what the Haulage Controller does with it (R19, R21, R36). -/
def homeAt (p : LineFields) (sw : LineEnd) (s : State) : State :=
  homedWhileHeld (sw.target p) (setPosition p (sw.target p) .valid .homed sw s)

/-- Exactly one switch reads active (R19); became says that it counts as having become active, stilled that standstill
became set at this sample. -/
def oneSwitch (k : Hand) (p : LineFields) (sw : LineEnd) (became stilled : Bool) (s : State) : State :=
  let near := decide ((s.ptr.x - (sw.target p : Int)).natAbs ≤ p.wCorr)
  let lost := s.ptr.validity == .lost
  if s.ptr.standstill && (became || stilled) && (lost || near) then homeAt p sw s
  else if became then
    if lost then setPosition p (sw.target p) .lost .switch sw s
    else if near then setPosition p (sw.target p) .valid .switch sw s
    else loseValidity k .switchFar none (some sw) (bumpHealth k .pos 1 s)
  else s

/-- Both switches read active and did not both before (R19). -/
def doubleTerminal (k : Hand) (s : State) : State :=
  let s := bumpHealth k .pos 1 s
  match s.ptr.validity with
  | .valid => loseValidity k .doubleTerminal none none s
  | .lost => positionReport .doubleTerminal s.ptr.x s.ptr.x none none s

/-- The readings of the four switches (R11). -/
structure Switches where
  lower : Bool
  upper : Bool
  otLower : Bool
  otUpper : Bool
  deriving DecidableEq, Repr

/-- The readings a tracker holds of its latest sample. -/
def Tracker.switches (t : Tracker) : Switches :=
  { lower := t.lower, upper := t.upper, otLower := t.otLower, otUpper := t.otUpper }

/-- The readings enter the tracker. -/
def readSwitches (w : Switches) (s : State) : State :=
  { s with ptr := { s.ptr with lower := w.lower, upper := w.upper, otLower := w.otLower, otUpper := w.otUpper } }

/-- The terminal switches at a sample with loaded parameters (R19, R21): first says that the sample has the standing of the
first after a reset. -/
def terminalSwitches (k : Hand) (p : LineFields) (prev now : Switches) (first stilled : Bool) (s : State) : State :=
  let prevBoth := prev.lower && prev.upper
  match now.lower, now.upper with
  | true, true => if prevBoth then s else doubleTerminal k s
  | true, false =>
    if first then homeAt p .lower s else oneSwitch k p .lower (!prev.lower || prevBoth) stilled s
  | false, true =>
    if first then homeAt p .upper s else oneSwitch k p .upper (!prev.upper || prevBoth) stilled s
  | false, false => s

/-- An overtravel switch has become active (R20, R60). -/
def overtravel (k : Hand) (sw : LineEnd) (s : State) : State :=
  let s := k (.orderStop .emergency .overtravel) s
  positionReport .overtravel s.ptr.x s.ptr.x none (some sw) s

/-- The overtravel switches at a sample (R20). No rule orders the two where both become active: the lower switch is handled first
(DESIGN CHOICE, assumption log 61). -/
def overtravelSwitches (k : Hand) (prev now : Switches) (s : State) : State :=
  let s := if now.otLower && !prev.otLower then overtravel k .lower s else s
  if now.otUpper && !prev.otUpper then overtravel k .upper s else s

/-- What the other blocks do on a completed sample: the evaluation (R47), the deceleration check (R77), the test movement (R84)
and what waits for standstill (R35a, R40, R75, R79). -/
def onSample (k : Hand) (t : Int) (s : State) : State :=
  let s := match s.line with
    | some p => if s.evaluates then evaluate k p t s else s
    | none => s
  k .settle (testSample k (decelerationSample s))

/-- A position sample (R11). -/
def sample (k : Hand) (now : Switches) (s : State) : State :=
  let prev := s.ptr.switches
  let s := readSwitches now s
  match s.line with
  | none => onSample k 0 (overtravelSwitches k prev now s)
  | some p =>
    let old := s.ptr
    let t := travelOf old (old.terms p)
    let s := crossCheck k p old.wasBeyond { s with ptr := old.locate p }
    let s := { s with ptr := s.ptr.gauge p }
    let s := terminalSwitches k p prev now (old.first != .ordinary) (s.ptr.standstill && !old.standstill) s
    let s := overtravelSwitches k prev now s
    onSample k t s

end Sys2Proof.Machine
end

