-- ==== Sys2Proof/Machine/Handover.lean ====
section
/-! DEFINITION. The hand-overs between blocks tied together: what each Act does, and how deeply they may be nested. -/

namespace Sys2Proof.Machine

/-- What a hand-over does, k being how it reaches further blocks. -/
def act (k : Hand) (a : Act) (s : State) : State :=
  match a with
  | .orderStop kind cause => orderStopNow k kind cause s
  | .command b c => commandBrake k b c s
  | .brakesChanged => brakesChangedNow k s
  | .settle => settleNow k s
  | .interlock => interlockNow k s
  | .abortTest cause => abortTestNow k cause s
  | .sideTo c d r event cause => sideToNow k c d r event cause s
  | .closeSide c d => closeSideNow k c d s
  | .sealWindow g cause => sealWindowNow k g cause s
  | .changeMode e cause unmet => changeModeNow k e cause unmet s
  | .freshness c f => freshnessNow k c f s

/-- A hand-over nested at most n deep; one nested deeper marks the state (assumption log 3). -/
def run : Nat → Act → State → State
  | 0, _, s => { s with overrun := true }
  | n + 1, a, s => act (run n) a s

/-- A hand-over made within a step. -/
def cascade : Hand := run Config.handOverDepth

/-- The answer of a meaning: the next state, or the fault where its hand-overs went deeper than the model follows. -/
def finish (s : State) : Host.Outcome State Fault Refusal :=
  if s.overrun then .fault .handOverDepth else .next s

/-- A command's effect: nothing while the external reset line holds the device (R181; assumption log 4), else f of the
state. -/
def whileRunning (f : State → State) (s : State) : Host.Outcome State Fault Refusal :=
  let s := { s with overrun := false }
  match s.inReset with
  | some _ => .next s
  | none => finish (f s)

end Sys2Proof.Machine
end

