-- ==== Sys2Proof/Machine/Wire.lean ====
section
/-! DEFINITION. What the device reads from its serial ports (chapter 11): the CRC-16, the payloads of the 46 requests with an
encoder beside the decoder, the car status frame and the gate reply. -/

namespace Sys2Proof.Machine

/-! ## The check (R184) -/

/-- One bit of the CRC-16 with polynomial x^16 + x^12 + x^5 + 1. -/
def crcBit (c : Check) : Check := if c.msb then (c <<< 1) ^^^ 0x1021 else c <<< 1

/-- One byte of the CRC-16, most significant bit first. -/
def crcByte (c : Check) (b : Byte) : Check := repeatN 8 crcBit (c ^^^ (b.setWidth 16 <<< 8))

/-- The CRC-16 of a run of bytes, from all ones (R184). -/
def crc16 (l : List Byte) : Check := l.foldl crcByte 0xFFFF

/-- A check as its two bytes, high byte first (R197). -/
def checkBytes (c : Check) : List Byte := [(c >>> 8).setWidth 8, c.setWidth 8]

/-! ## Integers on the wire (R197) -/

/-- The number that bytes spell, most significant first. -/
def beNat (l : List Byte) : Nat := l.foldl (fun acc b => acc * 256 + b.toNat) 0

/-- A number as n bytes, most significant first. -/
def natBytes : Nat → Nat → List Byte
  | 0, _ => []
  | n + 1, v => natBytes n (v / 256) ++ [BitVec.ofNat 8 v]

/-- The n bytes of a payload from an offset, as a number. -/
def fieldAt (p : List Byte) (offset n : Nat) : Nat := beNat ((p.drop offset).take n)

/-- A list of n records of a fixed size, read one after another. -/
def recordsAt {α : Type} (read : List Byte → α) (size : Nat) : Nat → List Byte → List α
  | 0, _ => []
  | n + 1, p => read (p.take size) :: recordsAt read size n (p.drop size)

/-- A payload of a count and that many records of a fixed size; none where its length does not fit (R186). -/
def countedList {α : Type} (read : List Byte → α) (size : Nat) (p : List Byte) : Option (List α) :=
  match p with
  | [] => none
  | c :: rest => if rest.length = size * c.toNat then some (recordsAt read size c.toNat rest) else none

/-- A payload of a count and that many records, written (R197). -/
def writeList {α : Type} (write : α → List Byte) (l : List α) : List Byte :=
  BitVec.ofNat 8 l.length :: l.flatMap write

/-! ## Records (R197, R198) -/

/-- A segment record: one 56-bit number (R198). -/
def readSegment (p : List Byte) : SegmentFields :=
  let v := beNat p
  { start := v / 2 ^ 34 % 2 ^ 22, vLimit := v / 2 ^ 23 % 2 ^ 11, vCruise := v / 2 ^ 12 % 2 ^ 11,
    sinePm := v / 2 ^ 2 % 2 ^ 10, walkway := v % 2 ^ 2 }

/-- The bytes of a segment record (R198). -/
def writeSegment (r : SegmentFields) : List Byte :=
  natBytes 7 ((((r.start * 2 ^ 11 + r.vLimit) * 2 ^ 11 + r.vCruise) * 2 ^ 10 + r.sinePm) * 2 ^ 2 + r.walkway)

/-- The fields of one car in a stop record. -/
def readStopCar (p : List Byte) (o : Nat) : StopCarFields :=
  { sides := fieldAt p o 1, group := fieldAt p (o + 1) 1, terminal := fieldAt p (o + 2) 1 }

/-- A stop record, 11 bytes. -/
def readStop (p : List Byte) : StopFields :=
  { index := fieldAt p 0 1, pos := fieldAt p 1 4, carA := readStopCar p 5, carB := readStopCar p 8 }

/-- The bytes of one car's fields in a stop record. -/
def writeStopCar (c : StopCarFields) : List Byte := natBytes 1 c.sides ++ natBytes 1 c.group ++ natBytes 1 c.terminal

/-- The bytes of a stop record. -/
def writeStop (r : StopFields) : List Byte :=
  natBytes 1 r.index ++ natBytes 4 r.pos ++ writeStopCar r.carA ++ writeStopCar r.carB

/-- A marker record, 6 bytes. -/
def readMarker (p : List Byte) : MarkerFields := { id := fieldAt p 0 1, pos := fieldAt p 1 4, car := fieldAt p 5 1 }

/-- The bytes of a marker record. -/
def writeMarker (r : MarkerFields) : List Byte := natBytes 1 r.id ++ natBytes 4 r.pos ++ natBytes 1 r.car

/-- A gate record, 2 bytes. -/
def readGate (p : List Byte) : GateFields := { address := fieldAt p 0 1, group := fieldAt p 1 1 }

/-- The bytes of a gate record. -/
def writeGate (r : GateFields) : List Byte := natBytes 1 r.address ++ natBytes 1 r.group

/-- A pass entry, 14 bytes (R198). -/
def readPass (p : List Byte) : PassFields :=
  { id := fieldAt p 0 4, kind := fieldAt p 4 1, state := fieldAt p 5 1, ridesPresent := fieldAt p 6 1,
    rides := fieldAt p 7 1, fromPresent := fieldAt p 8 1, validFrom := fieldAt p 9 2, toPresent := fieldAt p 11 1,
    validTo := fieldAt p 12 2 }

/-- The bytes of a pass entry. -/
def writePass (r : PassFields) : List Byte :=
  natBytes 4 r.id ++ natBytes 1 r.kind ++ natBytes 1 r.state ++ natBytes 1 r.ridesPresent ++ natBytes 1 r.rides
    ++ natBytes 1 r.fromPresent ++ natBytes 2 r.validFrom ++ natBytes 1 r.toPresent ++ natBytes 2 r.validTo

/-- The 47 fields of CONFIGURE_LINE, 95 bytes (R198). -/
def readLine (p : List Byte) : LineFields :=
  { lineLength := fieldAt p 0 4, vLineMax := fieldAt p 4 2, vReduced := fieldAt p 6 2, vCreep := fieldAt p 8 2,
    dCreep := fieldAt p 10 2, berthTol := fieldAt p 12 2, platWindow := fieldAt p 14 2, aAcc := fieldAt p 16 2,
    aDec := fieldAt p 18 2, aSs := fieldAt p 20 2, aEb := fieldAt p 22 2, aFloor := fieldAt p 24 2, tR := fieldAt p 26 2,
    overrun := fieldAt p 28 2, u0 := fieldAt p 30 2, uPm := fieldAt p 32 2, uMax := fieldAt p 34 2, mEq := fieldAt p 36 4,
    mP := fieldAt p 40 2, capacity := fieldAt p 42 2, guard := fieldAt p 44 2, mSPm := fieldAt p 46 2,
    mEPm := fieldAt p 48 2, mSAbs := fieldAt p 50 2, mEAbs := fieldAt p 52 2, vRail := fieldAt p 54 2,
    aCheck := fieldAt p 56 2, tCheck := fieldAt p 58 2, vStill := fieldAt p 60 2, tStill := fieldAt p 62 2,
    tSbResp := fieldAt p 64 2, tEbResp := fieldAt p 66 2, scaleP := fieldAt p 68 2, scaleC := fieldAt p 70 2,
    tEnc := fieldAt p 72 2, wQuiet := fieldAt p 74 2, wCorr := fieldAt p 76 2, dwell := fieldAt p 78 2,
    tPass := fieldAt p 80 2, tClose := fieldAt p 82 2, passback := fieldAt p 84 2, tSup := fieldAt p 86 2,
    tWarm := fieldAt p 88 2, tTest := fieldAt p 90 2, alarmAction := fieldAt p 92 1, autoClose := fieldAt p 93 1,
    queryEnable := fieldAt p 94 1 }

/-- The 2-byte fields of CONFIGURE_LINE between L and M_eq. -/
def firstWords (f : LineFields) : List Nat :=
  [f.vLineMax, f.vReduced, f.vCreep, f.dCreep, f.berthTol, f.platWindow, f.aAcc, f.aDec, f.aSs, f.aEb, f.aFloor, f.tR,
   f.overrun, f.u0, f.uPm, f.uMax]

/-- The 2-byte fields of CONFIGURE_LINE after M_eq. -/
def lastWords (f : LineFields) : List Nat :=
  [f.mP, f.capacity, f.guard, f.mSPm, f.mEPm, f.mSAbs, f.mEAbs, f.vRail, f.aCheck, f.tCheck, f.vStill, f.tStill,
   f.tSbResp, f.tEbResp, f.scaleP, f.scaleC, f.tEnc, f.wQuiet, f.wCorr, f.dwell, f.tPass, f.tClose, f.passback, f.tSup,
   f.tWarm, f.tTest]

/-- The bytes of CONFIGURE_LINE's payload. -/
def writeLine (f : LineFields) : List Byte :=
  natBytes 4 f.lineLength ++ (firstWords f).flatMap (natBytes 2) ++ natBytes 4 f.mEq ++ (lastWords f).flatMap (natBytes 2)
    ++ natBytes 1 f.alarmAction ++ natBytes 1 f.autoClose ++ natBytes 1 f.queryEnable

/-! ## Requests (R186, R198) -/

/-- A payload of fixed length, read; none where its length does not fit (R186). -/
def fixedLength (n : Nat) (i : Instr) (p : List Byte) : Option Instr := if p.length = n then some i else none

/-- The request kind of a kind byte (section 11.1); none for every other kind. -/
def reqKindOf? (b : Byte) : Option ReqKind :=
  [.configureLine, .loadSegments, .loadStops, .loadMarkers, .positionRead, .planSet, .planAppend, .planClear, .depart, .stop,
   .haulageRead, .tsrAdd, .tsrRemove, .envelopeRead, .tripReset, .brakeTest, .brakeRead, .alarmClear, .alarmRouteSet,
   .alarmRouteClear, .carRead, .doorRelease, .evacRelease, .doorClose, .doorRead, .passInsert, .passDelete, .passBlock,
   .passUnblock, .passRead, .setDay, .loadGates, .boardingExtend, .boardingClose, .ticketAnswer, .gateAccess, .boardingRead,
   .setMode, .supervise, .healthSet, .healthRead, .modeRead, .restart, .reportMaskSet, .reportMaskClear,
   .linkRead].find? (fun (k : ReqKind) => k.code == b)

/-- The request that a payload of a kind spells; none where its length does not fit the kind (R186, R198). -/
def requestOf (k : ReqKind) (tag : Byte) (p : List Byte) : Option Instr :=
  let f := fieldAt p
  match k with
  | .configureLine => fixedLength 95 (.configureLine tag (readLine p)) p
  | .loadSegments => (countedList readSegment 7 p).map (.loadSegments tag)
  | .loadStops => (countedList readStop 11 p).map (.loadStops tag)
  | .loadMarkers => (countedList readMarker 6 p).map (.loadMarkers tag)
  | .positionRead => fixedLength 0 (.positionRead tag) p
  | .planSet => (countedList beNat 1 p).map (.planSet tag)
  | .planAppend => fixedLength 1 (.planAppend tag (f 0 1)) p
  | .planClear => fixedLength 0 (.planClear tag) p
  | .depart => fixedLength 0 (.depart tag) p
  | .stop => fixedLength 0 (.stop tag) p
  | .haulageRead => fixedLength 0 (.haulageRead tag) p
  | .tsrAdd => fixedLength 11 (.tsrAdd tag (f 0 1) (f 1 4) (f 5 4) (f 9 2)) p
  | .tsrRemove => fixedLength 1 (.tsrRemove tag (f 0 1)) p
  | .envelopeRead => fixedLength 0 (.envelopeRead tag) p
  | .tripReset => fixedLength 0 (.tripReset tag) p
  | .brakeTest => fixedLength 1 (.brakeTest tag (f 0 1)) p
  | .brakeRead => fixedLength 0 (.brakeRead tag) p
  | .alarmClear => fixedLength 1 (.alarmClear tag (f 0 1)) p
  | .alarmRouteSet => fixedLength 1 (.alarmRouteSet tag (f 0 1)) p
  | .alarmRouteClear => fixedLength 1 (.alarmRouteClear tag (f 0 1)) p
  | .carRead => fixedLength 0 (.carRead tag) p
  | .doorRelease => fixedLength 2 (.doorRelease tag (f 0 1) (f 1 1)) p
  | .evacRelease => fixedLength 2 (.evacRelease tag (f 0 1) (f 1 1)) p
  | .doorClose => fixedLength 2 (.doorClose tag (f 0 1) (f 1 1)) p
  | .doorRead => fixedLength 0 (.doorRead tag) p
  | .passInsert => (countedList readPass 14 p).map (.passInsert tag)
  | .passDelete => (countedList beNat 4 p).map (.passDelete tag)
  | .passBlock => (countedList beNat 4 p).map (.passBlock tag)
  | .passUnblock => (countedList beNat 4 p).map (.passUnblock tag)
  | .passRead => fixedLength 4 (.passRead tag (f 0 4)) p
  | .setDay => fixedLength 2 (.setDay tag (f 0 2)) p
  | .loadGates => (countedList readGate 2 p).map (.loadGates tag)
  | .boardingExtend => fixedLength 3 (.boardingExtend tag (f 0 1) (f 1 2)) p
  | .boardingClose => fixedLength 1 (.boardingClose tag (f 0 1)) p
  | .ticketAnswer => fixedLength 18 (.ticketAnswer tag (f 0 1) (f 1 1) (f 2 1) (f 3 1) (readPass (p.drop 4))) p
  | .gateAccess => fixedLength 4 (.gateAccess tag (f 0 1) (f 1 1) (f 2 1) (f 3 1)) p
  | .boardingRead => fixedLength 0 (.boardingRead tag) p
  | .setMode => fixedLength 3 (.setMode tag (f 0 1) (f 1 1) (f 2 1)) p
  | .supervise => fixedLength 1 (.supervise tag (f 0 1)) p
  | .healthSet => fixedLength 4 (.healthSet tag (f 0 1) (f 1 2) (f 3 1)) p
  | .healthRead => fixedLength 0 (.healthRead tag) p
  | .modeRead => fixedLength 0 (.modeRead tag) p
  | .restart => fixedLength 0 (.restart tag) p
  | .reportMaskSet => fixedLength 2 (.reportMaskSet tag (f 0 2)) p
  | .reportMaskClear => fixedLength 2 (.reportMaskClear tag (f 0 2)) p
  | .linkRead => fixedLength 0 (.linkRead tag) p

/-- A request as it stands on the wire: kind, tag and payload (R197, R198). -/
structure WireRequest where
  kind : ReqKind
  tag : Byte
  payload : List Byte
  deriving DecidableEq, Repr

/-- The wire form of a request; none for the events of the field ports and timers. -/
def wireOf : Instr → Option WireRequest
  | .configureLine tag f => some ⟨.configureLine, tag, writeLine f⟩
  | .loadSegments tag l => some ⟨.loadSegments, tag, writeList writeSegment l⟩
  | .loadStops tag l => some ⟨.loadStops, tag, writeList writeStop l⟩
  | .loadMarkers tag l => some ⟨.loadMarkers, tag, writeList writeMarker l⟩
  | .positionRead tag => some ⟨.positionRead, tag, []⟩
  | .planSet tag l => some ⟨.planSet, tag, writeList (natBytes 1) l⟩
  | .planAppend tag v => some ⟨.planAppend, tag, natBytes 1 v⟩
  | .planClear tag => some ⟨.planClear, tag, []⟩
  | .depart tag => some ⟨.depart, tag, []⟩
  | .stop tag => some ⟨.stop, tag, []⟩
  | .haulageRead tag => some ⟨.haulageRead, tag, []⟩
  | .tsrAdd tag id start stop speed =>
    some ⟨.tsrAdd, tag, natBytes 1 id ++ natBytes 4 start ++ natBytes 4 stop ++ natBytes 2 speed⟩
  | .tsrRemove tag id => some ⟨.tsrRemove, tag, natBytes 1 id⟩
  | .envelopeRead tag => some ⟨.envelopeRead, tag, []⟩
  | .tripReset tag => some ⟨.tripReset, tag, []⟩
  | .brakeTest tag b => some ⟨.brakeTest, tag, natBytes 1 b⟩
  | .brakeRead tag => some ⟨.brakeRead, tag, []⟩
  | .alarmClear tag c => some ⟨.alarmClear, tag, natBytes 1 c⟩
  | .alarmRouteSet tag d => some ⟨.alarmRouteSet, tag, natBytes 1 d⟩
  | .alarmRouteClear tag d => some ⟨.alarmRouteClear, tag, natBytes 1 d⟩
  | .carRead tag => some ⟨.carRead, tag, []⟩
  | .doorRelease tag c d => some ⟨.doorRelease, tag, natBytes 1 c ++ natBytes 1 d⟩
  | .evacRelease tag c d => some ⟨.evacRelease, tag, natBytes 1 c ++ natBytes 1 d⟩
  | .doorClose tag c d => some ⟨.doorClose, tag, natBytes 1 c ++ natBytes 1 d⟩
  | .doorRead tag => some ⟨.doorRead, tag, []⟩
  | .passInsert tag l => some ⟨.passInsert, tag, writeList writePass l⟩
  | .passDelete tag l => some ⟨.passDelete, tag, writeList (natBytes 4) l⟩
  | .passBlock tag l => some ⟨.passBlock, tag, writeList (natBytes 4) l⟩
  | .passUnblock tag l => some ⟨.passUnblock, tag, writeList (natBytes 4) l⟩
  | .passRead tag id => some ⟨.passRead, tag, natBytes 4 id⟩
  | .setDay tag d => some ⟨.setDay, tag, natBytes 2 d⟩
  | .loadGates tag l => some ⟨.loadGates, tag, writeList writeGate l⟩
  | .boardingExtend tag g sec => some ⟨.boardingExtend, tag, natBytes 1 g ++ natBytes 2 sec⟩
  | .boardingClose tag g => some ⟨.boardingClose, tag, natBytes 1 g⟩
  | .ticketAnswer tag g q v present e =>
    some ⟨.ticketAnswer, tag, natBytes 1 g ++ natBytes 1 q ++ natBytes 1 v ++ natBytes 1 present ++ writePass e⟩
  | .gateAccess tag slot g c arg =>
    some ⟨.gateAccess, tag, natBytes 1 slot ++ natBytes 1 g ++ natBytes 1 c ++ natBytes 1 arg⟩
  | .boardingRead tag => some ⟨.boardingRead, tag, []⟩
  | .setMode tag m a b => some ⟨.setMode, tag, natBytes 1 m ++ natBytes 1 a ++ natBytes 1 b⟩
  | .supervise tag c => some ⟨.supervise, tag, natBytes 1 c⟩
  | .healthSet tag c n e => some ⟨.healthSet, tag, natBytes 1 c ++ natBytes 2 n ++ natBytes 1 e⟩
  | .healthRead tag => some ⟨.healthRead, tag, []⟩
  | .modeRead tag => some ⟨.modeRead, tag, []⟩
  | .restart tag => some ⟨.restart, tag, []⟩
  | .reportMaskSet tag c => some ⟨.reportMaskSet, tag, natBytes 2 c⟩
  | .reportMaskClear tag c => some ⟨.reportMaskClear, tag, natBytes 2 c⟩
  | .linkRead tag => some ⟨.linkRead, tag, []⟩
  | .powerOn | .resetLine | .resetLineAssert | .encoderCount _ _ _ | .positionSample _ _ _ _ | .driveReferenceUpdate _ _
  | .brakeContactChange _ _ _ | .brakeResponseTimeout _ | .decelerationCheckTimeout | .brakeTestTimerExpiry
  | .carStatusFrame _ _ | .carCommandTimer _ | .carStaleTimeout _ | .carLostTimeout _ | .acknowledgementTimeout _ _
  | .closeTimeout _ _ | .retryTimerExpiry _ _ | .lineClockTick | .gateReply _ | .gateReplyTimeout | .dwellExpiry _
  | .queryTimeout _ | .passageDeadline _ | .warmingTimeout | .supervisionExpiry | .skippedByte _ | .frameGapTimeout
  | .badLengthDiscard _ | .supervisoryFrame _ _ _ _ | .transmitEnd => none

/-- The bytes over which a supervisory frame's check is computed: length, kind, tag and payload (R184). -/
def checkedBytes (kind tag : Byte) (payload : List Byte) : List Byte :=
  BitVec.ofNat 8 payload.length :: kind :: tag :: payload

/-- The check of a supervisory frame (R184). -/
def frameCheck (kind tag : Byte) (payload : List Byte) : Check := crc16 (checkedBytes kind tag payload)

/-- A whole supervisory frame: sync, length, kind, tag, payload and check (R184, R197). -/
def frameBytes (kind tag : Byte) (payload : List Byte) : List Byte :=
  Config.syncByte :: (checkedBytes kind tag payload ++ checkBytes (frameCheck kind tag payload))

/-! ## The car status frame (R199) -/

/-- A leaf state code; above 2 it is read as OPEN (R199). -/
def leafOf : Nat → Leaf
  | 1 => .closed
  | 2 => .locked
  | _ => .opened

/-- A car's id byte. -/
def carId : Car → Byte
  | .a => 0
  | .b => 1

/-- The status of a burst on a car's link; none where it is discarded: length, first byte, check or car id (R91, R199). -/
def statusOf? (link : Car) (l : List Byte) : Option CarStatus :=
  match l with
  | [b0, b1, b2, b3, b4, b5, b6, b7, b8, b9, b10, b11] =>
    if b0 = 0x6B ∧ b1 = carId link ∧ checkBytes (crc16 [b1, b2, b3, b4, b5, b6, b7, b8, b9]) = [b10, b11] then
      some { seq := b2.toNat,
             doors := ⟨{ leaf := leafOf b3.toNat, ack := b5.getLsbD 0, obstruction := b5.getLsbD 2 },
                       { leaf := leafOf b4.toNat, ack := b5.getLsbD 1, obstruction := b5.getLsbD 3 }⟩,
             alarm := b5.getLsbD 4, crewKey := b5.getLsbD 5, rail := b5.getLsbD 6,
             load := if b5.getLsbD 7 then some (beNat [b6, b7]) else none,
             marker := if 1 ≤ b8.toNat ∧ b8.toNat ≤ 16 then some { id := b8.toNat, passage := b9.toNat % 16 } else none }
    else none
  | _ => none

/-! ## The gate reply (R200) -/

/-- The content of a gate reply's bytes 1 to 5 (R146, R200). -/
def gateMsgOf (code b2 b3 b4 b5 : Byte) : GateMsg :=
  match code.toNat with
  | 1 => .presented (beNat [b2, b3, b4, b5])
  | 2 => if b2 = 0 then .idle else .passed (min 12 b2.toNat)
  | 3 => .fault b2.toNat
  | 4 => .access (b2 = 0) (if b3 = 0 then none else some (beNat [b4, b5]))
  | _ => .idle

/-- The message of a good reply from a gate; none where the bytes are no good reply (R144, R200). -/
def gateReplyOf? (address : Nat) (l : List Byte) : Option GateMsg :=
  match l with
  | [b0, b1, b2, b3, b4, b5, b6, b7] =>
    if b0.toNat = address ∧ checkBytes (crc16 [b0, b1, b2, b3, b4, b5]) = [b6, b7] then some (gateMsgOf b1 b2 b3 b4 b5)
    else none
  | _ => none

end Sys2Proof.Machine
end

