-- ==== Sys2Proof/Machine/Port.lean ====
section
/-! DEFINITION. The Supervisory Link Port's handling of requests (sections 10.1 and 10.2): places of the receive buffer, the
overload list, and the reply made by the owner. -/

namespace Sys2Proof.Machine

/-- An owner's handling of a request, taken whole (R187): the state after it, and the answer. -/
abbrev Handler := State → State × Answer

/-- A refusal with no detail. -/
def refuse (r : Reason) : Answer := .refused r .empty

/-- A refusal that names the field at an offset (R197). -/
def badField (offset : Nat) : Answer := .refused .badField (.field offset)

/-- Accept with data and no change of state. -/
def accept (d : ReplyData) : Answer := .accepted d

/-- Places of the receive buffer that are held: waiting replies and frames held unhandled (R187, R189). -/
def Link.places (l : Link) : Nat := (l.waiting.filter (fun w => !w.overload)).length + l.unhandled.length

/-- Refusals in the overload list (R188). -/
def Link.overloads (l : Link) : Nat := (l.waiting.filter Waiting.overload).length

/-- Change the totals. -/
def Link.count (l : Link) (f : LinkTotals → LinkTotals) : Link := { l with totals := f l.totals }

/-- A frame that cannot be answered (R188, R189). -/
def Link.drop (l : Link) : Link := l.count (fun t => { t with unanswered := satCount t.unanswered 1 })

/-- A reply is made and waits for the transmitter (R187, R188). -/
def Link.answer (l : Link) (overload : Bool) (r : Reply) : Link :=
  Link.transmit { l with waiting := l.waiting ++ [{ overload := overload, reply := r }] }

/-- A frame that meets a full receive buffer (R188); the tag and the kind that R188 names are those every reply carries. -/
def Link.refuseOverload (l : Link) (tag kind : Byte) : Link :=
  if l.overloads < Config.overloadPlaces then
    (l.count (fun t => { t with overloads := satCount t.overloads 1 })).answer true
      { tag := tag, kind := kind, answer := refuse .overload }
  else l.drop

/-- A frame received after an accepted RESTART (R189). -/
def Link.holdFrame (l : Link) (tag kind : Byte) : Link :=
  if l.places < Config.bufferPlaces then { l with unhandled := l.unhandled ++ [{ tag := tag, kind := kind }] } else l.drop

/-- The receiver has returned to HUNTING and one more frame has been received (R184, R185). -/
def Link.received (l : Link) : Link :=
  { l with receiver := .hunting, gap := none, totals := { l.totals with received := satCount l.totals.received 1 } }

/-- A received frame takes a place, is handled and has its reply made; or meets a full buffer, or the hold after an accepted
RESTART (R187, R188, R189). -/
def receive (tag kind : Byte) (h : Handler) (s : State) : State :=
  let s := { s with slp := s.slp.received }
  if s.slp.restarting then { s with slp := s.slp.holdFrame tag kind }
  else if s.slp.places < Config.bufferPlaces then
    let (s, a) := h s
    { s with slp := s.slp.answer false { tag := tag, kind := kind, answer := a } }
  else { s with slp := s.slp.refuseOverload tag kind }

/-- The meaning of a request command: its frame arrives and is received. -/
def request (tag : Byte) (kind : ReqKind) (h : Handler) (s : State) : Host.Outcome State Fault Refusal :=
  whileRunning (receive tag kind.code h) s

end Sys2Proof.Machine
end

