-- ==== Sys2Proof/Machine/Reset.lean ====
section
/-! DEFINITION. The three resets (R181, R182) and the reset values each block takes, with what a RESTART keeps. -/

namespace Sys2Proof.Machine

/-- A brake record at a reset whose contacts give a reading: APPLIED at once where it reads applied, else SETTING with its
timer from the reset where the parameters are loaded (R89). -/
def BrakeRec.atReset (x : Reading) (bound : Timer) : BrakeRec :=
  if x == .applied then { cmd := .apply, state := .applied, timer := none }
  else { cmd := .apply, state := .setting, timer := bound }

/-- The Brake Sequencer at a reset: the contacts are inputs and stay as they are (R89). -/
def Brakes.atReset (contacts : PerBrake Contacts) (line : Option LineFields) : Brakes :=
  { Brakes.reset with
    contacts := contacts
    recs := ⟨.atReset contacts.sb.reading (line.map LineFields.tSbResp),
             .atReset contacts.eb.reading (line.map LineFields.tEbResp)⟩ }

/-- The Boarding Tally of a car at a reset: aboard_max is C at once where C is kept (R164). -/
def Tally.atReset (line : Option LineFields) : Tally :=
  { Tally.reset with aboardMax := (line.map LineFields.capacity).getD 0 }

/-- The START_UP report of the state as it stands (R181). -/
def startUpReport (s : State) : Report :=
  .startUp { cause := s.lmu.cause, loaded := s.loaded, segments := s.segs.length, stops := s.stops.length,
             markers := s.markers.length, gates := s.glm.gates.length, places := s.ptb.entries.length, day := s.ptb.day,
             expected := s.lmu.expected, health := s.lmu.health }

/-- Every block at its reset values with the configuration cleared (R9, R21, R46, R68, R89, R103, R125, R141, R142, R164, R183,
R196). The queue of waiting commands and the brake contacts stand outside the device and stay. -/
def blankState (cause : ResetCause) (s : State) : State :=
  { ptr := .reset, hac := .reset, osp := .reset, bsq := .atReset s.bsq.contacts none, clu := .reset, dru := .reset,
    ptb := .reset, glm := .reset, tally := ⟨.reset, .reset⟩, lmu := { LineMode.reset with cause := cause }, slp := .reset,
    line := none, segs := [], stops := [], markers := [], inReset := none, overrun := s.overrun, pending := s.pending }

/-- Every block at its reset values with what a RESTART keeps: the line parameters, the three track tables, the gate list, the
Pass Table and the health counters (R182). -/
def keptState (s : State) : State :=
  { blankState .restart s with
    ptr := { Tracker.reset with u := s.param LineFields.u0 }
    bsq := .atReset s.bsq.contacts s.line
    ptb := s.ptb
    glm := { GateLoop.reset with gates := s.glm.gates.map (fun g => .fresh g.address g.group) }
    tally := ⟨.atReset s.line, .atReset s.line⟩
    lmu := { LineMode.reset with cause := .restart, health := s.lmu.health }
    line := s.line, segs := s.segs, stops := s.stops, markers := s.markers }

/-- A reset with its cause: the reset values, the START_UP report first of all reports, and the gate loop's first poll
(R144, R181). -/
def resetNow (cause : ResetCause) (s : State) : State :=
  let s := match cause with
    | .powerOn | .resetLine => blankState cause s
    | .restart => keptState s
  pollNext (post (startUpReport s) s)

/-- The external reset line is held active: every block keeps its reset values (R181). -/
def holdReset (cause : ResetCause) (s : State) : State := { blankState cause s with inReset := some cause }

end Sys2Proof.Machine
end

