-- ==== Sys2Proof/Machine/BrakeFamily.lean ====
section
/-! DEFINITION. The commands of the Brake Sequencer (chapter 4): contacts and timers, TRIP_RESET, BRAKE_TEST and BRAKE_READ. -/

namespace Sys2Proof.Machine

/-! ## Events -/

/-- BRAKE_CONTACT_CHANGE (R69, R70). While the external reset line holds the device only the inputs follow (R181). -/
def execBrakeContactChange (b : BrakeId) (applied released : Bool) (s : State) : Host.Outcome State Fault Refusal :=
  let c : Contacts := { applied := applied, released := released }
  match s.inReset with
  | some cause =>
    .next (holdReset cause { s with
      overrun := false, bsq := { s.bsq with contacts := s.bsq.contacts.set b c } })
  | none => whileRunning (contactsChanged cascade b c) s

/-- BRAKE_RESPONSE_TIMEOUT (R70): the timer expires where it runs. -/
def execBrakeResponseTimeout (b : BrakeId) (s : State) : Host.Outcome State Fault Refusal :=
  whileRunning (fun s => if (s.brake b).timer.isSome then responseExpired cascade b s else s) s

/-- DECELERATION_CHECK_TIMEOUT (R77). -/
def execDecelerationCheckTimeout (s : State) : Host.Outcome State Fault Refusal := whileRunning (checkExpired cascade) s

/-- BRAKE_TEST_TIMER_EXPIRY (R85). -/
def execBrakeTestTimerExpiry (s : State) : Host.Outcome State Fault Refusal := whileRunning (testExpired cascade) s

/-! ## TRIP_RESET (R81, R82) -/

/-- A record in FAULT is set to APPLIED and reported (R82). -/
def clearFault (b : BrakeId) (s : State) : State :=
  if (s.brake b).state == .fault then
    let s := s.setBrake b { s.brake b with state := .applied, timer := none }
    post (.brake { brakeReport s .faultCleared with brake := some b }) s
  else s

/-- An accepted TRIP_RESET (R82). -/
def tripReset (k : Hand) (s : State) : State :=
  let cause := s.bsq.latch
  let before := s.brakeStates
  let s := clearFault .eb (clearFault .sb s)
  let s := { s with bsq := { s.bsq with latch := none, railTrip := false } }
  let s := k .settle (handOverBrakes k before s)
  let s := k (.command .eb .release) s
  let s := k (.changeMode (.plain .maintenance) .tripReset none) s
  post (.brake { brakeReport s .tripReset with cause := cause }) s

/-- The handling of TRIP_RESET (R81, R82). -/
def handleTripReset : Handler := fun s =>
  match s.tripReasons with
  | [] => (tripReset cascade s, accept .none)
  | l => (s, .refused .inhibited (.tripReasons l))

/-- TRIP_RESET (R81). -/
def execTripReset (tag : Byte) (s : State) : Host.Outcome State Fault Refusal := request tag .tripReset handleTripReset s

/-! ## BRAKE_TEST (R83, R84) -/

/-- A test of a brake starts (R83, R84). TEST_STARTED is posted before EB is commanded APPLY, so its report shows EB as it stood
at the start: R83 puts the start and its report first and R84 the command after (DEDUCED, assumption log 51). -/
def startTest (k : Hand) (b : BrakeId) (s : State) : State :=
  let t : BrakeTest := { brake := b, phase := .preparing, ref := 0, move := 0, timer := none }
  let s := setTest (some t) false s
  let s := post (.brake { brakeReport s .testStarted with brake := some b }) s
  match b with
  | .sb => enterTorque t s
  | .eb => k (.command .eb .apply) s

/-- The handling of BRAKE_TEST (R83). Its field is examined before BUSY, so that an undefined brake code is BAD_FIELD while a test
is running too: neither R83 nor R197 gives an order (DESIGN CHOICE, assumption log 57). -/
def handleBrakeTest (brake : Nat) : Handler := fun s =>
  match brakeOf? brake with
  | none => (s, badField 0)
  | some b =>
    if s.bsq.test.isSome then (s, refuse .busy)
    else
      match s.testReasons b with
      | [] => (startTest cascade b s, accept .none)
      | l => (s, .refused .inhibited (.testReasons l))

/-- BRAKE_TEST (R83). -/
def execBrakeTest (tag : Byte) (brake : Nat) (s : State) : Host.Outcome State Fault Refusal :=
  request tag .brakeTest (handleBrakeTest brake) s

/-! ## BRAKE_READ (R88) -/

/-- The data of BRAKE_READ (R88). -/
def State.brakeData (s : State) : BrakeData :=
  { recs := s.bsq.recs, readings := ⟨s.reading .sb, s.reading .eb⟩, stop := s.bsq.stop, latch := s.bsq.latch,
    railTrip := s.bsq.railTrip, test := s.bsq.test, torqueLine := s.bsq.torqueLine, reasons := s.tripReasons }

/-- The handling of BRAKE_READ (R88). -/
def handleBrakeRead : Handler := fun s => (s, accept (.brakes s.brakeData))

/-- BRAKE_READ (R88). -/
def execBrakeRead (tag : Byte) (s : State) : Host.Outcome State Fault Refusal := request tag .brakeRead handleBrakeRead s

end Sys2Proof.Machine
end

