-- ==== Sys2Proof/Machine/CarFamily.lean ====
section
/-! DEFINITION. The commands of the Car Link Unit (chapter 5): status frames and timers, the alarm requests and CAR_READ. -/

namespace Sys2Proof.Machine

/-! ## Events -/

/-- CAR_STATUS_FRAME (R91, R93, R199). -/
def execCarStatusFrame (link : Car) (bytes : List Byte) (s : State) : Host.Outcome State Fault Refusal :=
  whileRunning (receiveStatus cascade link (statusOf? link bytes)) s

/-- CAR_COMMAND_TIMER (R92): the timer expires where it runs. -/
def execCarCommandTimer (link : Car) (s : State) : Host.Outcome State Fault Refusal :=
  whileRunning (fun s => if (s.car link).timer.isSome then sendCommand link s else s) s

/-- CAR_STALE_TIMEOUT (R94). -/
def execCarStaleTimeout (c : Car) (s : State) : Host.Outcome State Fault Refusal :=
  whileRunning (fun s => if (s.car c).freshness == .fresh then cascade (.freshness c .stale) s else s) s

/-- CAR_LOST_TIMEOUT (R94). -/
def execCarLostTimeout (c : Car) (s : State) : Host.Outcome State Fault Refusal :=
  whileRunning (fun s => if (s.car c).freshness == .stale then cascade (.freshness c .lost) s else s) s

/-! ## The passenger alarm (R99, R100) -/

/-- The latch of a car is cleared where it was set (R99, R100). -/
def clearAlarm (c : Car) (s : State) : State :=
  if (s.car c).alarm then
    let s := s.setCar c { s.car c with alarm := false }
    reportAlarm (alarmReportOf s c) s
  else s

/-- The handling of ALARM_CLEAR (R99). -/
def handleAlarmClear (car : Nat) : Handler := fun s =>
  match carOf? car with
  | none => (s, badField 0)
  | some c =>
    match (s.car c).status with
    | none => (s, .refused .inhibited (.alarm false))
    | some x =>
      if x.alarm then (s, .refused .inhibited (.alarm true))
      else (clearAlarm c s, accept (.alarmCleared (s.car c).alarm))

/-- ALARM_CLEAR (R99). -/
def execAlarmClear (tag : Byte) (car : Nat) (s : State) : Host.Outcome State Fault Refusal :=
  request tag .alarmClear (handleAlarmClear car) s

/-- The destinations that a mask names (R197). -/
def routeOf (m : Nat) : AlarmRoute := { report := m.testBit 0, lower := m.testBit 1, upper := m.testBit 2 }

/-- A route with destinations added (R100). -/
def AlarmRoute.add (r d : AlarmRoute) : AlarmRoute :=
  { report := r.report || d.report, lower := r.lower || d.lower, upper := r.upper || d.upper }

/-- No destination is in the route. -/
def AlarmRoute.isEmpty (r : AlarmRoute) : Bool := !r.report && !r.lower && !r.upper

/-- The first destination of a route, alone. -/
def AlarmRoute.first (r : AlarmRoute) : AlarmRoute :=
  { report := r.report, lower := !r.report && r.lower, upper := !r.report && !r.lower && r.upper }

/-- A route with destinations removed, never leaving it empty (R100). -/
def AlarmRoute.remove (r d : AlarmRoute) : AlarmRoute :=
  let rest : AlarmRoute :=
    { report := r.report && !d.report, lower := r.lower && !d.lower, upper := r.upper && !d.upper }
  if rest.isEmpty then r.first else rest

/-- Replace the alarm route. -/
def setRoute (r : AlarmRoute) (s : State) : State := { s with clu := { s.clu with route := r } }

/-- The handling of ALARM_ROUTE_SET (R100). -/
def handleAlarmRouteSet (dests : Nat) : Handler := fun s =>
  let r := s.clu.route.add (routeOf dests)
  (setRoute r s, accept (.route r))

/-- ALARM_ROUTE_SET (R100). -/
def execAlarmRouteSet (tag : Byte) (dests : Nat) (s : State) : Host.Outcome State Fault Refusal :=
  request tag .alarmRouteSet (handleAlarmRouteSet dests) s

/-- The handling of ALARM_ROUTE_CLEAR (R100). -/
def handleAlarmRouteClear (dests : Nat) : Handler := fun s =>
  let r := s.clu.route.remove (routeOf dests)
  (setRoute r s, accept (.route r))

/-- ALARM_ROUTE_CLEAR (R100). -/
def execAlarmRouteClear (tag : Byte) (dests : Nat) (s : State) : Host.Outcome State Fault Refusal :=
  request tag .alarmRouteClear (handleAlarmRouteClear dests) s

/-! ## CAR_READ (R102) -/

/-- The data of CAR_READ (R102). -/
def State.carData (s : State) : CarData :=
  { recs := s.clu.recs, route := s.clu.route, lowerLine := s.alarmLines.1, upperLine := s.alarmLines.2 }

/-- The handling of CAR_READ (R102). -/
def handleCarRead : Handler := fun s => (s, accept (.cars s.carData))

/-- CAR_READ (R102). -/
def execCarRead (tag : Byte) (s : State) : Host.Outcome State Fault Refusal := request tag .carRead handleCarRead s

end Sys2Proof.Machine
end

