-- ==== Sys2Proof/Machine/DoorFamily.lean ====
section
/-! DEFINITION. The commands of the Door Release Unit (chapter 6): its three timers, the release and close requests and
DOOR_READ. -/

namespace Sys2Proof.Machine

/-! ## Timers -/

/-- ACKNOWLEDGEMENT_TIMEOUT (R112): the timer expires where it runs. -/
def execAcknowledgementTimeout (c : Car) (d : Side) (s : State) : Host.Outcome State Fault Refusal :=
  whileRunning (fun s => if (s.side c d).ackTimer.isSome then ackExpired cascade c d s else s) s

/-- CLOSE_TIMEOUT (R117): the timer expires where it runs. -/
def execCloseTimeout (c : Car) (d : Side) (s : State) : Host.Outcome State Fault Refusal :=
  whileRunning (fun s => if (s.side c d).closeTimer.isSome then closeExpired cascade c d s else s) s

/-- RETRY_TIMER_EXPIRY (R118): the timer expires where it runs. -/
def execRetryTimerExpiry (c : Car) (d : Side) (s : State) : Host.Outcome State Fault Refusal :=
  whileRunning (fun s => if (s.side c d).retryTimer.isSome then retryExpired cascade c d s else s) s

/-! ## Requests -/

/-- A release request whose reasons are none: a SECURED side is released, a released one left as it is (R110, R111). -/
def releaseAnswer (c : Car) (d : Side) (kind : ReleaseKind) (stop : Option Nat) : Handler := fun s =>
  if (s.side c d).state == .secured then (releaseSide cascade c d kind stop s, accept (.released true))
  else (s, accept (.released false))

/-- A request that carries a car and a side (R110, R111, R116). -/
def withSide (car side : Nat) (f : Car → Side → Handler) : Handler := fun s =>
  match carOf? car, sideOf? side with
  | none, _ => (s, badField 0)
  | some _, none => (s, badField 1)
  | some c, some d => f c d s

/-- The handling of DOOR_RELEASE (R110). -/
def handleDoorRelease (car side : Nat) : Handler :=
  withSide car side (fun c d s =>
    match s.releaseReasons c d with
    | [] => releaseAnswer c d .manual s.hac.berth.stop s
    | l => (s, .refused .inhibited (.releaseReasons l)))

/-- DOOR_RELEASE (R110). -/
def execDoorRelease (tag : Byte) (car side : Nat) (s : State) : Host.Outcome State Fault Refusal :=
  request tag .doorRelease (handleDoorRelease car side) s

/-- The handling of EVAC_RELEASE (R111). -/
def handleEvacRelease (car side : Nat) : Handler :=
  withSide car side (fun c d s =>
    match s.evacReasons c d with
    | [] => releaseAnswer c d .evac none s
    | l => (s, .refused .inhibited (.evacReasons l)))

/-- EVAC_RELEASE (R111). -/
def execEvacRelease (tag : Byte) (car side : Nat) (s : State) : Host.Outcome State Fault Refusal :=
  request tag .evacRelease (handleEvacRelease car side) s

/-- An accepted DOOR_CLOSE that takes the side to CLOSING, with the mark that tells a cleared FAULT (R116). -/
def closeAnswer (c : Car) (d : Side) (mark : Bool) : Handler := fun s =>
  let r := (s.side c d).closing s.closeBound
  let s := cascade (.sideTo c d { r with clearing := mark || r.clearing } .closing (some .closeOrder)) s
  (s, accept (.doorState (s.side c d).state))

/-- DOOR_CLOSE at a side in FAULT (R116). -/
def closeFaulted (c : Car) (d : Side) : Handler := fun s =>
  if !s.isFresh c then (s, .refused .inhibited (.door false))
  else if (s.car c).status.any (fun x => (x.door d).proves) then
    let s := cascade (.sideTo c d (s.side c d).secured .secured (some .faultCleared)) s
    (s, accept (.doorState (s.side c d).state))
  else if s.isHeld then closeAnswer c d true s
  else (s, .refused .inhibited (.door true))

/-- The handling of DOOR_CLOSE (R116). -/
def handleDoorClose (car side : Nat) : Handler :=
  withSide car side (fun c d s =>
    match (s.side c d).state with
    | .secured => (s, accept (.doorState .secured))
    | .closing => (s, accept (.doorState .closing))
    | .releasePending | .released | .opened => closeAnswer c d false s
    | .unproven => if s.isFresh c then closeAnswer c d false s else (s, .refused .inhibited (.door false))
    | .fault => closeFaulted c d s)

/-- DOOR_CLOSE (R116). -/
def execDoorClose (tag : Byte) (car side : Nat) (s : State) : Host.Outcome State Fault Refusal :=
  request tag .doorClose (handleDoorClose car side) s

/-- The handling of DOOR_READ (R124). -/
def handleDoorRead : Handler := fun s => (s, accept (.doors { sides := s.dru.sides, cleared := s.dru.cleared }))

/-- DOOR_READ (R124). -/
def execDoorRead (tag : Byte) (s : State) : Host.Outcome State Fault Refusal := request tag .doorRead handleDoorRead s

end Sys2Proof.Machine
end

