-- ==== Sys2Proof/Machine/EnvelopeFamily.lean ====
section
/-! DEFINITION. The commands of the Overspeed Supervisor (chapter 3): the TSR list and ENVELOPE_READ. -/

namespace Sys2Proof.Machine

/-- Put a TSR entry in its place: rising start, then rising id (R64). -/
def insertTsr (z : Tsr) : List Tsr → List Tsr
  | [] => [z]
  | h :: rest =>
    if z.start < h.start ∨ (z.start = h.start ∧ z.id < h.id) then z :: h :: rest else h :: insertTsr z rest

/-- The list without the entry of an id. -/
def removeTsr (id : Nat) (l : List Tsr) : List Tsr := l.filter (fun z => z.id != id)

/-- The stored speed of a TSR_ADD: clamped to 100 from below and to v_line_max from above (R65). -/
def State.tsrSpeed (s : State) (v : Nat) : Nat := max 100 (min ((s.line.map LineFields.vLineMax).getD 15000) v)

/-- The fields of a TSR_ADD (R65). -/
def tsrChecks (id start stop : Nat) : List FieldCheck :=
  [.range id 1 255 0, .range start 0 Config.maxPosition 1, .range stop (start + 1) Config.maxPosition 5]

/-- Replace the TSR list. -/
def setTsrs (l : List Tsr) (s : State) : State := { s with osp := { s.osp with tsrs := l } }

/-- The handling of TSR_ADD (R65). -/
def handleTsrAdd (id start stop speed : Nat) : Handler := fun s =>
  match firstFault (tsrChecks id start stop) with
  | some o => (s, badField o)
  | none =>
    let z : Tsr := { id := id, start := start, stop := stop, speed := s.tsrSpeed speed }
    let held := s.osp.tsrs.any (fun t => t.id == id)
    let rest := removeTsr id s.osp.tsrs
    if !held && decide (Config.tsrPlaces ≤ s.osp.tsrs.length) then (s, refuse .listFull)
    else (setTsrs (insertTsr z rest) s, accept (.tsrAdded z.speed held (insertTsr z rest).length))

/-- TSR_ADD (R65). -/
def execTsrAdd (tag : Byte) (id start stop speed : Nat) (s : State) : Host.Outcome State Fault Refusal :=
  request tag .tsrAdd (handleTsrAdd id start stop speed) s

/-- The handling of TSR_REMOVE (R66). The reply carries the number of entries held with removed 0 as well (DESIGN CHOICE,
assumption log 64). -/
def handleTsrRemove (id : Nat) : Handler := fun s =>
  if 1 ≤ id ∧ id ≤ 255 then
    let rest := removeTsr id s.osp.tsrs
    (setTsrs rest s, accept (.tsrRemoved (s.osp.tsrs.any (fun t => t.id == id)) rest.length))
  else (s, badField 0)

/-- TSR_REMOVE (R66). -/
def execTsrRemove (tag : Byte) (id : Nat) (s : State) : Host.Outcome State Fault Refusal :=
  request tag .tsrRemove (handleTsrRemove id) s

/-- s as a reply carries it: 0 while the segment table is empty (R50), and without stated content while the table holds
records and L is unknown (assumption log 12). -/
def State.statedSine (s : State) (b : Braking) : Option Nat :=
  if s.line.isSome || s.segs.isEmpty then some b.sine else none

/-- a_penalty as a reply carries it: without stated content while M_eq is unknown, unless the excess or s makes it 0 (R50,
assumption log 12). -/
def State.statedPenalty (s : State) (b : Braking) : Option Nat :=
  if s.line.isSome || s.segs.isEmpty || b.excess == 0 then some b.penalty else none

/-- The values of stages 1 to 3 and the margins with v_perm 0, computed on demand (R47, R67). -/
def State.envelopeOnDemand (s : State) : EnvelopeData :=
  let b := s.brakingOnDemand
  { braking := b, sine := s.statedSine b, penalty := s.statedPenalty b, snapshot := s.osp.snapshot, c := s.line.map (fun p => reactionTerm b.aEff p.tR), vPerm := s.osp.vPerm,
    binding := s.osp.binding, level := s.osp.level, mS := s.line.map (fun p => serviceMargin p 0),
    mE := s.line.map (fun p => emergencyMargin p 0), acc := s.osp.acc, ordered := s.osp.ordered, tsrs := s.osp.tsrs }

/-- The data of ENVELOPE_READ: the latest evaluation's, or computed on demand where no evaluation runs (R67). -/
def State.envelopeData (s : State) : EnvelopeData :=
  match s.osp.last with
  | some e =>
    { braking := e.braking, sine := some e.braking.sine, penalty := some e.braking.penalty, snapshot := s.osp.snapshot, c := some e.c, vPerm := s.osp.vPerm, binding := s.osp.binding,
      level := s.osp.level, mS := some e.mS, mE := some e.mE, acc := s.osp.acc, ordered := s.osp.ordered,
      tsrs := s.osp.tsrs }
  | none => s.envelopeOnDemand

/-- The handling of ENVELOPE_READ (R67). -/
def handleEnvelopeRead : Handler := fun s => (s, accept (.envelope s.envelopeData))

/-- ENVELOPE_READ (R67). -/
def execEnvelopeRead (tag : Byte) (s : State) : Host.Outcome State Fault Refusal :=
  request tag .envelopeRead handleEnvelopeRead s

end Sys2Proof.Machine
end

