-- ==== Sys2Proof/Machine/TrackFamily.lean ====
section
/-! DEFINITION. The commands of the Position Tracker (chapter 1): encoder counts, the position sample, the four loads and
POSITION_READ. -/

namespace Sys2Proof.Machine

/-! ## Events -/

/-- A run of quadrature edges of one sense on a 48-bit count (R10). -/
def countEdges (dir : Dir) (edges : Nat) (n : BitVec 48) : BitVec 48 :=
  match dir with
  | .up => n + BitVec.ofNat 48 edges
  | .down => n - BitVec.ofNat 48 edges

/-- The tracker after edges of one encoder (R10). -/
def Tracker.edges (t : Tracker) (e : EncoderId) (dir : Dir) (edges : Nat) : Tracker :=
  match e with
  | .primary => { t with countP := countEdges dir edges t.countP }
  | .check => { t with countC := countEdges dir edges t.countC }

/-- ENCODER_COUNT (R10). -/
def execEncoderCount (e : EncoderId) (dir : Dir) (edges : Nat) (s : State) : Host.Outcome State Fault Refusal :=
  whileRunning (fun s => { s with ptr := s.ptr.edges e dir edges }) s

/-- POSITION_SAMPLE (R11). -/
def execPositionSample (lower upper otLower otUpper : Bool) (s : State) : Host.Outcome State Fault Refusal :=
  whileRunning (sample cascade { lower := lower, upper := upper, otLower := otLower, otUpper := otUpper }) s

/-! ## CONFIGURE_LINE (R3, R4) -/

/-- The configuration requests are taken in INIT and PARKED alone (R3, R5, R6, R7, R142). -/
def State.configurable (s : State) : Bool := s.lmu.mode == .init || s.lmu.mode == .parked

/-- A CONFIGURE_LINE changes L or a scale (R4). -/
def changesAxis (old new : LineFields) : Bool :=
  old.lineLength != new.lineLength || old.scaleP != new.scaleP || old.scaleC != new.scaleC

/-- The tally of a car when C becomes known or changes (R159). -/
def tallyUnknown (c : Nat) (t : Tally) : Tally := { t with aboardMin := 0, aboardMax := c, unknown := true }

/-- The effect of a new capacity on both cars (R159). -/
def newCapacity (old : Option LineFields) (f : LineFields) (s : State) : State :=
  if old.map LineFields.capacity = some f.capacity then s
  else { s with tally := ⟨tallyUnknown f.capacity s.tally.a, tallyUnknown f.capacity s.tally.b⟩ }

/-- The effect of a CONFIGURE_LINE that changes L or a scale (R4, R29). -/
def axisChanged (s : State) : State :=
  let s := loseValidity cascade .config none none s
  let first := if s.ptr.first == .afterReset then FirstSample.afterReset else .afterReconfigure
  setBerth .offStop { s with ptr := { s.ptr with first := first } }

/-- A door side whose timer was due before the parameters were loaded (R104). -/
def startDoorTimer (c : Car) (d : Side) (s : State) : State :=
  let r := s.side c d
  match r.state with
  | .releasePending => if r.ackTimer.isNone then s.setSide c d { r with ackTimer := s.ackBound } else s
  | .closing => if r.closeTimer.isNone then s.setSide c d { r with closeTimer := s.closeBound } else s
  | .released | .opened =>
    if r.kind.isNone && r.retryTimer.isNone then s.setSide c d { r with retryTimer := s.retryBound } else s
  | .secured | .unproven | .fault => s

/-- The timers that start at the first CONFIGURE_LINE after a POWER_ON or RESET_LINE (R69, R89, R104). -/
def startTimers (s : State) : State :=
  let s := startResponse .eb (startResponse .sb s)
  forEach bothCars (fun c t => forEach bothSides (fun d u => startDoorTimer c d u) t) s

/-- An accepted CONFIGURE_LINE (R4). -/
def configure (f : LineFields) (s : State) : State :=
  let old := s.line
  let s := newCapacity old f { s with line := some f }
  match old with
  | none => startTimers s
  | some p => if changesAxis p f then axisChanged s else s

/-- The handling of CONFIGURE_LINE (R3). -/
def handleConfigureLine (f : LineFields) : Handler := fun s =>
  if s.configurable then
    match firstFault (lineChecks f) with
    | some o => (s, badField o)
    | none => (configure f s, accept .none)
  else (s, refuse .wrongMode)

/-- CONFIGURE_LINE (R3, R4). -/
def execConfigureLine (tag : Byte) (f : LineFields) (s : State) : Host.Outcome State Fault Refusal :=
  request tag .configureLine (handleConfigureLine f) s

/-! ## The track tables (R5 to R7) -/

/-- The handling of LOAD_SEGMENTS (R5). -/
def handleLoadSegments (l : List SegmentFields) : Handler := fun s =>
  if s.configurable then
    match segmentsFault l with
    | some o => (s, badField o)
    | none => ({ s with segs := sortSegments (l.map segmentOf) }, accept .none)
  else (s, refuse .wrongMode)

/-- LOAD_SEGMENTS (R5). -/
def execLoadSegments (tag : Byte) (l : List SegmentFields) (s : State) : Host.Outcome State Fault Refusal :=
  request tag .loadSegments (handleLoadSegments l) s

/-- An accepted LOAD_STOPS: the table, the plan emptied, the mark cleared and the berth record off stop (R6, R29). -/
def storeStops (l : List StopRec) (s : State) : State :=
  setBerth .offStop { s with stops := l, hac := { s.hac with plan := [], legMark := false } }

/-- The handling of LOAD_STOPS (R6). -/
def handleLoadStops (l : List StopFields) : Handler := fun s =>
  if s.configurable then
    match stopsFault l with
    | some o => (s, badField o)
    | none => (storeStops (l.map stopOf) s, accept .none)
  else (s, refuse .wrongMode)

/-- LOAD_STOPS (R6). -/
def execLoadStops (tag : Byte) (l : List StopFields) (s : State) : Host.Outcome State Fault Refusal :=
  request tag .loadStops (handleLoadStops l) s

/-- The handling of LOAD_MARKERS (R7). -/
def handleLoadMarkers (l : List MarkerFields) : Handler := fun s =>
  if s.configurable then
    match markersFault l with
    | some o => (s, badField o)
    | none => ({ s with markers := l.map markerOf }, accept .none)
  else (s, refuse .wrongMode)

/-- LOAD_MARKERS (R7). -/
def execLoadMarkers (tag : Byte) (l : List MarkerFields) (s : State) : Host.Outcome State Fault Refusal :=
  request tag .loadMarkers (handleLoadMarkers l) s

/-! ## POSITION_READ (R23) -/

/-- The data of POSITION_READ (R23). -/
def State.positionData (s : State) : PositionData :=
  { x := s.ptr.x, xc := s.ptr.xc, validity := s.ptr.validity, u := s.ptr.u, sm := s.ptr.sm, vMeas := s.ptr.vMeas,
    standstill := s.ptr.standstill, segA := s.segIndexOf .a, segB := s.segIndexOf .b, lower := s.ptr.lower,
    upper := s.ptr.upper, otLower := s.ptr.otLower, otUpper := s.ptr.otUpper, loaded := s.loaded }

/-- The handling of POSITION_READ (R23). -/
def handlePositionRead : Handler := fun s => (s, accept (.position s.positionData))

/-- POSITION_READ (R23). -/
def execPositionRead (tag : Byte) (s : State) : Host.Outcome State Fault Refusal :=
  request tag .positionRead handlePositionRead s

end Sys2Proof.Machine
end

