-- ==== Sys2Proof/Machine/GateFamily.lean ====
section
/-! DEFINITION. The commands of the Gate Loop Master (chapter 8): gate replies and timers, LOAD_GATES, the boarding requests,
TICKET_ANSWER, GATE_ACCESS and BOARDING_READ. -/

namespace Sys2Proof.Machine

/-! ## Events -/

/-- GATE_REPLY (R144, R146, R200): bytes that are no good reply to an outstanding poll are left to its 8 ms timer
(assumption log 25). -/
def execGateReply (bytes : List Byte) (s : State) : Host.Outcome State Fault Refusal :=
  whileRunning (fun s =>
    match s.glm.poll with
    | none => s
    | some p =>
      match gateReplyOf? p.address bytes with
      | none => s
      | some m => goodReply cascade p m s) s

/-- GATE_REPLY_TIMEOUT (R145). -/
def execGateReplyTimeout (s : State) : Host.Outcome State Fault Refusal :=
  whileRunning (fun s =>
    match s.glm.poll with
    | none => s
    | some p => missedPoll cascade p s) s

/-- DWELL_EXPIRY (R149). -/
def execDwellExpiry (group : Nat) (s : State) : Host.Outcome State Fault Refusal :=
  whileRunning (fun s =>
    match groupOf? group with
    | none => s
    | some g => if (s.window g).dwell.isSome then cascade (.sealWindow g .dwell) s else s) s

/-- QUERY_TIMEOUT (R155). -/
def execQueryTimeout (gate : Nat) (s : State) : Host.Outcome State Fault Refusal :=
  whileRunning (fun s =>
    match s.gate? gate with
    | none => s
    | some g => if g.queryTimer.isSome then queryExpired cascade gate s else s) s

/-- PASSAGE_DEADLINE (R157). -/
def execPassageDeadline (gate : Nat) (s : State) : Host.Outcome State Fault Refusal :=
  whileRunning (fun s =>
    match s.gate? gate with
    | none => s
    | some g => if g.admission.any (fun a => a.deadline.isSome) then abandonAdmission cascade gate s else s) s

/-! ## LOAD_GATES (R142) -/

/-- Put a gate in its place by address. -/
def insertGate (g : GateRec) : List GateRec → List GateRec
  | [] => [g]
  | h :: rest => if g.address < h.address then g :: h :: rest else h :: insertGate g rest

/-- Fresh gate records in ascending address order. -/
def freshGates (l : List GateFields) : List GateRec :=
  l.foldl (fun acc r =>
    match groupOf? r.group with
    | some g => insertGate (.fresh r.address g) acc
    | none => acc) []

/-- Access requests for gates that are no longer listed complete with GATE_OFFLINE (R142), the earlier taken first
(DESIGN CHOICE, assumption log 69). -/
def dropAccess (k : Hand) (s : State) : State :=
  forEach s.glm.slots.order (fun i t =>
    if (t.glm.slots.get i).any (fun r => (t.gate? r.gate).isNone) then completeAccess k i .gateOffline none t else t) s

/-- An accepted LOAD_GATES (R142): polling begins where no exchange is in progress. -/
def loadGates (k : Hand) (l : List GateFields) (s : State) : State :=
  let s := dropAccess k { s with glm := { s.glm with gates := freshGates l } }
  if s.glm.poll.isNone then pollNext s else s

/-- The handling of LOAD_GATES (R142). -/
def handleLoadGates (l : List GateFields) : Handler := fun s =>
  if s.configurable then
    match gatesFault l with
    | some o => (s, badField o)
    | none => (loadGates cascade l s, accept .none)
  else (s, refuse .wrongMode)

/-- LOAD_GATES (R142). -/
def execLoadGates (tag : Byte) (l : List GateFields) (s : State) : Host.Outcome State Fault Refusal :=
  request tag .loadGates (handleLoadGates l) s

/-! ## Boarding windows (R150) -/

/-- The window's dwell timer is reloaded (R150). -/
def extendDwell (g : Group) (seconds : Nat) (s : State) : State :=
  { s with glm := { s.glm with windows := s.glm.windows.set g { s.window g with dwell := some (seconds * 1000) } } }

/-- The handling of BOARDING_EXTEND (R150). -/
def handleBoardingExtend (group seconds : Nat) : Handler := fun s =>
  match groupOf? group with
  | none => (s, badField 0)
  | some g =>
    if 1 ≤ seconds ∧ seconds ≤ 65535 then
      if (s.window g).state == .opened then (extendDwell g (min seconds 600) s, accept (.extended (min seconds 600)))
      else (s, .refused .tooLate (.window (s.window g).state))
    else (s, badField 1)

/-- BOARDING_EXTEND (R150). -/
def execBoardingExtend (tag : Byte) (group seconds : Nat) (s : State) : Host.Outcome State Fault Refusal :=
  request tag .boardingExtend (handleBoardingExtend group seconds) s

/-- The handling of BOARDING_CLOSE (R150). -/
def handleBoardingClose (group : Nat) : Handler := fun s =>
  match groupOf? group with
  | none => (s, badField 0)
  | some g =>
    let s := cascade (.sealWindow g .host) s
    (s, accept (.windowState (s.window g).state))

/-- BOARDING_CLOSE (R150). -/
def execBoardingClose (tag : Byte) (group : Nat) (s : State) : Host.Outcome State Fault Refusal :=
  request tag .boardingClose (handleBoardingClose group) s

/-! ## TICKET_ANSWER (R154) -/

/-- The query that a gate and a number name, in flight or the last ended: its ticket (R154). -/
def GateRec.queryNamed (g : GateRec) (n : Nat) : Option Nat :=
  if g.state == .query && g.queryNumber == n then g.queryTicket
  else
    match g.lastQuery with
    | some q => if q.number = n then some q.ticket else none
    | none => none

/-- The entry that a ticket answer carries: none, a good offer, or a field at fault (R154). -/
def answerEntry (present : Nat) (e : PassFields) (ticket : Option Nat) : Except Nat (Option PassOffer) :=
  if present = 0 then .ok none
  else
    match offerOf e with
    | .faulty o => .error (4 + o)
    | .good offer => if ticket.any (fun t => t != offer.id) then .error 4 else .ok (some offer)

/-- The insertion of an entry that a ticket answer carries (R128, R154). -/
def insertAnswer (offer : Option PassOffer) (s : State) : State × InsertOutcome :=
  match offer with
  | none => (s, .nothing)
  | some o =>
    let (t, how) := s.ptb.insert o
    ({ s with ptb := t }, how)

/-- A refusal of the querying gate: the verdict, its report and the resting state (R154). -/
def refuseQuery (a : Nat) (car : Option Car) (ticket : Nat) (r : RefuseReason) (s : State) : State × Verdict :=
  (gateToRest a none (refuseAt a car ticket r none none s), .refuse r)

/-- ADMIT-AS at a gate whose query is answered (R154). -/
def admitAs (a : Nat) (g : GateRec) (ticket : Nat) (s : State) : State × Verdict :=
  let w := s.window g.group
  match w.state == .opened, w.car with
  | true, some c =>
    match s.ptb.find? ticket with
    | none => refuseQuery a (some c) ticket .unknown s
    | some e =>
      match judgeSeats a g.group c ticket e.seats s with
      | (s, .entry n) => (s, .entry n)
      | (s, .refuse r) => (gateToRest a none s, .refuse r)
  | _, _ => refuseQuery a w.car ticket .closed s

/-- The query in flight at a gate is answered (R154). -/
def answerQuery (k : Hand) (a : Nat) (g : GateRec) (ticket : Nat) (verdict : Nat) (offer : Option PassOffer) : Handler :=
  fun s =>
    let s := onGate a (fun h => { h with queryTimer := none, queryTicket := none }) s
    let (s, how) := insertAnswer offer s
    let (s, v) := if verdict = 0 then admitAs a g ticket s else refuseQuery a (s.window g.group).car ticket .host s
    (examineWindow k g.group s, accept (.answered v how))

/-- The matching of a ticket answer whose fields are good (R154). -/
def matchAnswer (k : Hand) (a query verdict : Nat) (offer : Option PassOffer) : Handler := fun s =>
  match s.gate? a with
  | none => (s, refuse .unknownQuery)
  | some g =>
    match g.state == .query && g.queryNumber == query, g.queryTicket with
    | true, some ticket => answerQuery k a g ticket verdict offer s
    | _, _ =>
      if g.lastQuery.any (fun q => q.number == query) then
        let (s, how) := insertAnswer offer s
        (s, .refused .tooLate (.insert how))
      else (s, refuse .unknownQuery)

/-- The fields of a ticket answer before its entry (R154). -/
def answerChecks (gate query verdict present : Nat) : List FieldCheck :=
  [.range gate 1 16 0, .range query 0 255 1, .range verdict 0 1 2, .range present 0 1 3]

/-- The handling of TICKET_ANSWER (R154). -/
def handleTicketAnswer (gate query verdict present : Nat) (e : PassFields) : Handler := fun s =>
  match firstFault (answerChecks gate query verdict present) with
  | some o => (s, badField o)
  | none =>
    match answerEntry present e ((s.gate? gate).bind (fun g => g.queryNamed query)) with
    | .error o => (s, badField o)
    | .ok offer => matchAnswer cascade gate query verdict offer s

/-- TICKET_ANSWER (R154). -/
def execTicketAnswer (tag : Byte) (gate query verdict present : Nat) (e : PassFields) (s : State) :
    Host.Outcome State Fault Refusal :=
  request tag .ticketAnswer (handleTicketAnswer gate query verdict present e) s

/-! ## GATE_ACCESS (R160, R161) -/

/-- An access request that completes at acceptance without using its slot (R160, R161). -/
def accessAtOnce (slot : SlotId) (gate : Nat) (c : AccessCommand) (arg : Nat) (r : AccessResult) (s : State) : State :=
  post (.accessDone { slot := slot, gate := gate, command := c, argument := arg, result := r, data := none }) s

/-- The staff admission can be made: the gate READY and a seat left (R161). -/
def State.staffMay (s : State) (g : GateRec) : Option Car :=
  if g.state == .ready then (s.window g.group).car.filter (fun c => decide (1 ≤ s.seatsLeft c)) else none

/-- A request is held in its slot (R160). -/
def holdAccess (slot : SlotId) (r : AccessRequest) (s : State) : State :=
  { s with glm := { s.glm with slots := s.glm.slots.take slot r } }

/-- The staff admission at acceptance, with its ADMISSION report (R152, R161). -/
def staffAdmission (a : Nat) (c : Car) (slot : SlotId) (s : State) : State :=
  let s := makeAdmission a c none 1 (some slot) s
  admissionReport a (some c) none .verdict (some (.entry 1)) (some 1) 0 none none s

/-- An access request to a free slot for a listed gate (R160, R161). -/
def acceptAccess (slot : SlotId) (g : GateRec) (c : AccessCommand) (arg : Nat) (s : State) : State :=
  let req : AccessRequest := { gate := g.address, command := c, argument := arg, polls := 0 }
  if g.state == .offline then accessAtOnce slot g.address c arg .gateOffline s
  else
    match c with
    | .staffOpen =>
      match s.staffMay g with
      | some car => holdAccess slot req (staffAdmission g.address car slot s)
      | none => accessAtOnce slot g.address c arg .nak s
    | .lampTest | .lockOut | .unlock | .readCounters => holdAccess slot req s

/-- The handling of GATE_ACCESS (R160). -/
def handleGateAccess (slot gate command argument : Nat) : Handler := fun s =>
  match slotOf? slot, s.gate? gate, accessOf? command with
  | none, _, _ => (s, badField 0)
  | some _, none, _ => (s, badField 1)
  | some _, some _, none => (s, badField 2)
  | some i, some g, some c =>
    if 255 < argument then (s, badField 3)
    else if (s.glm.slots.get i).isSome then (s, refuse .slotBusy)
    else (acceptAccess i g c argument s, accept .none)

/-- GATE_ACCESS (R160). -/
def execGateAccess (tag : Byte) (slot gate command argument : Nat) (s : State) : Host.Outcome State Fault Refusal :=
  request tag .gateAccess (handleGateAccess slot gate command argument) s

/-! ## BOARDING_READ (R163) -/

/-- The data of BOARDING_READ (R163). -/
def State.boardingData (s : State) : BoardingData :=
  { gates := s.glm.gates, windows := s.glm.windows, slots := s.glm.slots, tally := s.tally, running := s.glm.running }

/-- The handling of BOARDING_READ (R163). -/
def handleBoardingRead : Handler := fun s => (s, accept (.boarding s.boardingData))

/-- BOARDING_READ (R163). -/
def execBoardingRead (tag : Byte) (s : State) : Host.Outcome State Fault Refusal :=
  request tag .boardingRead handleBoardingRead s

end Sys2Proof.Machine
end

