-- ==== Sys2Proof/Machine/MaskFamily.lean ====
section
/-! DEFINITION. The requests that the Supervisory Link Port owns (R193, R195): the report mask and LINK_READ. -/

namespace Sys2Proof.Machine

/-- Replace the report mask. -/
def setMask (m : ReportMask) (s : State) : State := { s with slp := { s.slp with mask := m } }

/-- The handling of REPORT_MASK_SET (R193). -/
def handleMaskSet (classes : Nat) : Handler := fun s =>
  let m := s.slp.mask ||| (BitVec.ofNat 16 classes &&& maskableBits)
  (setMask m s, accept (.mask m))

/-- REPORT_MASK_SET (R193). -/
def execReportMaskSet (tag : Byte) (classes : Nat) (s : State) : Host.Outcome State Fault Refusal :=
  request tag .reportMaskSet (handleMaskSet classes) s

/-- The handling of REPORT_MASK_CLEAR (R193). -/
def handleMaskClear (classes : Nat) : Handler := fun s =>
  let m := s.slp.mask &&& ~~~(BitVec.ofNat 16 classes &&& maskableBits)
  (setMask m s, accept (.mask m))

/-- REPORT_MASK_CLEAR (R193). -/
def execReportMaskClear (tag : Byte) (classes : Nat) (s : State) : Host.Outcome State Fault Refusal :=
  request tag .reportMaskClear (handleMaskClear classes) s

/-- The data of LINK_READ (R195), this request's own place included. -/
def State.linkData (s : State) : LinkData :=
  { places := s.slp.places + 1, overloads := s.slp.overloads, queued := s.slp.queue.length, mask := s.slp.mask,
    lost := s.slp.lost, totals := s.slp.totals }

/-- The handling of LINK_READ (R195). -/
def handleLinkRead : Handler := fun s => (s, accept (.link s.linkData))

/-- LINK_READ (R195). -/
def execLinkRead (tag : Byte) (s : State) : Host.Outcome State Fault Refusal := request tag .linkRead handleLinkRead s

end Sys2Proof.Machine
end

