-- ==== Sys2Proof/Machine/ModeFamily.lean ====
section
/-! DEFINITION. The commands of the Line Mode Unit (chapter 9): its two timers, SET_MODE, SUPERVISE, the health counters,
MODE_READ and RESTART. -/

namespace Sys2Proof.Machine

/-! ## Timers -/

/-- WARMING_TIMEOUT (R172): the timer expires where it runs. -/
def execWarmingTimeout (s : State) : Host.Outcome State Fault Refusal :=
  whileRunning (fun s => if s.lmu.warmTimer.isSome then warmingExpired cascade s else s) s

/-- SUPERVISION_EXPIRY (R177): the timer expires where it runs. -/
def execSupervisionExpiry (s : State) : Host.Outcome State Fault Refusal :=
  whileRunning (fun s =>
    match s.lmu.supTimer with
    | .running _ => supervisionExpired cascade s
    | .notStarted | .stopped => s) s

/-! ## SET_MODE (R167) -/

/-- The warming target of a SET_MODE target. -/
def warmTargetOf : Mode → Option WarmTarget
  | .service => some .service
  | .reduced => some .reduced
  | .maintenance => some .maintenance
  | .init | .parked | .warming | .evacuation | .tripped => none

/-- The mode that a SET_MODE change enters (R168). -/
def entryOf (old target : Mode) (v : Variant) : ModeEntry :=
  match target with
  | .parked => { mode := .parked, variant := some v, target := none }
  | t =>
    if old == .init || old == .parked then { mode := .warming, variant := none, target := warmTargetOf t } else .plain t

/-- The fields of a SET_MODE; the flags are read only for the target PARKED (R167). -/
def modeFields (target links loop : Nat) : Except Nat (Mode × Variant) :=
  match targetOf? target with
  | none => .error 0
  | some .parked =>
    match flagOf? links, flagOf? loop with
    | none, _ => .error 1
    | some _, none => .error 2
    | some a, some b => .ok (.parked, { keepLinks := a, keepLoop := b })
  | some m => .ok (m, { keepLinks := false, keepLoop := false })

/-- The change is one SET_MODE can make from the present mode (R167, step 4; R168). -/
def State.modeChangeAllowed (s : State) (target : Mode) : Option ModeConditions :=
  if s.lmu.mode == .evacuation && target == .tripped && s.bsq.latch.isNone then none
  else modeChange s.lmu.mode target

/-- Step 3: the target is the present mode (R167). -/
def sameMode (k : Hand) (v : Variant) : Handler := fun s =>
  if s.lmu.mode == .parked && s.lmu.variant != some v then
    (changeVariant k v s, accept (.modeSet true .parked))
  else (s, accept (.modeSet true s.lmu.mode))

/-- Steps 4 to 7 and the change itself (R167). -/
def otherMode (k : Hand) (target : Mode) (v : Variant) : Handler := fun s =>
  match s.modeChangeAllowed target with
  | none => (s, .refused .wrongMode (.mode s.lmu.mode))
  | some c =>
    if target == .service && s.lmu.health.forcing.any then (s, .refused .forced (.counters s.lmu.health.forcing))
    else
      match if c.checks then s.configFault else none with
      | some check => (s, .refused .configInvalid (.config check))
      | none =>
        match s.modeReasons c with
        | [] =>
          let e := entryOf s.lmu.mode target v
          let s := k (.changeMode e .host none) s
          (s, accept (.modeSet false e.mode))
        | l => (s, .refused .inhibited (.modeReasons l))

/-- The examination of a SET_MODE after the abort of a running test (R167). -/
def examineMode (k : Hand) (target links loop : Nat) : Handler := fun s =>
  match modeFields target links loop with
  | .error o => (s, badField o)
  | .ok (m, v) =>
    if s.lmu.mode == .warming then (s, refuse .busy)
    else if m == s.lmu.mode then sameMode k v s
    else otherMode k m v s

/-- The handling of SET_MODE (R86, R167). -/
def handleSetMode (target links loop : Nat) : Handler := fun s =>
  examineMode cascade target links loop (cascade (.abortTest .modeRequest) s)

/-- SET_MODE (R167). -/
def execSetMode (tag : Byte) (target links loop : Nat) (s : State) : Host.Outcome State Fault Refusal :=
  request tag .setMode (handleSetMode target links loop) s

/-! ## SUPERVISE (R176) -/

/-- The handling of SUPERVISE (R176): a wrong code is a supervision expiry where the lost flag is clear. -/
def handleSupervise (code : Nat) : Handler := fun s =>
  if code = s.lmu.expected.value then
    (supervised s, accept (.supervised s.lmu.expected.other s.lmu.lost))
  else
    (if s.lmu.lost then s else supervisionExpired cascade s, .refused .badCode (.code s.lmu.expected))

/-- SUPERVISE (R176). -/
def execSupervise (tag : Byte) (code : Nat) (s : State) : Host.Outcome State Fault Refusal :=
  request tag .supervise (handleSupervise code) s

/-! ## Health counters (R180) -/

/-- A counter is written; crossings are reported and may force REDUCED (R175, R180). -/
def writeHealth (k : Hand) (n : CounterName) (c : Counter) (s : State) : State :=
  let old := s.lmu.health.get n
  let s := { s with lmu := { s.lmu with health := s.lmu.health.set n c } }
  if old.isOver && !c.isOver then
    post (.health { counter := n, isOver := false, count := c.count, exp := c.exp, mode := s.lmu.mode }) s
  else if !old.isOver && c.isOver then
    let forced := n.forces && s.lmu.mode == .service
    let s := post (.health { counter := n, isOver := true, count := c.count, exp := c.exp,
                             mode := if forced then .reduced else s.lmu.mode }) s
    if forced then k (.changeMode (.plain .reduced) .forced none) s else s
  else s

/-- The handling of HEALTH_SET (R180). -/
def handleHealthSet (counter count exponent : Nat) : Handler := fun s =>
  match counterOf? counter with
  | none => (s, badField 0)
  | some n =>
    if 65535 < count then (s, badField 1)
    else if 255 < exponent then (s, badField 3)
    else
      let c : Counter := { count := count, exp := min 15 exponent }
      (writeHealth cascade n c s, accept (.healthSet c.count c.exp c.isOver))

/-- HEALTH_SET (R180). -/
def execHealthSet (tag : Byte) (counter count exponent : Nat) (s : State) : Host.Outcome State Fault Refusal :=
  request tag .healthSet (handleHealthSet counter count exponent) s

/-- The handling of HEALTH_READ (R180). -/
def handleHealthRead : Handler := fun s => (s, accept (.health s.lmu.health))

/-- HEALTH_READ (R180). -/
def execHealthRead (tag : Byte) (s : State) : Host.Outcome State Fault Refusal :=
  request tag .healthRead handleHealthRead s

/-! ## MODE_READ and RESTART (R182, R183) -/

/-- The data of MODE_READ (R183). -/
def State.modeData (s : State) : ModeData :=
  { mode := s.lmu.mode, variant := s.lmu.variant, target := s.lmu.target, warmTimer := s.lmu.warmTimer,
    expected := s.lmu.expected, supTimer := s.lmu.supTimer, lost := s.lmu.lost, cause := s.lmu.cause }

/-- The handling of MODE_READ (R183). -/
def handleModeRead : Handler := fun s => (s, accept (.mode s.modeData))

/-- MODE_READ (R183). -/
def execModeRead (tag : Byte) (s : State) : Host.Outcome State Fault Refusal := request tag .modeRead handleModeRead s

/-- The handling of RESTART (R182): the reset follows when the reply has been transmitted. -/
def handleRestart : Handler := fun s =>
  if s.configurable then ({ s with slp := { s.slp with restarting := true } }, accept .none)
  else (s, refuse .wrongMode)

/-- RESTART (R182). -/
def execRestart (tag : Byte) (s : State) : Host.Outcome State Fault Refusal := request tag .restart handleRestart s

end Sys2Proof.Machine
end

