-- ==== Sys2Proof/Machine/PassFamily.lean ====
section
/-! DEFINITION. The commands of the Pass Table (chapter 7): the line clock, insertion, deletion, blocking, PASS_READ and
SET_DAY. -/

namespace Sys2Proof.Machine

/-- Replace the Pass Table. -/
def setTable (t : PassTable) (s : State) : State := { s with ptb := t }

/-- LINE_CLOCK_TICK (R133). -/
def execLineClockTick (s : State) : Host.Outcome State Fault Refusal :=
  whileRunning (fun s => setTable s.ptb.tick s) s

/-- The whole taking of a PASS_INSERT's entries (R129). -/
def insertRun (l : List PassFields) (t : PassTable) : InsertRun :=
  insertAll l 0 { table := t, new := 0, replaced := 0, how := .complete }

/-- The handling of PASS_INSERT (R129). -/
def handlePassInsert (l : List PassFields) : Handler := fun s =>
  if l.length = 0 ∨ 12 < l.length then (s, badField 0)
  else
    let r := insertRun l s.ptb
    (setTable r.table s, accept (.inserted r.new r.replaced r.how r.table.entries.length))

/-- PASS_INSERT (R129). -/
def execPassInsert (tag : Byte) (l : List PassFields) (s : State) : Host.Outcome State Fault Refusal :=
  request tag .passInsert (handlePassInsert l) s

/-- The whole taking of a PASS_DELETE's ids (R130). -/
def deleteRun (ids : List Nat) (t : PassTable) : DeleteRun :=
  ids.foldl (fun r id => deleteOne id r) { table := t, notFound := 0, deleted := 0, deferred := 0 }

/-- The handling of PASS_DELETE (R130). -/
def handlePassDelete (ids : List Nat) : Handler := fun s =>
  match idsFault ids with
  | some o => (s, badField o)
  | none =>
    let r := deleteRun ids s.ptb
    (setTable r.table s, accept (.deleted r.notFound r.deleted r.deferred r.table.entries.length))

/-- PASS_DELETE (R130). -/
def execPassDelete (tag : Byte) (ids : List Nat) (s : State) : Host.Outcome State Fault Refusal :=
  request tag .passDelete (handlePassDelete ids) s

/-- The whole taking of the ids of a PASS_BLOCK or PASS_UNBLOCK (R131). -/
def blockRun (f : PassEntry → Option PassEntry) (ids : List Nat) (t : PassTable) : BlockRun :=
  ids.foldl (fun r id => blockOne f id r) { table := t, changed := 0, left := 0, notFound := 0 }

/-- The handling of PASS_BLOCK and PASS_UNBLOCK under an operation on entries (R131). -/
def handleBlock (f : PassEntry → Option PassEntry) (ids : List Nat) : Handler := fun s =>
  match idsFault ids with
  | some o => (s, badField o)
  | none =>
    let r := blockRun f ids s.ptb
    (setTable r.table s, accept (.blocked r.changed r.left r.notFound))

/-- The handling of PASS_BLOCK (R131). -/
def handlePassBlock (ids : List Nat) : Handler := handleBlock blockEntry ids

/-- PASS_BLOCK (R131). -/
def execPassBlock (tag : Byte) (ids : List Nat) (s : State) : Host.Outcome State Fault Refusal :=
  request tag .passBlock (handlePassBlock ids) s

/-- The handling of PASS_UNBLOCK (R131). -/
def handlePassUnblock (ids : List Nat) : Handler := handleBlock unblockEntry ids

/-- PASS_UNBLOCK (R131). -/
def execPassUnblock (tag : Byte) (ids : List Nat) (s : State) : Host.Outcome State Fault Refusal :=
  request tag .passUnblock (handlePassUnblock ids) s

/-- The handling of PASS_READ (R132). -/
def handlePassRead (id : Nat) : Handler := fun s =>
  if id = 0 then (s, accept (.pass none s.ptb.summary))
  else
    match s.ptb.find? id with
    | some e => (s, accept (.pass (some e) s.ptb.summary))
    | none => (s, refuse .notFound)

/-- PASS_READ (R132). -/
def execPassRead (tag : Byte) (id : Nat) (s : State) : Host.Outcome State Fault Refusal :=
  request tag .passRead (handlePassRead id) s

/-- Entries that a purge at day d removes (R134). -/
def purgedCount (d : Nat) (l : List PassEntry) : Nat := (l.filter (fun e => e.purgedBy d && e.held == 0)).length

/-- Entries that a purge at day d marks (R134); one that has its mark already is counted with them (DESIGN CHOICE, assumption
log 66). -/
def deferredCount (d : Nat) (l : List PassEntry) : Nat := (l.filter (fun e => e.purgedBy d && e.held != 0)).length

/-- The handling of SET_DAY (R134). The reply carries the places occupied for the current day as well (DESIGN CHOICE, assumption
log 65). -/
def handleSetDay (d : Nat) : Handler := fun s =>
  let t := s.ptb
  if d < t.day then (s, .refused .dayBackward (.day t.day))
  else if d = t.day then (s, accept (.dayset 0 0 t.entries.length))
  else
    (setTable (t.forward d) s,
     accept (.dayset (purgedCount d t.entries) (deferredCount d t.entries) (t.forward d).entries.length))

/-- SET_DAY (R134). -/
def execSetDay (tag : Byte) (d : Nat) (s : State) : Host.Outcome State Fault Refusal :=
  request tag .setDay (handleSetDay d) s

end Sys2Proof.Machine
end

