-- ==== Sys2Proof/Machine/TripFamily.lean ====
section
/-! DEFINITION. The commands of the Haulage Controller (chapter 2): the 20 ms update, the plan, DEPART, STOP and
HAULAGE_READ. -/

namespace Sys2Proof.Machine

/-! ## DRIVE_REFERENCE_UPDATE (R33, R34, R38a, R41, R42) -/

/-- One update: the reference, what waits for standstill, the drive lines, and the drive word. -/
def driveUpdate (k : Hand) (ready fault : Bool) (s : State) : State :=
  sendWord (readDriveLines k ready fault (k .settle (referenceUpdate s)))

/-- DRIVE_REFERENCE_UPDATE (R33). -/
def execDriveReferenceUpdate (ready fault : Bool) (s : State) : Host.Outcome State Fault Refusal :=
  whileRunning (driveUpdate cascade ready fault) s

/-! ## The trip plan (R26 to R29) -/

/-- The fields of plan entries with the entry before each, the first standing at an offset: a record present, and no entry
equal to the one before it (R27). -/
def planChecks (stops : List StopRec) : Option Nat → List Nat → Nat → List FieldCheck
  | _, [], _ => []
  | prev, i :: rest, o =>
    { good := stops.any (fun r => r.index == i) && prev != some i, offset := o } :: planChecks stops (some i) rest (o + 1)

/-- The offset of the first fault of a PLAN_SET (R27): the first entry is compared with the stop of the berth record. -/
def State.planFault (s : State) (l : List Nat) : Option Nat :=
  firstFault (.range l.length 0 Config.planPlaces 0 :: planChecks s.stops s.hac.berth.stop l 1)

/-- The handling of PLAN_SET (R27). -/
def handlePlanSet (l : List Nat) : Handler := fun s =>
  if s.moving then (s, refuse .notHeld)
  else
    match s.planFault l with
    | some o => (s, badField o)
    | none => ({ s with hac := { s.hac with plan := l, legMark := false } }, accept .none)

/-- PLAN_SET (R27). -/
def execPlanSet (tag : Byte) (l : List Nat) (s : State) : Host.Outcome State Fault Refusal :=
  request tag .planSet (handlePlanSet l) s

/-- The predecessor of an entry to be appended (R28). -/
def State.predecessor (s : State) : Option Nat :=
  match s.hac.plan.getLast? with
  | some i => some i
  | none =>
    match s.hac.dest with
    | some i => some i
    | none => s.hac.berth.stop

/-- The handling of PLAN_APPEND (R28). -/
def handlePlanAppend (i : Nat) : Handler := fun s =>
  if !s.stops.any (fun r => r.index == i) then (s, badField 0)
  else if Config.planPlaces ≤ s.hac.plan.length then (s, refuse .queueFull)
  else if s.predecessor = some i then (s, badField 0)
  else
    ({ s with hac := { s.hac with plan := s.hac.plan ++ [i] } }, accept (.queueLength (s.hac.plan.length + 1)))

/-- PLAN_APPEND (R28). -/
def execPlanAppend (tag : Byte) (i : Nat) (s : State) : Host.Outcome State Fault Refusal :=
  request tag .planAppend (handlePlanAppend i) s

/-- The handling of PLAN_CLEAR (R29). -/
def handlePlanClear : Handler := fun s =>
  ({ s with hac := { s.hac with plan := [], legMark := false } }, accept .none)

/-- PLAN_CLEAR (R29). -/
def execPlanClear (tag : Byte) (s : State) : Host.Outcome State Fault Refusal :=
  request tag .planClear handlePlanClear s

/-! ## DEPART (R30, R31) -/

/-- The direction of a trip to a stop (R31). -/
def directionTo (pos : Nat) (x : Int) : Dir := if x < (pos : Int) then .up else .down

/-- A departure to the head of the plan (R31); a lift request that meets a stop in the record changes nothing (R72). -/
def departTo (k : Hand) (r : StopRec) (s : State) : State :=
  let s := { s with hac := { s.hac with dest := some r.index, legMark := true, tripDir := directionTo r.pos s.ptr.x } }
  let s := setHaulage .releasing (setBerth .offStop s)
  if s.bsq.stop.isSome then s else k (.command .sb .release) s

/-- The handling of DEPART (R30, R31). -/
def handleDepart : Handler := fun s =>
  if s.moving then (s, refuse .notHeld)
  else
    match s.inhibits, s.hac.plan.head?.bind s.stopAt? with
    | [], some r => (departTo cascade r s, accept (.departed r.index r.pos (directionTo r.pos s.ptr.x)))
    | l, _ => (s, .refused .inhibited (.inhibits l))

/-- DEPART (R30). -/
def execDepart (tag : Byte) (s : State) : Host.Outcome State Fault Refusal := request tag .depart handleDepart s

/-! ## STOP and HAULAGE_READ (R38, R45) -/

/-- The handling of STOP (R38). -/
def handleStop : Handler := fun s =>
  (if s.moving then cascade (.orderStop .controlled .host) s else s, accept (.haulageState s.hac.state))

/-- STOP (R38). -/
def execStop (tag : Byte) (s : State) : Host.Outcome State Fault Refusal := request tag .stop handleStop s

/-- The data of HAULAGE_READ (R45). -/
def State.haulageData (s : State) : HaulageData :=
  { state := s.hac.state, berth := s.hac.berth, dest := s.hac.dest, dir := s.comingDir, plan := s.hac.plan,
    legMark := s.hac.legMark, vRef := s.hac.vRef, ramp := s.hac.ramp, ready := s.hac.ready, fault := s.hac.fault,
    notHeld := s.moving, inhibits := if s.moving then [] else s.inhibits }

/-- The handling of HAULAGE_READ (R45). -/
def handleHaulageRead : Handler := fun s => (s, accept (.haulage s.haulageData))

/-- HAULAGE_READ (R45). -/
def execHaulageRead (tag : Byte) (s : State) : Host.Outcome State Fault Refusal :=
  request tag .haulageRead handleHaulageRead s

end Sys2Proof.Machine
end

