-- ==== Sys2Proof/Machine/Requests.lean ====
section
/-! DEFINITION. The dispatch of a well-formed request to its owner (R186, R187; section 10's table of request kinds). -/

namespace Sys2Proof.Machine

/-- The owner's handling of a request; a frame never spells one of the other commands. -/
def handlerOf : Instr → Handler
  | .configureLine _ f => handleConfigureLine f
  | .loadSegments _ l => handleLoadSegments l
  | .loadStops _ l => handleLoadStops l
  | .loadMarkers _ l => handleLoadMarkers l
  | .positionRead _ => handlePositionRead
  | .planSet _ l => handlePlanSet l
  | .planAppend _ i => handlePlanAppend i
  | .planClear _ => handlePlanClear
  | .depart _ => handleDepart
  | .stop _ => handleStop
  | .haulageRead _ => handleHaulageRead
  | .tsrAdd _ id start stop speed => handleTsrAdd id start stop speed
  | .tsrRemove _ id => handleTsrRemove id
  | .envelopeRead _ => handleEnvelopeRead
  | .tripReset _ => handleTripReset
  | .brakeTest _ b => handleBrakeTest b
  | .brakeRead _ => handleBrakeRead
  | .alarmClear _ c => handleAlarmClear c
  | .alarmRouteSet _ d => handleAlarmRouteSet d
  | .alarmRouteClear _ d => handleAlarmRouteClear d
  | .carRead _ => handleCarRead
  | .doorRelease _ c d => handleDoorRelease c d
  | .evacRelease _ c d => handleEvacRelease c d
  | .doorClose _ c d => handleDoorClose c d
  | .doorRead _ => handleDoorRead
  | .passInsert _ l => handlePassInsert l
  | .passDelete _ l => handlePassDelete l
  | .passBlock _ l => handlePassBlock l
  | .passUnblock _ l => handlePassUnblock l
  | .passRead _ id => handlePassRead id
  | .setDay _ d => handleSetDay d
  | .loadGates _ l => handleLoadGates l
  | .boardingExtend _ g n => handleBoardingExtend g n
  | .boardingClose _ g => handleBoardingClose g
  | .ticketAnswer _ g q v p e => handleTicketAnswer g q v p e
  | .gateAccess _ slot g c a => handleGateAccess slot g c a
  | .boardingRead _ => handleBoardingRead
  | .setMode _ m a b => handleSetMode m a b
  | .supervise _ c => handleSupervise c
  | .healthSet _ c n e => handleHealthSet c n e
  | .healthRead _ => handleHealthRead
  | .modeRead _ => handleModeRead
  | .restart _ => handleRestart
  | .reportMaskSet _ c => handleMaskSet c
  | .reportMaskClear _ c => handleMaskClear c
  | .linkRead _ => handleLinkRead
  | .powerOn | .resetLine | .resetLineAssert | .encoderCount _ _ _ | .positionSample _ _ _ _ | .driveReferenceUpdate _ _
  | .brakeContactChange _ _ _ | .brakeResponseTimeout _ | .decelerationCheckTimeout | .brakeTestTimerExpiry
  | .carStatusFrame _ _ | .carCommandTimer _ | .carStaleTimeout _ | .carLostTimeout _ | .acknowledgementTimeout _ _
  | .closeTimeout _ _ | .retryTimerExpiry _ _ | .lineClockTick | .gateReply _ | .gateReplyTimeout | .dwellExpiry _
  | .queryTimeout _ | .passageDeadline _ | .warmingTimeout | .supervisionExpiry | .skippedByte _ | .frameGapTimeout
  | .badLengthDiscard _ | .supervisoryFrame _ _ _ _ | .transmitEnd => fun s => (s, refuse .badKind)

/-- A refusal under R186 is counted. -/
def countBad (s : State) : State :=
  { s with slp := s.slp.count (fun t => { t with badRefusals := satCount t.badRefusals 1 }) }

/-- The examination of a received frame and its owner's handling (R186, R187). -/
def handleFrame (kind tag : Byte) (payload : List Byte) : Handler := fun s =>
  match reqKindOf? kind with
  | none => (countBad s, .refused .badKind (.kind kind))
  | some k =>
    match requestOf k tag payload with
    | none => (countBad s, .refused .badLength (.length payload.length))
    | some i => handlerOf i s

end Sys2Proof.Machine
end

