-- ==== Sys2Proof/Machine/LinkFamily.lean ====
section
/-! DEFINITION. The events of the supervisory link (chapter 10): arriving bytes, the gap timer, whole frames, and the end of a
transmission. -/

namespace Sys2Proof.Machine

/-- The receiver's state and its gap timer (R184). -/
def setReceiver (r : Receiver) (gap : Timer) (s : State) : State :=
  { s with slp := { s.slp with receiver := r, gap := gap } }

/-- A frame with a bad length is discarded (R185). -/
def discardLength (s : State) : State :=
  let s := bumpHealth cascade .frames 1 (setReceiver .hunting none s)
  { s with slp := s.slp.count (fun t => { t with lengthDiscards := satCount t.lengthDiscards 1 }) }

/-- A frame whose check does not match is discarded (R185). -/
def discardCheck (s : State) : State :=
  let s := bumpHealth cascade .frames 1 (setReceiver .hunting none s)
  { s with slp := s.slp.count (fun t => { t with checkDiscards := satCount t.checkDiscards 1 }) }

/-- A complete frame is judged by its check (R185): discarded, or received (R186 to R189). -/
def judgeSupervisory (kind tag : Byte) (payload : List Byte) (check : Check) (s : State) : State :=
  if check = frameCheck kind tag payload then receive tag kind (handleFrame kind tag payload) s else discardCheck s

/-- A frame's bytes after the sync, complete (R184). -/
def judgeBytes (l : List Byte) (s : State) : State :=
  match l with
  | _ :: kind :: tag :: rest =>
    let n := rest.length - 2
    judgeSupervisory kind tag (rest.take n) (BitVec.ofNat 16 (beNat (rest.drop n))) s
  | _ => s

/-- A byte arrives while HUNTING (R184). -/
def huntByte (b : Byte) (s : State) : State :=
  if b = Config.syncByte then setReceiver (.inFrame []) (some Config.gapMs) s
  else { s with slp := s.slp.count (fun t => { t with skipped := satCount t.skipped 1 }) }

/-- A byte joins the bytes of a frame (R184, R185). -/
def frameByte (l : List Byte) (b : Byte) (s : State) : State :=
  let l := l ++ [b]
  match l with
  | [] => s
  | len :: _ =>
    if l.length = 1 ∧ Config.maxPayload < len.toNat then discardLength s
    else if l.length = len.toNat + 5 then judgeBytes l s
    else setReceiver (.inFrame l) (some Config.gapMs) s

/-- A byte arrives on the supervisory link (R184, R185). -/
def receiveByte (b : Byte) (s : State) : State :=
  match s.slp.receiver with
  | .hunting => huntByte b s
  | .inFrame l => frameByte l b s

/-- SKIPPED_BYTE (R184): one byte arrives. -/
def execSkippedByte (b : Byte) (s : State) : Host.Outcome State Fault Refusal := whileRunning (receiveByte b) s

/-- FRAME_GAP_TIMEOUT (R184): a frame in progress is abandoned. -/
def execFrameGapTimeout (s : State) : Host.Outcome State Fault Refusal :=
  whileRunning (fun s =>
    match s.slp.receiver with
    | .hunting => s
    | .inFrame _ =>
      let s := setReceiver .hunting none s
      { s with slp := s.slp.count (fun t => { t with abandoned := satCount t.abandoned 1 }) }) s

/-- BAD_LENGTH_DISCARD (R185): a frame's length byte, above 240. -/
def execBadLengthDiscard (len : Byte) (s : State) : Host.Outcome State Fault Refusal :=
  whileRunning (fun s => if Config.maxPayload < len.toNat then discardLength s else s) s

/-- SUPERVISORY_FRAME (R185): a complete frame arrives; no frame has a payload above 240 bytes. -/
def execSupervisoryFrame (kind tag : Byte) (payload : List Byte) (check : Check) (s : State) :
    Host.Outcome State Fault Refusal :=
  whileRunning (fun s =>
    if payload.length ≤ Config.maxPayload then judgeSupervisory kind tag payload check s else s) s

/-- The frame being sent is the reply to an accepted RESTART (R182). -/
def Sending.isRestart : Sending → Bool
  | .reply r =>
    match r.answer with
    | .accepted _ => r.kind == ReqKind.restart.code
    | .refused _ _ => false
  | .report _ _ => false

/-- The end of the transmission in progress (R182, R194). -/
def transmissionEnds (s : State) : State :=
  match s.slp.sending with
  | none => s
  | some f =>
    if f.isRestart then resetNow .restart s
    else { s with slp := Link.transmit { s.slp with sending := none } }

/-- TRANSMIT_END (R194). -/
def execTransmitEnd (s : State) : Host.Outcome State Fault Refusal := whileRunning transmissionEnds s

end Sys2Proof.Machine
end

