-- ==== Sys2Proof/Machine/ResetFamily.lean ====
section
/-! DEFINITION. The commands POWER_ON, RESET_LINE, RESET_LINE_ASSERT (R181). -/

namespace Sys2Proof.Machine

/-- POWER_ON (R181): the reset at the end of power-up; with the external reset line active the device stays held, and its
release gives cause POWER_ON. -/
def execPowerOn (s : State) : Host.Outcome State Fault Refusal :=
  let s := { s with overrun := false }
  match s.inReset with
  | some _ => .next (holdReset .powerOn s)
  | none => finish (resetNow .powerOn s)

/-- RESET_LINE (R181): the external reset line returns to inactive. -/
def execResetLine (s : State) : Host.Outcome State Fault Refusal :=
  let s := { s with overrun := false }
  match s.inReset with
  | some cause => finish (resetNow cause { s with inReset := none })
  | none => finish (resetNow .resetLine s)

/-- RESET_LINE_ASSERT (R181): the external reset line becomes active. -/
def execResetLineAssert (s : State) : Host.Outcome State Fault Refusal :=
  let s := { s with overrun := false }
  match s.inReset with
  | some _ => .next s
  | none => .next (holdReset .resetLine s)

end Sys2Proof.Machine
end

