-- ==== Sys2Proof/Machine/Dispatch.lean ====
section
/-! DEFINITION. The dispatch: one arm per command, each one direct call of the command's meaning. -/

namespace Sys2Proof.Machine

/-- The effect of a command on everything but the queue of waiting commands. -/
def exec (i : Instr) (s : State) : Host.Outcome State Fault Refusal :=
  match i with
  | .powerOn => Sys2Proof.Machine.execPowerOn s
  | .resetLine => Sys2Proof.Machine.execResetLine s
  | .resetLineAssert => Sys2Proof.Machine.execResetLineAssert s
  | .encoderCount enc dir edges => Sys2Proof.Machine.execEncoderCount enc dir edges s
  | .positionSample lower upper otLower otUpper => Sys2Proof.Machine.execPositionSample lower upper otLower otUpper s
  | .driveReferenceUpdate ready fault => Sys2Proof.Machine.execDriveReferenceUpdate ready fault s
  | .brakeContactChange brake applied released => Sys2Proof.Machine.execBrakeContactChange brake applied released s
  | .brakeResponseTimeout brake => Sys2Proof.Machine.execBrakeResponseTimeout brake s
  | .decelerationCheckTimeout => Sys2Proof.Machine.execDecelerationCheckTimeout s
  | .brakeTestTimerExpiry => Sys2Proof.Machine.execBrakeTestTimerExpiry s
  | .carStatusFrame link bytes => Sys2Proof.Machine.execCarStatusFrame link bytes s
  | .carCommandTimer link => Sys2Proof.Machine.execCarCommandTimer link s
  | .carStaleTimeout car => Sys2Proof.Machine.execCarStaleTimeout car s
  | .carLostTimeout car => Sys2Proof.Machine.execCarLostTimeout car s
  | .acknowledgementTimeout car side => Sys2Proof.Machine.execAcknowledgementTimeout car side s
  | .closeTimeout car side => Sys2Proof.Machine.execCloseTimeout car side s
  | .retryTimerExpiry car side => Sys2Proof.Machine.execRetryTimerExpiry car side s
  | .lineClockTick => Sys2Proof.Machine.execLineClockTick s
  | .gateReply bytes => Sys2Proof.Machine.execGateReply bytes s
  | .gateReplyTimeout => Sys2Proof.Machine.execGateReplyTimeout s
  | .dwellExpiry group => Sys2Proof.Machine.execDwellExpiry group s
  | .queryTimeout gate => Sys2Proof.Machine.execQueryTimeout gate s
  | .passageDeadline gate => Sys2Proof.Machine.execPassageDeadline gate s
  | .warmingTimeout => Sys2Proof.Machine.execWarmingTimeout s
  | .supervisionExpiry => Sys2Proof.Machine.execSupervisionExpiry s
  | .skippedByte b => Sys2Proof.Machine.execSkippedByte b s
  | .frameGapTimeout => Sys2Proof.Machine.execFrameGapTimeout s
  | .badLengthDiscard len => Sys2Proof.Machine.execBadLengthDiscard len s
  | .supervisoryFrame kind tag payload check => Sys2Proof.Machine.execSupervisoryFrame kind tag payload check s
  | .transmitEnd => Sys2Proof.Machine.execTransmitEnd s
  | .configureLine tag fields => Sys2Proof.Machine.execConfigureLine tag fields s
  | .loadSegments tag recs => Sys2Proof.Machine.execLoadSegments tag recs s
  | .loadStops tag recs => Sys2Proof.Machine.execLoadStops tag recs s
  | .loadMarkers tag recs => Sys2Proof.Machine.execLoadMarkers tag recs s
  | .positionRead tag => Sys2Proof.Machine.execPositionRead tag s
  | .planSet tag entries => Sys2Proof.Machine.execPlanSet tag entries s
  | .planAppend tag stop => Sys2Proof.Machine.execPlanAppend tag stop s
  | .planClear tag => Sys2Proof.Machine.execPlanClear tag s
  | .depart tag => Sys2Proof.Machine.execDepart tag s
  | .stop tag => Sys2Proof.Machine.execStop tag s
  | .haulageRead tag => Sys2Proof.Machine.execHaulageRead tag s
  | .tsrAdd tag id start stop speed => Sys2Proof.Machine.execTsrAdd tag id start stop speed s
  | .tsrRemove tag id => Sys2Proof.Machine.execTsrRemove tag id s
  | .envelopeRead tag => Sys2Proof.Machine.execEnvelopeRead tag s
  | .tripReset tag => Sys2Proof.Machine.execTripReset tag s
  | .brakeTest tag brake => Sys2Proof.Machine.execBrakeTest tag brake s
  | .brakeRead tag => Sys2Proof.Machine.execBrakeRead tag s
  | .alarmClear tag car => Sys2Proof.Machine.execAlarmClear tag car s
  | .alarmRouteSet tag dests => Sys2Proof.Machine.execAlarmRouteSet tag dests s
  | .alarmRouteClear tag dests => Sys2Proof.Machine.execAlarmRouteClear tag dests s
  | .carRead tag => Sys2Proof.Machine.execCarRead tag s
  | .doorRelease tag car side => Sys2Proof.Machine.execDoorRelease tag car side s
  | .evacRelease tag car side => Sys2Proof.Machine.execEvacRelease tag car side s
  | .doorClose tag car side => Sys2Proof.Machine.execDoorClose tag car side s
  | .doorRead tag => Sys2Proof.Machine.execDoorRead tag s
  | .passInsert tag entries => Sys2Proof.Machine.execPassInsert tag entries s
  | .passDelete tag ids => Sys2Proof.Machine.execPassDelete tag ids s
  | .passBlock tag ids => Sys2Proof.Machine.execPassBlock tag ids s
  | .passUnblock tag ids => Sys2Proof.Machine.execPassUnblock tag ids s
  | .passRead tag id => Sys2Proof.Machine.execPassRead tag id s
  | .setDay tag day => Sys2Proof.Machine.execSetDay tag day s
  | .loadGates tag recs => Sys2Proof.Machine.execLoadGates tag recs s
  | .boardingExtend tag group seconds => Sys2Proof.Machine.execBoardingExtend tag group seconds s
  | .boardingClose tag group => Sys2Proof.Machine.execBoardingClose tag group s
  | .ticketAnswer tag gate query verdict present entry => Sys2Proof.Machine.execTicketAnswer tag gate query verdict present entry s
  | .gateAccess tag slot gate command argument => Sys2Proof.Machine.execGateAccess tag slot gate command argument s
  | .boardingRead tag => Sys2Proof.Machine.execBoardingRead tag s
  | .setMode tag target keepLinks keepLoop => Sys2Proof.Machine.execSetMode tag target keepLinks keepLoop s
  | .supervise tag code => Sys2Proof.Machine.execSupervise tag code s
  | .healthSet tag counter count exponent => Sys2Proof.Machine.execHealthSet tag counter count exponent s
  | .healthRead tag => Sys2Proof.Machine.execHealthRead tag s
  | .modeRead tag => Sys2Proof.Machine.execModeRead tag s
  | .restart tag => Sys2Proof.Machine.execRestart tag s
  | .reportMaskSet tag classes => Sys2Proof.Machine.execReportMaskSet tag classes s
  | .reportMaskClear tag classes => Sys2Proof.Machine.execReportMaskClear tag classes s
  | .linkRead tag => Sys2Proof.Machine.execLinkRead tag s

end Sys2Proof.Machine
end

