-- ==== Sys2Proof/Machine/Tick.lean ====
section
/-! DEFINITION. The millisecond that passes while no command waits (assumption log 2): running timers count down to 0, where they
stay until the command of their expiry comes, and the times since the last accepted status frames grow. -/

namespace Sys2Proof.Machine

/-- One millisecond of a timer: a running one counts down and stays at 0. -/
def Timer.tick (t : Timer) : Timer := t.map (· - 1)

/-- One millisecond of a brake record. -/
def BrakeRec.tick (r : BrakeRec) : BrakeRec := { r with timer := Timer.tick r.timer }

/-- One millisecond of a deceleration check (R77). -/
def DecelCheck.tick : DecelCheck → DecelCheck
  | .running t => .running (Timer.tick t)
  | .absent => .absent
  | .passed => .passed
  | .failed => .failed

/-- One millisecond of the stop record. -/
def StopRecord.tick (r : StopRecord) : StopRecord := { r with check := r.check.tick }

/-- One millisecond of a brake test. -/
def BrakeTest.tick (t : BrakeTest) : BrakeTest := { t with timer := Timer.tick t.timer }

/-- One millisecond of the Brake Sequencer. -/
def Brakes.tick (b : Brakes) : Brakes :=
  { b with recs := ⟨b.recs.sb.tick, b.recs.eb.tick⟩, stop := b.stop.map StopRecord.tick, test := b.test.map BrakeTest.tick }

/-- One millisecond of a car record: its command timer, and the time since its last accepted frame (R92, R93). -/
def CarRec.tick (r : CarRec) : CarRec :=
  { r with timer := Timer.tick r.timer, since := r.since.map (fun n => satCount n 1) }

/-- One millisecond of a door-side record. -/
def DoorSide.tick (r : DoorSide) : DoorSide :=
  { r with ackTimer := Timer.tick r.ackTimer, closeTimer := Timer.tick r.closeTimer, retryTimer := Timer.tick r.retryTimer }

/-- One millisecond of both sides of a car. -/
def tickSides (p : PerSide DoorSide) : PerSide DoorSide := ⟨p.left.tick, p.right.tick⟩

/-- One millisecond of a boarding window. -/
def Window.tick (w : Window) : Window := { w with dwell := Timer.tick w.dwell }

/-- One millisecond of an admission. -/
def Admission.tick (a : Admission) : Admission := { a with deadline := Timer.tick a.deadline }

/-- One millisecond of a gate record. -/
def GateRec.tick (g : GateRec) : GateRec :=
  { g with queryTimer := Timer.tick g.queryTimer, admission := g.admission.map Admission.tick }

/-- One millisecond of an outstanding poll. -/
def Poll.tick (p : Poll) : Poll := { p with timer := Timer.tick p.timer }

/-- One millisecond of the gate loop. -/
def GateLoop.tick (l : GateLoop) : GateLoop :=
  { l with gates := l.gates.map GateRec.tick, poll := l.poll.map Poll.tick,
           windows := ⟨l.windows.g1.tick, l.windows.g2.tick, l.windows.g3.tick, l.windows.g4.tick⟩ }

/-- One millisecond of the supervision timer. -/
def SupTimer.tick : SupTimer → SupTimer
  | .running n => .running (n - 1)
  | .notStarted => .notStarted
  | .stopped => .stopped

/-- One millisecond of the Line Mode Unit. -/
def LineMode.tick (l : LineMode) : LineMode := { l with warmTimer := Timer.tick l.warmTimer, supTimer := l.supTimer.tick }

/-- A millisecond passes; nothing runs while the external reset line holds the device (R181). -/
def tick (s : State) : State :=
  match s.inReset with
  | some _ => s
  | none =>
    { s with
      bsq := s.bsq.tick
      clu := { s.clu with recs := ⟨s.clu.recs.a.tick, s.clu.recs.b.tick⟩ }
      dru := { s.dru with sides := ⟨tickSides s.dru.sides.a, tickSides s.dru.sides.b⟩ }
      glm := s.glm.tick
      lmu := s.lmu.tick
      slp := { s.slp with gap := Timer.tick s.slp.gap } }

end Sys2Proof.Machine
end

