-- ==== Sys2Proof/Safety.lean ====
section
/-! DEFINITION. The terms that claims use: when the device listens to a request, the state after a reply, and the laws that the
manual says each block keeps. -/

namespace Sys2Proof.Machine

/-! ## Requests -/

/-- A request that arrives now is examined at once: the device runs, no RESTART has been accepted, and a place of the receive
buffer is free (R181, R187, R189). -/
abbrev State.listening (s : State) : Prop :=
  s.inReset = none ∧ s.slp.restarting = false ∧ s.slp.places < Config.bufferPlaces

/-- The state in which a request's handling takes place: its frame has been received (R184, R187). -/
def State.heard (s : State) : State := { s with overrun := false, slp := s.slp.received }

/-- The state after a reply is made for a request of a kind with a tag (R189, R194). -/
def State.replied (s : State) (tag : Byte) (kind : ReqKind) (a : Answer) : State :=
  { s with slp := s.slp.answer false { tag := tag, kind := kind.code, answer := a } }

/-- The device runs: the external reset line does not hold it (R181). -/
abbrev State.isRunning (s : State) : Prop := s.inReset = none

/-! ## Laws of the blocks -/

/-- SB is commanded RELEASE only while all four sides are SECURED and both cars FRESH (R73). -/
abbrev State.interlocked (s : State) : Prop := (s.brake .sb).cmd = .release → s.interlockHolds = true

/-- While the emergency latch is set, EB is commanded APPLY (R78). -/
abbrev State.latchHolds (s : State) : Prop := s.bsq.latch.isSome = true → (s.brake .eb).cmd = .apply

/-- While POS, LINK_A or LINK_B is over threshold the mode is not SERVICE (R175). -/
abbrev State.unforced (s : State) : Prop := s.lmu.mode = .service → s.lmu.health.forcing.any = false

/-- The haulage states in which the drive reference may differ from 0 (R41). -/
def HState.drives : HState → Bool
  | .motoring | .approaching | .creeping => true
  | .held | .releasing | .berthing | .stopping => false

/-- The drive reference and the trip records as chapter 2 keeps them: the reference is 0 outside MOTORING, APPROACHING and
CREEPING (R41), is 0 while a side is not SECURED and never above v_perm (R37); the berth record is off stop while moving (R25);
and in INIT, PARKED and WARMING the haulage is HELD (R30, R168). -/
abbrev State.haulageLaw (s : State) : Prop :=
  (s.hac.state.drives = false → s.hac.vRef = 0 ∧ s.hac.ramp = false)
    ∧ (s.hac.vRef ≠ 0 → s.allSecured = true)
    ∧ s.hac.vRef ≤ s.osp.vPerm
    ∧ (s.hac.state ≠ .held → s.hac.berth = .offStop)
    ∧ (s.lmu.mode = .init ∨ s.lmu.mode = .parked ∨ s.lmu.mode = .warming → s.hac.state = .held)

/-- The trip plan holds at most 8 entries, none equal to the one before it (R26). -/
abbrev Haulage.planLaw (h : Haulage) : Prop := h.plan.length ≤ Config.planPlaces ∧ h.plan.IsChain (· ≠ ·)

/-- The TSR list: at most 8 entries, ids 1 to 255 and unique, start before end, speed at least 100, in ascending order of start
and then of id (R64). -/
abbrev tsrLaw (l : List Tsr) : Prop :=
  l.length ≤ Config.tsrPlaces
    ∧ (l.map Tsr.id).Nodup
    ∧ l.Pairwise (fun y z => y.start < z.start ∨ (y.start = z.start ∧ y.id < z.id))
    ∧ ∀ z ∈ l, 1 ≤ z.id ∧ z.id ≤ 255 ∧ z.start < z.stop ∧ 100 ≤ z.speed

/-- Rides and loaded rides of an entry are as its kind asks: MULTI holds both, rides + held within the loaded rides; GROUP holds
a party size of 2 to 12; the others hold neither (R126). -/
def PassEntry.ridesLaw (e : PassEntry) : Bool :=
  match e.kind, e.rides, e.loaded with
  | .multi, some n, some m => decide (n + e.held ≤ m)
  | .party, some n, none => decide (2 ≤ n ∧ n ≤ 12)
  | .single, none, none => true
  | .period, none, none => true
  | .staff, none, none => true
  | _, _, _ => false

/-- An entry of the Pass Table as R126 keeps it: its rides, at most 12 persons held, CONSUMED only for SINGLE and GROUP, and a
removal mark only while persons are held. -/
abbrev PassEntry.law (e : PassEntry) : Prop :=
  1 ≤ e.id ∧ e.ridesLaw = true ∧ e.held ≤ 12 ∧ (e.state = .consumed → e.kind.consumes = true)
    ∧ (e.removal = true → e.held ≠ 0)

/-- The Pass Table: at most 4,096 entries, no two with one id, each as R126 keeps it. -/
abbrev PassTable.law (t : PassTable) : Prop :=
  t.entries.length ≤ Config.passPlaces ∧ t.entries.Pairwise (fun a b => a.id < b.id) ∧ ∀ e ∈ t.entries, e.law

/-- The bounds of the link's places, lists and counts (R187, R188, R190, R191); an idle transmitter has nothing waiting (R194). -/
abbrev Link.law (l : Link) : Prop :=
  l.places ≤ Config.bufferPlaces ∧ l.overloads ≤ Config.overloadPlaces ∧ l.queue.length ≤ Config.queuePlaces
    ∧ l.lost ≤ 255 ∧ (l.sending = none → l.waiting = [] ∧ l.queue = [])

/-- The alarm route holds at least one destination (R100). -/
abbrev AlarmRoute.law (r : AlarmRoute) : Prop := r.isEmpty = false

/-- aboard_min ≤ aboard_max for both cars (R159). -/
abbrev State.tallyLaw (s : State) : Prop :=
  s.tally.a.aboardMin ≤ s.tally.a.aboardMax ∧ s.tally.b.aboardMin ≤ s.tally.b.aboardMax

/-- The parked variant is present in PARKED alone, the warming target in WARMING alone, and the warming timer runs in WARMING
only (R165, R171, R172). -/
abbrev LineMode.law (l : LineMode) : Prop :=
  (l.variant.isSome = true ↔ l.mode = .parked) ∧ (l.target.isSome = true ↔ l.mode = .warming)
    ∧ (l.warmTimer.isSome = true → l.mode = .warming)

/-- The gate records stand in ascending address order and the cycle counter is below 8 (R142, R144). -/
abbrev GateLoop.law (l : GateLoop) : Prop :=
  (l.gates.map GateRec.address).Pairwise (· < ·) ∧ l.cycle < 8

/-- The configuration as the loads accept it: every line parameter within its range (R3), segments in ascending order of start,
at most 32 of them, 6 stops and 16 markers, and no two stops with one index nor markers with one id (R5, R6, R7). -/
abbrev State.configLaw (s : State) : Prop :=
  (∀ p ∈ s.line, firstFault (lineChecks p) = none)
    ∧ s.segs.length ≤ 32 ∧ s.segs.Pairwise (fun g h => g.start ≤ h.start)
    ∧ s.stops.length ≤ 6 ∧ (s.stops.map StopRec.index).Nodup
    ∧ s.markers.length ≤ 16 ∧ (s.markers.map Marker.id).Nodup

/-! ## What a statement says of the surroundings of a command -/

/-- Two states agree but for the reports and replies of the link. -/
abbrev State.sameBut (s t : State) : Prop := t = { s with slp := t.slp }

/-- No boarding window is OPEN. -/
abbrev State.noneOpen (s : State) : Prop := ∀ g, (s.window g).state ≠ .opened

/-- Nothing is set off by a change of a door side or of a freshness: SB is commanded APPLY, no window is OPEN, and the line is
not WARMING (R73, R149, R171). -/
abbrev State.undisturbed (s : State) : Prop := (s.brake .sb).cmd = .apply ∧ s.noneOpen ∧ s.lmu.mode ≠ .warming

/-- An emergency stop sets off nothing but itself: the cars run, no test does, the line is not PARKED, every side is SECURED and
no window is OPEN (R79, R86, R115, R149, R170). -/
abbrev State.plain (s : State) : Prop :=
  s.ptr.standstill = false ∧ s.bsq.test = none ∧ s.lmu.mode ≠ .parked ∧ s.allSecured = true ∧ s.noneOpen

/-- The windows after a resolution at a gate of a group (R149): a SEALING window of the group with nothing left to resolve is SEALED. -/
def State.windowsResolved (s t : State) (g : Group) : PerGroup Window :=
  if (s.window g).state = .sealing ∧ t.querying g = false ∧ t.pendingOver g = 0 then
    s.glm.windows.set g { s.window g with state := .sealed }
  else s.glm.windows

/-- The state in which an OPEN window leaves a sealing (R149): SEALED at once where no gate of the group queries or has persons
pending, else SEALING. -/
def State.sealingEnd (s : State) (g : Group) : WindowState :=
  if s.querying g || s.pendingOver g != 0 then .sealing else .sealed

/-- A close order from auto-close or a mode change takes a side into CLOSING (R115): released and not in a retry wait, or UNPROVEN
with its car FRESH. -/
def State.takesClose (s : State) (c : Car) (d : Side) : Bool :=
  match (s.side c d).state with
  | .releasePending => true
  | .released | .opened => (s.side c d).retryTimer.isNone
  | .unproven => s.isFresh c
  | .secured | .closing | .fault => false

/-- A side after a close order that takes it into CLOSING (R115). -/
def State.closedSide (s : State) (c : Car) (d : Side) : DoorSide :=
  { s.side c d with
    state := .closing, retries := 0, ackTimer := none, retryTimer := none, faultCause := none
    closeTimer := s.line.map (fun p => p.tClose * 1000) }

/-- With auto-close on, a window that is SEALED has ordered its platform sides closed by R115's table, each other side staying as it
was (R115, R149). Another OPEN window, if there is one, serves the other car and has a side released, so that no close seals it. -/
abbrev State.closesOrdered (s t : State) (g : Group) : Prop :=
  s.sealingEnd g = .sealed → s.param LineFields.autoClose = 1 →
    ∀ c i, (s.window g).car = some c → (s.window g).stop = some i →
      (∀ h, h ≠ g → (s.window h).state = .opened → (s.window h).car = some c.other ∧ s.anyReleased c.other = true) →
      (∀ d, t.side c d = if d ∈ s.platformSides c i ∧ s.takesClose c d = true then s.closedSide c d else s.side c d) ∧
        ∀ d, t.side c.other d = s.side c.other d

/-- An increment of a health counter by n crosses no threshold, so that it is counted and nothing else (R175, R179). -/
abbrev State.uncrossed (s : State) (m : CounterName) (n : Nat) : Prop :=
  2 ^ (s.lmu.health.get m).exp ≤ (s.lmu.health.get m).count ∨ (s.lmu.health.get m).count + n < 2 ^ (s.lmu.health.get m).exp

/-- A health counter after such an increment (R179). -/
def State.counted (s : State) (m : CounterName) (n : Nat) : State :=
  { s with lmu := { s.lmu with
    health := s.lmu.health.set m { s.lmu.health.get m with count := min 65535 ((s.lmu.health.get m).count + n) } } }

/-- The tracker after the arithmetic of a sample with given switch readings and before its switches act (R10 to R15). -/
def State.sampled (s : State) (p : LineFields) (w : Switches) : Tracker := ((readSwitches w s).ptr.locate p).gauge p

/-- The state after a sample whose tracker ends at q, on which no other block acts; its speed joins the kept speeds (R77). -/
def State.keeping (s : State) (q : Tracker) : State :=
  { s with overrun := false, ptr := q, bsq := { s.bsq with vHist := (q.vMeas :: s.bsq.vHist).take 21 } }

/-- A sample that runs with loaded parameters on a line that is not known to be at rest and stays so: the sample is an ordinary
one, the latest sample was above v_still, and the stop record and the test are empty (R11, R15). -/
abbrev State.samples (s : State) (p : LineFields) : Prop :=
  s.isRunning ∧ s.line = some p ∧ s.ptr.first = .ordinary ∧ s.bsq.stop = none ∧ s.bsq.test = none ∧ s.ptr.standstill = false ∧
    s.ptr.still = none ∧ 0 < p.tStill

/-- A burst of a running FRESH car reads as the frame x that follows its last one in sequence, with the crew key and the rail brake as
they were (R91, R93, R95, R97). -/
abbrev State.nextFrame (s : State) (c : Car) (bytes : List Byte) (x : CarStatus) : Prop :=
  (s.car c).running = true ∧ statusOf? c bytes = some x ∧ (s.car c).freshness = .fresh ∧
    (s.car c).lastSeq.any (fun last => decide (last < 256 ∧ x.seq = (last + 1) % 256)) = true ∧
    (s.car c).status.any (fun b => x.crewKey == b.crewKey && x.rail == b.rail) = true

/-- Every side of a car is SECURED and the frame shows it locked. -/
abbrev State.provenBy (s : State) (c : Car) (x : CarStatus) : Prop :=
  ∀ d, (s.side c d).state = .secured ∧ (x.door d).leaf = .locked

/-- The record of a car after an accepted frame x that follows in sequence, answered by a command frame (R92, R93). -/
def State.answered (s : State) (c : Car) (x : CarStatus) : State :=
  s.setCar c { s.car c with
    lastSeq := some x.seq, discards := 0, status := some x, since := some 0, accepted := min 65535 ((s.car c).accepted + 1)
    lastSent := s.levels c, timer := some 100 }

/-- The drive reference is 0 and has been sent (R37, R41). -/
def State.referenceZero (s : State) : State :=
  { s with hac := { s.hac with vRef := 0, word := some (driveWordOf { s with hac := { s.hac with vRef := 0 } }) } }

/-- The gate loop polls gates whose record a claim leaves alone: the flag that says whether a poll has carried the verdict. -/
def GateRec.unpolled (g : GateRec) : GateRec := { g with carried := false }

/-! ## Boarding -/

/-- A window is OPEN or SEALING. -/
def Window.busy (w : Window) : Bool := w.state == .opened || w.state == .sealing

/-- Persons pending at the gates whose admission is for a car (R159). -/
def State.pendingFor (s : State) (c : Car) : Nat :=
  ((s.glm.gates.filter (fun g => g.admission.any (fun a => a.car == c))).map GateRec.pending).sum

/-- The seat law of the Boarding Tally (R159): in_flight is the sum of the persons pending for the car, and aboard_max + in_flight
never exceeds C, which counts as 0 while it is unknown. -/
abbrev State.seatLaw (s : State) : Prop :=
  ∀ c, (s.tallyOf c).inFlight = s.pendingFor c ∧ (s.tallyOf c).aboardMax + (s.tallyOf c).inFlight ≤ s.capacity

/-- The gates and their windows (R143, R149, R152, R153): a READY gate's window is OPEN; a query timer runs in QUERY only; a gate with
an admission is PASSING with persons pending, and its window is OPEN or SEALING and serves the admission's car. -/
abbrev State.gateWindowLaw (s : State) : Prop :=
  ∀ g ∈ s.glm.gates, (g.state = .ready → (s.window g.group).state = .opened) ∧ (g.queryTimer.isSome = true → g.state = .query) ∧
    ∀ a ∈ g.admission, g.state = .passing ∧ 1 ≤ a.pending ∧ (s.window g.group).busy = true ∧ (s.window g.group).car = some a.car

/-- The circumstances of boarding and release (R108 to R111, R148, R149, R168): a window is OPEN or SEALING only at a stop with the
haulage HELD, in a mode other than INIT, PARKED and WARMING, and in EVACUATION only after a trip; a side waits for its
acknowledgement in SERVICE or REDUCED at a stop, or after an evacuation release; TRIPPED comes with the latch; and a brake test runs
with the haulage HELD. -/
abbrev State.boardingLaw (s : State) : Prop :=
  (∀ g, (s.window g).busy = true → s.hac.state = .held ∧ s.hac.berth.stop.isSome = true ∧ s.lmu.mode ≠ .init ∧
    s.lmu.mode ≠ .parked ∧ s.lmu.mode ≠ .warming ∧ (s.lmu.mode = .evacuation → s.bsq.latch.isSome = true)) ∧
  (∀ c d, (s.side c d).state = .releasePending →
    ((s.lmu.mode = .service ∨ s.lmu.mode = .reduced) ∧ s.hac.state = .held ∧ s.hac.berth.stop.isSome = true) ∨
      (s.lmu.mode = .evacuation ∧ (s.side c d).kind = some .evac)) ∧
  (s.lmu.mode = .tripped → s.bsq.latch.isSome = true) ∧
  (s.bsq.test.isSome = true → s.hac.state = .held)

/-- What an emergency stop of a cause leaves behind (R39, R74, R78): the record and the latch, both brakes commanded APPLY, the
haulage STOPPING or HELD, the mode TRIPPED; and nothing outside the brakes, the haulage, the mode and the reports. -/
abbrev State.emergencyTaken (s t : State) (cause : StopCause) : Prop :=
  t.bsq.stop = some { kind := .emergency, cause := cause, x := s.ptr.x, vMeas := s.ptr.vMeas, check := .absent } ∧
    t.bsq.latch = some (s.bsq.latch.getD cause) ∧ (∀ b, (t.brake b).cmd = .apply) ∧ t.lmu.mode = .tripped ∧
    (s.isHeld = true → t.hac.state = .held) ∧ (s.moving = true → t.hac.state = .stopping) ∧
    t.ptr = s.ptr ∧ t.clu = s.clu ∧ t.dru = s.dru ∧ t.ptb = s.ptb ∧ t.glm = s.glm ∧ t.tally = s.tally ∧ t.line = s.line ∧
    t.segs = s.segs ∧ t.stops = s.stops ∧ t.markers = s.markers

end Sys2Proof.Machine
end

