-- ==== Sys2Proof/WellFormed.lean ====
section
/-! DEFINITION. Well-formed commands: what can arrive at a port at all. Every field fits the bytes that carry it and every list
fits the largest payload; a field out of its range is still well formed, since the device answers it (R197). -/

namespace Sys2Proof

/-- A number fits n bytes. -/
def fits (n v : Nat) : Bool := decide (v < 256 ^ n)

/-- A count and records of a size fit the largest payload (R185). -/
def listFits (size count : Nat) : Bool := decide (1 + size * count ≤ Config.maxPayload)

/-- The fields of a segment record fit its 56 bits (R198). -/
def SegmentFields.wellFormed (r : SegmentFields) : Bool :=
  decide (r.start < 2 ^ 22) && decide (r.vLimit < 2 ^ 11) && decide (r.vCruise < 2 ^ 11) && decide (r.sinePm < 2 ^ 10)
    && decide (r.walkway < 2 ^ 2)

/-- The fields of one car in a stop record fit their bytes. -/
def StopCarFields.wellFormed (c : StopCarFields) : Bool := fits 1 c.sides && fits 1 c.group && fits 1 c.terminal

/-- The fields of a stop record fit their bytes (R198). -/
def StopFields.wellFormed (r : StopFields) : Bool :=
  fits 1 r.index && fits 4 r.pos && r.carA.wellFormed && r.carB.wellFormed

/-- The fields of a marker record fit their bytes (R198). -/
def MarkerFields.wellFormed (r : MarkerFields) : Bool := fits 1 r.id && fits 4 r.pos && fits 1 r.car

/-- The fields of a gate record fit their bytes (R198). -/
def GateFields.wellFormed (r : GateFields) : Bool := fits 1 r.address && fits 1 r.group

/-- The fields of a pass entry fit their bytes (R198). -/
def PassFields.wellFormed (r : PassFields) : Bool :=
  fits 4 r.id && fits 1 r.kind && fits 1 r.state && fits 1 r.ridesPresent && fits 1 r.rides && fits 1 r.fromPresent
    && fits 2 r.validFrom && fits 1 r.toPresent && fits 2 r.validTo

/-- The fields of CONFIGURE_LINE that two bytes carry (R198). -/
def LineFields.words (f : LineFields) : List Nat :=
  [f.vLineMax, f.vReduced, f.vCreep, f.dCreep, f.berthTol, f.platWindow, f.aAcc, f.aDec, f.aSs, f.aEb, f.aFloor, f.tR,
   f.overrun, f.u0, f.uPm, f.uMax, f.mP, f.capacity, f.guard, f.mSPm, f.mEPm, f.mSAbs, f.mEAbs, f.vRail, f.aCheck, f.tCheck,
   f.vStill, f.tStill, f.tSbResp, f.tEbResp, f.scaleP, f.scaleC, f.tEnc, f.wQuiet, f.wCorr, f.dwell, f.tPass, f.tClose,
   f.passback, f.tSup, f.tWarm, f.tTest]

/-- The fields of CONFIGURE_LINE fit their bytes (R198). -/
def LineFields.wellFormed (f : LineFields) : Bool :=
  fits 4 f.lineLength && fits 4 f.mEq && f.words.all (fits 2) && fits 1 f.alarmAction && fits 1 f.autoClose
    && fits 1 f.queryEnable

/-- A command that can arrive (chapters 10 and 11). -/
def Instr.wellFormed : Instr → Bool
  | .configureLine _ f => f.wellFormed
  | .loadSegments _ l => listFits 7 l.length && l.all SegmentFields.wellFormed
  | .loadStops _ l => listFits 11 l.length && l.all StopFields.wellFormed
  | .loadMarkers _ l => listFits 6 l.length && l.all MarkerFields.wellFormed
  | .planSet _ l => listFits 1 l.length && l.all (fits 1)
  | .planAppend _ i => fits 1 i
  | .tsrAdd _ id lo hi v => fits 1 id && fits 4 lo && fits 4 hi && fits 2 v
  | .tsrRemove _ id => fits 1 id
  | .brakeTest _ b => fits 1 b
  | .alarmClear _ c => fits 1 c
  | .alarmRouteSet _ d => fits 1 d
  | .alarmRouteClear _ d => fits 1 d
  | .doorRelease _ c d => fits 1 c && fits 1 d
  | .evacRelease _ c d => fits 1 c && fits 1 d
  | .doorClose _ c d => fits 1 c && fits 1 d
  | .passInsert _ l => listFits 14 l.length && l.all PassFields.wellFormed
  | .passDelete _ l => listFits 4 l.length && l.all (fits 4)
  | .passBlock _ l => listFits 4 l.length && l.all (fits 4)
  | .passUnblock _ l => listFits 4 l.length && l.all (fits 4)
  | .passRead _ id => fits 4 id
  | .setDay _ d => fits 2 d
  | .loadGates _ l => listFits 2 l.length && l.all GateFields.wellFormed
  | .boardingExtend _ g sec => fits 1 g && fits 2 sec
  | .boardingClose _ g => fits 1 g
  | .ticketAnswer _ g q v present e => fits 1 g && fits 1 q && fits 1 v && fits 1 present && e.wellFormed
  | .gateAccess _ slot g c arg => fits 1 slot && fits 1 g && fits 1 c && fits 1 arg
  | .setMode _ m a b => fits 1 m && fits 1 a && fits 1 b
  | .supervise _ c => fits 1 c
  | .healthSet _ c n e => fits 1 c && fits 2 n && fits 1 e
  | .reportMaskSet _ c => fits 2 c
  | .reportMaskClear _ c => fits 2 c
  | .dwellExpiry g => decide (1 ≤ g ∧ g ≤ 4)
  | .queryTimeout g => decide (1 ≤ g ∧ g ≤ 16)
  | .passageDeadline g => decide (1 ≤ g ∧ g ≤ 16)
  | .badLengthDiscard len => decide (Config.maxPayload < len.toNat)
  | .supervisoryFrame _ _ payload _ => decide (payload.length ≤ Config.maxPayload)
  | .powerOn | .resetLine | .resetLineAssert | .encoderCount _ _ _ | .positionSample _ _ _ _ | .driveReferenceUpdate _ _
  | .brakeContactChange _ _ _ | .brakeResponseTimeout _ | .decelerationCheckTimeout | .brakeTestTimerExpiry
  | .carStatusFrame _ _ | .carCommandTimer _ | .carStaleTimeout _ | .carLostTimeout _ | .acknowledgementTimeout _ _
  | .closeTimeout _ _ | .retryTimerExpiry _ _ | .lineClockTick | .gateReply _ | .gateReplyTimeout | .warmingTimeout
  | .supervisionExpiry | .skippedByte _ | .frameGapTimeout | .transmitEnd | .positionRead _ | .planClear _ | .depart _
  | .stop _ | .haulageRead _ | .envelopeRead _ | .tripReset _ | .brakeRead _ | .carRead _ | .doorRead _ | .boardingRead _
  | .healthRead _ | .modeRead _ | .restart _ | .linkRead _ => true

end Sys2Proof
end

