-- ==== Sys2Proof/Certificates/Slice0/Obligations.lean ====
section
/-! DEFINITION. The statements for the provers: what the JK-240's rules say of its commands, one definition a statement. -/

section Slice0

open Sys2Proof Sys2Proof.Machine

/-! ## The machine -/

/-- Step on a queue runs exec on the command at its front with the queue's rest, and exec leaves that rest as it is. -/
def Obligations.FrontCommandRuns : Prop :=
  ∀ (c : Instr) (rest : List Instr) (s : State),
    step { s with pending := c :: rest } = exec c { s with pending := rest } ∧
      ∀ t, step { s with pending := c :: rest } = .next t → t.pending = rest

/-- An empty queue lets one millisecond pass (the model's choice, assumption log 2): each running timer goes down by one and stays at
0, the brakes' response timers, t_check and t_test, the command, door-side, dwell, query, passage, poll, warming, supervision and gap
timers; the time since each car's last accepted frame grows; and nothing else changes. -/
def Obligations.IdleMillisecond : Prop :=
  ∀ s : State, s.pending = [] → s.isRunning →
    let down (t : Option Nat) : Option Nat := t.map (· - 1)
    let brake (b : BrakeId) : BrakeRec := { s.brake b with timer := down (s.brake b).timer }
    let car (c : Car) : CarRec :=
      { s.car c with timer := down (s.car c).timer, since := (s.car c).since.map (fun n => min 65535 (n + 1)) }
    let side (c : Car) (d : Side) : DoorSide := { s.side c d with
      ackTimer := down (s.side c d).ackTimer, closeTimer := down (s.side c d).closeTimer
      retryTimer := down (s.side c d).retryTimer }
    let window (g : Group) : Window := { s.window g with dwell := down (s.window g).dwell }
    step s = .next { s with
      bsq := { s.bsq with
        recs := ⟨brake .sb, brake .eb⟩
        stop := s.bsq.stop.map (fun r => { r with check := match r.check with
          | .running t => .running (down t)
          | c => c })
        test := s.bsq.test.map (fun t => { t with timer := down t.timer }) }
      clu := { s.clu with recs := ⟨car .a, car .b⟩ }
      dru := { s.dru with sides := ⟨⟨side .a .left, side .a .right⟩, ⟨side .b .left, side .b .right⟩⟩ }
      glm := { s.glm with
        gates := s.glm.gates.map (fun g => { g with
          queryTimer := down g.queryTimer, admission := g.admission.map (fun a => { a with deadline := down a.deadline }) })
        poll := s.glm.poll.map (fun p => { p with timer := down p.timer })
        windows := ⟨window .g1, window .g2, window .g3, window .g4⟩ }
      lmu := { s.lmu with
        warmTimer := down s.lmu.warmTimer
        supTimer := match s.lmu.supTimer with
          | .running n => .running (n - 1)
          | t => t }
      slp := { s.slp with gap := down s.slp.gap } }

/-- While the external reset line holds the device no command but the resets and the brake contacts changes anything (the
model's reading of R181, assumption log 4). -/
def Obligations.HeldDeviceIgnoresCommands : Prop :=
  ∀ (c : Instr) (s : State) (cause : ResetCause), s.inReset = some cause →
    c ≠ .powerOn → c ≠ .resetLine → (∀ b x y, c ≠ .brakeContactChange b x y) →
    exec c s = .next { s with overrun := false }

/-- The three resets of R181 as commands: POWER_ON and RESET_LINE give every block its reset values with the configuration
cleared and the START_UP report first, the brake records following the contacts (R89) and the queue of waiting commands kept;
RESET_LINE_ASSERT gives the reset values and holds the device, and a POWER_ON while it is held gives cause POWER_ON at the
release. The contacts and the queue kept and START_UP begun at once are assumption log 22 (read from the spec), the values of the
fields that the reset tables do not name log 6 (the model's choice), a RESET_LINE without an assertion and a POWER_ON while held log 42. -/
def Obligations.ResetsGiveResetValues : Prop :=
  let blank (cause : ResetCause) (s : State) : State :=
    { State.reset with
      bsq := Brakes.atReset s.bsq.contacts none
      lmu := { LineMode.reset with cause := cause }
      slp := { State.reset.slp with sending := some (.report 0 (.startUp { StartUpReport.powerOn with cause := cause })) }
      pending := s.pending }
  ∀ s : State,
    (s.inReset = none → exec .powerOn s = .next (blank .powerOn s)) ∧
    (s.inReset = none → exec .resetLine s = .next (blank .resetLine s)) ∧
    (∀ cause, cause ≠ .restart → s.inReset = some cause → exec .resetLine s = .next (blank cause s)) ∧
    (s.inReset = none →
      exec .resetLineAssert s = .next { blank .resetLine s with slp := .reset, inReset := some .resetLine }) ∧
    (∀ cause, s.inReset = some cause →
      exec .powerOn s = .next { blank .powerOn s with slp := .reset, inReset := some .powerOn }) ∧
    (∀ cause, s.inReset = some cause → exec .resetLineAssert s = .next { s with overrun := false })

/-- State.reset holds the values that the reset tables give the blocks after a POWER_ON (R21, R46, R68, R103, R125, R141, R164,
R183, R196). That the START_UP report (R181) has begun on the idle transmitter (R194) is assumption log 22. -/
def Obligations.ResetStateIsAsStated : Prop :=
  let s := State.reset
  s.ptr.countP = 0 ∧ s.ptr.countC = 0 ∧ s.ptr.offsetP = 0 ∧ s.ptr.offsetC = 0 ∧ s.ptr.sm = 0 ∧ s.ptr.u = 0 ∧ s.ptr.vMeas = 0 ∧
    s.ptr.standstill = false ∧ s.ptr.validity = .lost ∧ s.ptr.beyond = false ∧ s.ptr.lastPassage = ⟨none, none⟩ ∧
    s.hac.state = .held ∧ s.hac.berth = { stop := none, onA := false, onB := false } ∧ s.hac.plan = [] ∧ s.hac.legMark = false ∧
    s.hac.dest = none ∧ s.comingDir = .up ∧ s.hac.vRef = 0 ∧ s.hac.ramp = false ∧ s.hac.ready = true ∧ s.hac.fault = false ∧
    s.osp.level = .none ∧ s.osp.vPerm = 0 ∧ s.osp.snapshot = none ∧ s.osp.tsrs = [] ∧ s.osp.acc = 0 ∧
    (∀ b, (s.brake b).cmd = .apply) ∧ s.bsq.stop = none ∧ s.bsq.latch = none ∧ s.bsq.railTrip = false ∧ s.bsq.test = none ∧
    (∀ c, (s.car c).freshness = .never ∧ (s.car c).status = none ∧ (s.car c).alarm = false) ∧
    s.clu.route = { report := true, lower := false, upper := false } ∧
    (∀ c d, (s.side c d).state = .unproven) ∧ s.ptb = { entries := [], day := 0, clock := 0 } ∧
    s.glm.running = true ∧ s.glm.cycle = 0 ∧ (∀ g, (s.window g).state = .shut) ∧
    s.lmu.mode = .init ∧ s.lmu.expected = .c3C ∧ s.lmu.supTimer = .notStarted ∧ s.lmu.lost = false ∧
    (∀ n, s.lmu.health.get n = { count := 0, exp := 4 }) ∧ s.lmu.cause = .powerOn ∧
    s.slp.queue = [] ∧ s.slp.mask = 0 ∧ s.slp.lost = 0 ∧ s.slp.waiting = [] ∧ s.slp.sending = some (.report 0 (.startUp .powerOn)) ∧
    s.line = none ∧ s.segs = [] ∧ s.stops = [] ∧ s.markers = [] ∧ s.pending = []

/-- The reset that follows an accepted RESTART takes place at the end of the transmission of its reply and keeps the line
parameters, the three track tables, the gate list, the Pass Table and the health counters (R182). START_UP on the line at
once is assumption log 22, the values of the fields that the reset tables do not name log 6. -/
def Obligations.RestartKeepsConfiguration : Prop :=
  ∀ (s : State) (tag : Byte), s.isRunning →
    s.slp.sending = some (.reply { tag := tag, kind := ReqKind.restart.code, answer := .accepted .none }) →
    ∃ t, exec .transmitEnd s = .next t ∧
      t.line = s.line ∧ t.segs = s.segs ∧ t.stops = s.stops ∧ t.markers = s.markers ∧ t.ptb = s.ptb ∧
      t.glm.gates.map (fun g => (g.address, g.group)) = s.glm.gates.map (fun g => (g.address, g.group)) ∧
      t.lmu = { LineMode.reset with cause := .restart, health := s.lmu.health } ∧
      t.hac = .reset ∧ t.osp = .reset ∧ t.clu = .reset ∧ t.dru = .reset ∧
      t.slp.waiting = [] ∧ t.slp.unhandled = [] ∧ t.slp.queue = [] ∧ t.slp.lost = 0 ∧ t.slp.mask = 0 ∧
      (∃ r, t.slp.sending = some (.report 0 (.startUp r)) ∧ r.cause = .restart ∧ r.loaded = s.loaded ∧
        r.segments = s.segs.length ∧ r.stops = s.stops.length ∧ r.markers = s.markers.length ∧ r.gates = s.glm.gates.length ∧
        r.places = s.ptb.entries.length ∧ r.day = s.ptb.day ∧ r.expected = .c3C ∧ r.health = s.lmu.health)

/-! ## The wire -/

/-- Every request that fits its bytes is read back from its payload (R197, R198), and its kind from its kind byte. -/
def Obligations.RequestRoundTrip : Prop :=
  ∀ (i : Instr) (w : WireRequest), i.wellFormed = true → wireOf i = some w →
    reqKindOf? w.kind.code = some w.kind ∧ requestOf w.kind w.tag w.payload = some i

/-- A supervisory frame with a good check that carries a request does what the request's own command does (R185 to R187), a
POSITION_READ frame answering with the position; a frame of another kind is refused BAD_KIND with the kind, and one whose length does
not fit its kind BAD_LENGTH with the length, each counted (R186). -/
def Obligations.FrameBecomesItsRequest : Prop :=
  (∀ (i : Instr) (w : WireRequest) (s : State), i.wellFormed = true → wireOf i = some w →
    exec (.supervisoryFrame w.kind.code w.tag w.payload (frameCheck w.kind.code w.tag w.payload)) s = exec i s) ∧
  (∀ (kind tag : Byte) (payload : List Byte) (s : State), s.listening → payload.length ≤ 240 →
    let sent : Host.Outcome State Fault Refusal := exec (.supervisoryFrame kind tag payload (frameCheck kind tag payload)) s
    let refused (r : Reason) (d : Detail) : Host.Outcome State Fault Refusal :=
      let totals : LinkTotals := { s.slp.received.totals with badRefusals := min 65535 (s.slp.totals.badRefusals + 1) }
      .next { s.heard with
        slp := Link.answer { s.slp.received with totals := totals } false { tag := tag, kind := kind, answer := .refused r d } }
    (reqKindOf? kind = some .positionRead → payload = [] →
      sent = .next (s.heard.replied tag .positionRead (.accepted (.position s.positionData)))) ∧
    (reqKindOf? kind = none → sent = refused .badKind (.kind kind)) ∧
    (∀ k, reqKindOf? kind = some k → requestOf k tag payload = none → sent = refused .badLength (.length payload.length)))

/-- The bytes of a whole frame, arriving one by one at a hunting receiver, do what the frame does (R184, R185). That SKIPPED_BYTE gives the
receiver each byte, whatever its framing state, is assumption log 23. -/
def Obligations.BytesSpellTheFrame : Prop :=
  ∀ (kind tag : Byte) (payload : List Byte) (s : State), payload.length ≤ 240 → s.isRunning → s.slp.receiver = .hunting →
    (frameBytes kind tag payload).foldl
        (fun (o : Host.Outcome State Fault Refusal) b => match o with
          | .next u => exec (.skippedByte b) u
          | .fault f => .fault f
          | .refused r => .refused r) (.next s)
      = exec (.supervisoryFrame kind tag payload (frameCheck kind tag payload)) s

/-! ## Laws that every step keeps -/

/-- The Pass Table stays as R126 keeps it: at most 4,096 entries, no two with one id, and each entry's rides, held count, state
and mark as its kind asks. -/
def Obligations.PassTableLawKept : Prop := ∀ s t : State, s.ptb.law → step s = .next t → t.ptb.law

/-- SB stays commanded RELEASE only while all four sides are SECURED and both cars FRESH (R73). -/
def Obligations.InterlockLawKept : Prop := ∀ s t : State, s.interlocked → step s = .next t → t.interlocked

/-- While the emergency latch is set EB stays commanded APPLY (R78). -/
def Obligations.EmergencyLatchHoldsBrake : Prop := ∀ s t : State, s.latchHolds → step s = .next t → t.latchHolds

/-- While POS, LINK_A or LINK_B is over threshold the mode never is SERVICE (R175). -/
def Obligations.ForcedLawKept : Prop := ∀ s t : State, s.unforced → step s = .next t → t.unforced

/-- The drive reference stays 0 outside MOTORING, APPROACHING and CREEPING and while a side is not SECURED, never above v_perm;
the berth record is off stop while moving; INIT, PARKED and WARMING keep the haulage HELD (R25, R30, R37, R41). -/
def Obligations.DriveReferenceLawKept : Prop := ∀ s t : State, s.haulageLaw → step s = .next t → t.haulageLaw

/-- The trip plan keeps at most 8 entries, none equal to the one before it (R26); the TSR list keeps its bounds, its unique ids and
its order (R64). -/
def Obligations.PlanAndTsrLawsKept : Prop :=
  ∀ s t : State, step s = .next t → (s.hac.planLaw → t.hac.planLaw) ∧ (tsrLaw s.osp.tsrs → tsrLaw t.osp.tsrs)

/-- The link keeps its bounds: 4 places, 8 refusals, 32 reports, a lost count of at most 255, and an idle transmitter has nothing
waiting (R187, R188, R190, R191, R194). -/
def Obligations.LinkBoundsKept : Prop := ∀ s t : State, s.slp.law → step s = .next t → t.slp.law

/-- The alarm route never is empty (R100), aboard_min never exceeds aboard_max (R159), and the variant, the target and the warming
timer are present in their modes only (R165, R171, R172). The seat law of R159, in_flight within C and the
sum of the persons pending, is stated in BoardingLawsKept. -/
def Obligations.RouteTallyAndModeLawsKept : Prop :=
  ∀ s t : State, step s = .next t →
    (s.clu.route.law → t.clu.route.law) ∧ (s.tallyLaw → t.tallyLaw) ∧ (s.lmu.law → t.lmu.law)

/-- The line parameters stay within R3's ranges, the three track tables within their bounds and order, and the gate records in
ascending address order (R3, R5, R6, R7, R142, R144). -/
def Obligations.ConfigAndGateLawsKept : Prop :=
  ∀ s t : State, step s = .next t → (s.configLaw → t.configLaw) ∧ (s.glm.law → t.glm.law)

/-- The state after reset keeps every one of these laws. -/
def Obligations.ResetKeepsLaws : Prop :=
  State.reset.ptb.law ∧ State.reset.interlocked ∧ State.reset.latchHolds ∧ State.reset.unforced ∧ State.reset.haulageLaw ∧
    State.reset.hac.planLaw ∧ tsrLaw State.reset.osp.tsrs ∧ State.reset.slp.law ∧ State.reset.clu.route.law ∧
    State.reset.tallyLaw ∧ State.reset.lmu.law ∧ State.reset.configLaw ∧ State.reset.glm.law

/-! ## The Position Tracker -/

/-- ENCODER_COUNT moves the signed 48-bit count of its encoder by its run of edges, upward or downward, and nothing else. -/
def Obligations.EncoderCountMoves : Prop :=
  ∀ (d : Dir) (n : Nat) (s : State), s.isRunning →
    let moved (v : BitVec 48) : BitVec 48 := if d = .up then v + BitVec.ofNat 48 n else v - BitVec.ofNat 48 n
    exec (.encoderCount .primary d n) s = .next { s with overrun := false, ptr := { s.ptr with countP := moved s.ptr.countP } } ∧
    exec (.encoderCount .check d n) s = .next { s with overrun := false, ptr := { s.ptr with countC := moved s.ptr.countC } }

/-- An ordinary sample in INIT or PARKED with the haulage HELD and no switch active: x and x_c from the offsets and the distance
terms, s_m, U, v_meas over 50 ms, the still run and standstill, and the kept speeds; nothing else changes. The still run's count of
5 ms a sample, a standstill kept where t_still is raised and the kept speeds are assumption log 16. -/
def Obligations.SampleComputesPosition : Prop :=
  ∀ (s : State) (p : LineFields), s.isRunning → s.line = some p → s.lmu.mode = .init ∨ s.lmu.mode = .parked →
    s.hac.state = .held → s.bsq.stop = none → s.bsq.test = none → s.ptr.first = .ordinary →
    let term (n : BitVec 48) (scale : Nat) : Int := n.toInt.sign * ((n.toInt.natAbs * scale / 1000 : Nat) : Int)
    let cur : DistanceTerms := { p := term s.ptr.countP p.scaleP, c := term s.ptr.countC p.scaleC }
    let hist := (cur :: s.ptr.hist).take 11
    let old := hist.getLast?.getD cur
    let v := 20 * max (cur.p - old.p).natAbs (cur.c - old.c).natAbs
    let sm := min 4000000 (s.ptr.sm + (cur.p - (s.ptr.hist.head?.map DistanceTerms.p).getD 0).natAbs)
    let still := if v ≤ p.vStill then some (match s.ptr.still with | some n => n + 5 | none => 0) else none
    let x := s.ptr.offsetP + cur.p
    let xc := s.ptr.offsetC + cur.c
    (x - xc).natAbs ≤ p.tEnc →
      exec (.positionSample false false false false) s = .next { s with
        overrun := false
        ptr := { s.ptr with
          x := x, xc := xc, sm := sm, u := min p.uMax (p.u0 + (sm * p.uPm + 999) / 1000), hist := hist, vMeas := v,
          still := still,
          standstill := match still with
            | some n => s.ptr.standstill || decide (p.tStill ≤ n)
            | none => false
          beyond := false, lower := false, upper := false, otLower := false, otUpper := false }
        bsq := { s.bsq with vHist := (v :: s.bsq.vHist).take 21 } }

/-- Homing at the first sample after a reset with exactly one terminal switch active (R21, R36): the position becomes the switch's
target, validity VALID, s_m 0 and U = U0; HELD at a stop that stands there, that stop becomes the berth and a plan head equal to it
is removed. Of two stops of one x_s, which R36 leaves open, the first in the order carried is the berth (assumption log 50, the
model's choice). -/
def Obligations.FirstSampleHomes : Prop :=
  ∀ (s : State) (p : LineFields) (upper : Bool), s.isRunning → s.line = some p → s.lmu.mode = .init ∨ s.lmu.mode = .parked →
    s.hac.state = .held → s.bsq.stop = none → s.bsq.test = none → s.ptr.first ≠ .ordinary →
    (s.ptr.offsetP + distanceTerm s.ptr.countP p.scaleP - (s.ptr.offsetC + distanceTerm s.ptr.countC p.scaleC)).natAbs ≤ p.tEnc →
    let target := if upper then p.lineLength else 0
    ∃ t, exec (.positionSample (!upper) upper false false) s = .next t ∧
      t.ptr.x = target ∧ t.ptr.xc = target ∧ t.ptr.validity = .valid ∧ t.ptr.sm = 0 ∧ t.ptr.u = p.u0 ∧
      t.ptr.offsetP + distanceTerm s.ptr.countP p.scaleP = target ∧ t.ptr.offsetC + distanceTerm s.ptr.countC p.scaleC = target ∧
      t.ptr.first = .ordinary ∧ t.ptr.vMeas = 0 ∧
      (∀ r, s.stops.find? (fun r => r.pos == target) = some r →
        t.hac.berth = { stop := some r.index, onA := r.car.a.sides != .none, onB := r.car.b.sides != .none } ∧
        t.hac.plan = if s.hac.plan.head? = some r.index then s.hac.plan.tail else s.hac.plan) ∧
      (s.stops.find? (fun r => r.pos == target) = none → t.hac = s.hac) ∧
      t.bsq = { s.bsq with vHist := (0 :: s.bsq.vHist).take 21 } ∧ t.osp = s.osp ∧ t.clu = s.clu ∧ t.ptb = s.ptb ∧ t.glm = s.glm ∧
      t.tally = s.tally ∧ t.lmu = s.lmu ∧ t.dru.sides = s.dru.sides

/-- The events of the Position Tracker. An overtravel switch that becomes active orders an EMERGENCY stop with cause OVERTRAVEL, before
and after the parameters are loaded (R20, R60). At a sample of a line HELD in INIT or PARKED the rows of R19: a switch that becomes
active homes a line at rest, and otherwise sets the position (SWITCH), is implausible (SWITCH_FAR) or, with the other, DOUBLE_TERMINAL;
and the cross-check's two outcomes (R13). A marker passage in a frame (R16, R17): an unknown marker, an error within W_quiet, within
W_corr and beyond it, and no passage at all. Validity that becomes LOST while moving orders a BRAKE stop with cause POSITION (R18). The
x that a MARKER report carries as x after is the model's choice (assumption log 48), the order within a sample is read from R11
(assumption log 11). -/
def Obligations.PositionEventsAct : Prop :=
  (∀ (s : State) (lower upper : Bool), s.isRunning → s.line = none → s.plain → s.bsq.stop = none →
    s.ptr.otLower = false → s.ptr.otUpper = false →
    let read (a b : Bool) : State :=
      { s with overrun := false, ptr := { s.ptr with lower := lower, upper := upper, otLower := a, otUpper := b } }
    (∃ t, exec (.positionSample lower upper true false) s = .next t ∧ (read true false).emergencyTaken t .overtravel) ∧
    (∃ t, exec (.positionSample lower upper false true) s = .next t ∧ (read false true).emergencyTaken t .overtravel)) ∧
  (∀ (s : State) (p : LineFields) (low : Bool), s.samples p → s.plain → s.ptr.otLower = false → s.ptr.otUpper = false →
    let q := s.sampled p ⟨false, false, low, !low⟩
    q.beyond = false →
    ∃ t, exec (.positionSample false false low (!low)) s = .next t ∧ (s.keeping q).emergencyTaken t .overtravel) ∧
  (∀ (s : State) (p : LineFields), s.isRunning → s.line = some p → s.lmu.mode = .init ∨ s.lmu.mode = .parked →
    s.hac.state = .held → s.bsq.stop = none → s.bsq.test = none → s.ptr.first = .ordinary →
    let report (cause : PositionCause) (q : Tracker) (after : Int) (v : Validity) (sw : Option LineEnd) : Report :=
      .position { cause := cause, before := q.x, after := after, validity := v, marker := none, switch := sw }
    (∀ upper : Bool,
      let sw : LineEnd := if upper then .upper else .lower
      let target : Nat := if upper then p.lineLength else 0
      let q := s.sampled p ⟨!upper, upper, false, false⟩
      let near : Prop := (q.x - target).natAbs ≤ p.wCorr
      let placed (v : Validity) : Tracker := { q with
        offsetP := target - distanceTerm s.ptr.countP p.scaleP, offsetC := target - distanceTerm s.ptr.countC p.scaleC
        x := target, xc := target, sm := 0, u := p.u0, validity := v }
      let next : Host.Outcome State Fault Refusal := exec (.positionSample (!upper) upper false false) s
      let before : Bool := if upper then s.ptr.upper else s.ptr.lower
      q.beyond = false →
        (q.standstill = true → before = false ∨ s.ptr.standstill = false → s.ptr.validity = .lost ∨ near →
          s.stops.find? (fun r => r.pos == target) = none →
          next = .next (post (report .homed q target .valid (some sw)) (s.keeping (placed .valid)))) ∧
        (before = false → q.standstill = false → s.ptr.validity = .lost →
          next = .next (post (report .switch q target .lost (some sw)) (s.keeping (placed .lost)))) ∧
        (before = false → q.standstill = false → s.ptr.validity = .valid → near →
          next = .next (post (report .switch q target .valid (some sw)) (s.keeping (placed .valid)))) ∧
        (before = false → s.ptr.validity = .valid → ¬near → s.uncrossed .pos 1 →
          next = .next (post (report .switchFar q q.x .lost (some sw)) (State.counted (s.keeping { q with validity := .lost }) .pos 1)))) ∧
    (let q := s.sampled p ⟨true, true, false, false⟩;
      q.beyond = false → (s.ptr.lower && s.ptr.upper) = false → s.uncrossed .pos 1 →
        exec (.positionSample true true false false) s =
          .next (post (report .doubleTerminal q q.x .lost none) (State.counted (s.keeping { q with validity := .lost }) .pos 1))) ∧
    (let q := s.sampled p ⟨false, false, false, false⟩;
      let d := (q.x - q.xc).natAbs;
      let lost : Prop := 4 * p.tEnc < d ∧ s.ptr.validity = .valid;
      let next : Host.Outcome State Fault Refusal := exec (.positionSample false false false false) s;
      p.tEnc < d → s.ptr.beyond = false → s.uncrossed .pos 1 →
        (¬lost → next = .next (State.counted (s.keeping q) .pos 1)) ∧
        (lost → next = .next (post (report .diverged q q.x .lost none) (State.counted (s.keeping { q with validity := .lost }) .pos 1))))) ∧
  (∀ (s : State) (c : Car) (bytes : List Byte) (x : CarStatus) (f : MarkerField), s.isRunning → s.nextFrame c bytes x →
    s.provenBy c x → x.alarm = false → x.marker = some f →
    let seen : State := { s with overrun := false, ptr := { s.ptr with lastPassage := s.ptr.lastPassage.set c (some f.passage) } }
    let ends (v : State) : Prop := exec (.carStatusFrame c bytes) s = .next (v.answered c x)
    (s.ptr.lastPassage.get c = none ∨ s.ptr.lastPassage.get c = some f.passage ∨ s.line = none → ends seen) ∧
    (∀ n p, s.ptr.lastPassage.get c = some n → n ≠ f.passage → s.line = some p → s.uncrossed .pos 1 →
      ((∀ m ∈ s.markers, ¬(m.id = f.id ∧ m.car = c)) → ends (seen.counted .pos 1)) ∧
      (∀ m, s.markers.find? (fun m => m.id == f.id && m.car == c) = some m →
        let e : Int := m.pos - s.ptr.x
        let shifted : State := { seen with ptr := { seen.ptr with
          offsetP := s.ptr.offsetP + e, offsetC := s.ptr.offsetC + e, sm := 0, u := p.u0 } }
        let report (cause : PositionCause) (after : Int) (v : Validity) : Report := .position
          { cause := cause, before := s.ptr.x, after := after, validity := v, marker := some f.id, switch := none }
        (e.natAbs ≤ p.wQuiet → ends shifted) ∧
        (p.wQuiet < e.natAbs → e.natAbs ≤ p.wCorr →
          ends (State.counted (post (report .marker (s.ptr.x + e) s.ptr.validity) shifted) .pos 1)) ∧
        (p.wQuiet < e.natAbs → p.wCorr < e.natAbs → s.ptr.validity = .lost → ends (seen.counted .pos 1)) ∧
        (p.wQuiet < e.natAbs → p.wCorr < e.natAbs → s.ptr.validity = .valid → s.hac.state = .held →
          ends (post (report .markerFar s.ptr.x .lost) (State.counted { seen with ptr := { seen.ptr with validity := .lost } } .pos 1))) ∧
        (p.wQuiet < e.natAbs → p.wCorr < e.natAbs → s.ptr.validity = .valid → s.hac.state.drives = true ∨ s.hac.state = .berthing →
          s.bsq.stop = none → s.bsq.test = none → s.ptr.standstill = false → s.lmu.mode ≠ .warming →
          ∃ t, exec (.carStatusFrame c bytes) s = .next t ∧ t.ptr = { seen.ptr with validity := .lost } ∧
            t.bsq.stop = some { kind := .brake, cause := .position, x := s.ptr.x, vMeas := s.ptr.vMeas,
                                check := .running (some p.tCheck) } ∧
            (t.brake .sb).cmd = .apply ∧ t.brake .eb = s.brake .eb ∧ t.hac.state = .stopping ∧ t.hac.vRef = 0 ∧
            t.clu = (s.answered c x).clu ∧ t.lmu = (s.counted .pos 1).lmu ∧ t.dru = s.dru ∧ t.glm = s.glm ∧ t.ptb = s.ptb ∧
            t.tally = s.tally))))

/-! ## Configuration -/

/-- An accepted CONFIGURE_LINE in INIT or PARKED that keeps L and both scales (R3, R4, R159): the parameters are replaced whole, and
a new capacity makes both tallies unknown; a field out of its range refuses it whole by the offset of the first such field. Outside
INIT and PARKED the five configuration requests and RESTART are refused with WRONG_MODE and change nothing. A first CONFIGURE_LINE
makes the parameters loaded and starts the brake and door timers that are due (R4, R69; assumption log 8). One that changes L or a
scale makes validity LOST, with its report where it was VALID, gives the next sample the standing of a first one and takes the berth
off stop (R4, R29; assumption log 18). That in_flight is kept where C changes is assumption log 35. -/
def Obligations.ConfigureLineAnswers : Prop :=
  (∀ (tag : Byte) (f : LineFields) (s : State), s.listening → s.lmu.mode = .init ∨ s.lmu.mode = .parked →
    (∀ o, firstFault (lineChecks f) = some o →
      exec (.configureLine tag f) s = .next (s.heard.replied tag .configureLine (.refused .badField (.field o)))) ∧
    (∀ old, s.line = some old → firstFault (lineChecks f) = none → old.lineLength = f.lineLength → old.scaleP = f.scaleP →
      old.scaleC = f.scaleC →
      let unknown (t : Tally) : Tally :=
        if old.capacity = f.capacity then t else { t with aboardMin := 0, aboardMax := f.capacity, unknown := true }
      exec (.configureLine tag f) s =
        .next (State.replied { s.heard with line := some f, tally := ⟨unknown s.tally.a, unknown s.tally.b⟩ } tag .configureLine
          (.accepted .none)))) ∧
  (∀ (tag : Byte) (s : State), s.listening → s.lmu.mode ≠ .init → s.lmu.mode ≠ .parked →
    let refused (k : ReqKind) : Host.Outcome State Fault Refusal := .next (s.heard.replied tag k (.refused .wrongMode .empty))
    (∀ f, exec (.configureLine tag f) s = refused .configureLine) ∧ (∀ l, exec (.loadSegments tag l) s = refused .loadSegments) ∧
    (∀ l, exec (.loadStops tag l) s = refused .loadStops) ∧ (∀ l, exec (.loadMarkers tag l) s = refused .loadMarkers) ∧
    (∀ l, exec (.loadGates tag l) s = refused .loadGates) ∧ exec (.restart tag) s = refused .restart) ∧
  (∀ (tag : Byte) (f : LineFields) (s : State), s.listening → s.lmu.mode = .init ∨ s.lmu.mode = .parked → s.line = none →
    firstFault (lineChecks f) = none →
    let unknown (t : Tally) : Tally := { t with aboardMin := 0, aboardMax := f.capacity, unknown := true }
    let brake (b : BrakeId) : BrakeRec :=
      let r := s.brake b
      if r.timer = none ∧ (r.state = .lifting ∨ r.state = .setting ∨ ((r.state = .applied ∨ r.state = .released) ∧
          s.reading b = .between)) then
        { r with timer := some (if b = .sb then f.tSbResp else f.tEbResp) }
      else r
    let side (c : Car) (d : Side) : DoorSide :=
      let r := s.side c d
      if r.state = .releasePending ∧ r.ackTimer = none then { r with ackTimer := some 500 }
      else if r.state = .closing ∧ r.closeTimer = none then { r with closeTimer := some (f.tClose * 1000) }
      else if (r.state = .released ∨ r.state = .opened) ∧ r.kind = none ∧ r.retryTimer = none then { r with retryTimer := some 2000 }
      else r
    exec (.configureLine tag f) s = .next (State.replied { s.heard with
      line := some f, tally := ⟨unknown s.tally.a, unknown s.tally.b⟩, bsq := { s.bsq with recs := ⟨brake .sb, brake .eb⟩ }
      dru := { s.dru with sides := ⟨⟨side .a .left, side .a .right⟩, ⟨side .b .left, side .b .right⟩⟩ } } tag .configureLine
      (.accepted .none))) ∧
  (∀ (tag : Byte) (f old : LineFields) (s : State), s.listening → s.lmu.mode = .init ∨ s.lmu.mode = .parked → s.hac.state = .held →
    s.line = some old → firstFault (lineChecks f) = none →
    old.lineLength ≠ f.lineLength ∨ old.scaleP ≠ f.scaleP ∨ old.scaleC ≠ f.scaleC →
    let unknown (t : Tally) : Tally :=
      if old.capacity = f.capacity then t else { t with aboardMin := 0, aboardMax := f.capacity, unknown := true }
    let changed : State := { s.heard with
      line := some f, tally := ⟨unknown s.tally.a, unknown s.tally.b⟩
      ptr := { s.ptr with
        validity := .lost, first := if s.ptr.first = .afterReset then .afterReset else .afterReconfigure }
      hac := { s.hac with berth := { stop := none, onA := false, onB := false } }
      dru := { s.dru with cleared := if s.hac.berth = .offStop then s.dru.cleared else ⟨false, false⟩ } }
    let report : PositionReport :=
      { cause := .config, before := s.ptr.x, after := s.ptr.x, validity := .lost, marker := none, switch := none }
    exec (.configureLine tag f) s = .next (State.replied
      (if s.ptr.validity = .valid then post (.position report) changed else changed) tag .configureLine (.accepted .none)))

/-- LOAD_SEGMENTS with good fields replaces the table by the records carried in ascending order of start (R5). -/
def Obligations.LoadSegmentsStoresAscending : Prop :=
  ∀ (tag : Byte) (l : List SegmentFields) (s : State), s.listening → s.lmu.mode = .init ∨ s.lmu.mode = .parked →
    l.length ≤ 32 → (∀ r ∈ l, r.start ≤ 4000000 ∧ 10 ≤ r.vLimit ∧ r.vLimit ≤ 1500 ∧ 10 ≤ r.vCruise ∧ r.vCruise ≤ r.vLimit ∧
      r.sinePm ≤ 1000 ∧ r.walkway ≤ 2) →
    ∃ segs : List Segment,
      exec (.loadSegments tag l) s = .next (State.replied { s.heard with segs := segs } tag .loadSegments (.accepted .none)) ∧
      segs.Pairwise (fun a b => a.start ≤ b.start) ∧
      segs.Perm (l.map (fun r =>
        { start := r.start, vLimit := r.vLimit * 10, vCruise := r.vCruise * 10, sinePm := r.sinePm,
          walkway := if r.walkway = 1 then .left else if r.walkway = 2 then .right else .none }))

/-- LOAD_STOPS and LOAD_MARKERS with good fields replace their tables by the records carried (R6, R7); LOAD_STOPS also empties
the plan, clears the current-leg mark and takes the berth record off stop (R29). -/
def Obligations.LoadStopsAndMarkersStore : Prop :=
  (∀ (tag : Byte) (l : List StopFields) (s : State), s.listening → s.lmu.mode = .init ∨ s.lmu.mode = .parked →
    l.length ≤ 6 → (l.map StopFields.index).Nodup →
    (∀ r ∈ l, r.index ≤ 5 ∧ r.pos ≤ 4000000 ∧ ∀ c ∈ [r.carA, r.carB], c.sides ≤ 3 ∧ c.group ≤ 4 ∧ c.terminal ≤ 1 ∧
      (c.sides = 0 → c.group = 0)) →
    exec (.loadStops tag l) s = .next (State.replied { s.heard with
        stops := l.map stopOf
        hac := { s.hac with plan := [], legMark := false, berth := { stop := none, onA := false, onB := false } }
        dru := { s.dru with cleared := if s.hac.berth = .offStop then s.dru.cleared else ⟨false, false⟩ } }
      tag .loadStops (.accepted .none))) ∧
  (∀ (tag : Byte) (l : List MarkerFields) (s : State), s.listening → s.lmu.mode = .init ∨ s.lmu.mode = .parked →
    l.length ≤ 16 → (l.map MarkerFields.id).Nodup → (∀ r ∈ l, 1 ≤ r.id ∧ r.id ≤ 16 ∧ r.pos ≤ 4000000 ∧ r.car ≤ 1) →
    exec (.loadMarkers tag l) s = .next (State.replied { s.heard with
        markers := l.map (fun r => { id := r.id, pos := r.pos, car := if r.car = 0 then .a else .b }) }
      tag .loadMarkers (.accepted .none)))

/-- The eleven reading requests answer with their data and change nothing but the link; PASS_READ of an id that is not held is
refused with NOT_FOUND. That LINK_READ counts its own place and frame but not its own reply is assumption log 21. -/
def Obligations.ReadsAnswer : Prop :=
  ∀ (tag : Byte) (s : State), s.listening →
    let answered (k : ReqKind) (d : ReplyData) : Host.Outcome State Fault Refusal := .next (s.heard.replied tag k (.accepted d))
    exec (.positionRead tag) s = answered .positionRead (.position s.positionData) ∧
    exec (.haulageRead tag) s = answered .haulageRead (.haulage s.haulageData) ∧
    exec (.envelopeRead tag) s = answered .envelopeRead (.envelope s.envelopeData) ∧
    exec (.brakeRead tag) s = answered .brakeRead (.brakes s.brakeData) ∧
    exec (.carRead tag) s = answered .carRead (.cars s.carData) ∧
    exec (.doorRead tag) s = answered .doorRead (.doors { sides := s.dru.sides, cleared := s.dru.cleared }) ∧
    exec (.boardingRead tag) s = answered .boardingRead (.boarding s.boardingData) ∧
    exec (.healthRead tag) s = answered .healthRead (.health s.lmu.health) ∧
    exec (.modeRead tag) s = answered .modeRead (.mode s.modeData) ∧
    exec (.linkRead tag) s = answered .linkRead (.link { s.linkData with
      totals := { s.slp.totals with received := min 65535 (s.slp.totals.received + 1) } }) ∧
    exec (.passRead tag 0) s = answered .passRead (.pass none s.ptb.summary) ∧
    (∀ id e, id ≠ 0 → s.ptb.find? id = some e →
      exec (.passRead tag id) s = answered .passRead (.pass (some e) s.ptb.summary)) ∧
    (∀ id, id ≠ 0 → s.ptb.find? id = none →
      exec (.passRead tag id) s = .next (s.heard.replied tag .passRead (.refused .notFound .empty)))

/-! ## The Haulage Controller -/

/-- PLAN_SET (R27): refused with NOT_HELD while moving; while HELD refused by the first fault, a count above 8 or an entry
without a record, equal to the one before it, or, as the first, equal to the stop of the berth; else the whole plan is replaced and
the current-leg mark cleared. PLAN_CLEAR empties the plan and clears the mark in every state (R29). -/
def Obligations.PlanSetExamined : Prop :=
  ∀ (tag : Byte) (l : List Nat) (s : State), s.listening →
    let bad (k : Nat) : Prop := ∃ i, l[k]? = some i ∧
      ((∀ r ∈ s.stops, r.index ≠ i) ∨ (k = 0 ∧ s.hac.berth.stop = some i) ∨ (∃ j, k = j + 1 ∧ l[j]? = some i))
    (s.hac.state ≠ .held → exec (.planSet tag l) s = .next (s.heard.replied tag .planSet (.refused .notHeld .empty))) ∧
    (s.hac.state = .held → 8 < l.length →
      exec (.planSet tag l) s = .next (s.heard.replied tag .planSet (.refused .badField (.field 0)))) ∧
    (∀ k, s.hac.state = .held → l.length ≤ 8 → bad k → (∀ j, j < k → ¬bad j) →
      exec (.planSet tag l) s = .next (s.heard.replied tag .planSet (.refused .badField (.field (1 + k))))) ∧
    (s.hac.state = .held → l.length ≤ 8 → (∀ k, ¬bad k) →
      exec (.planSet tag l) s = .next (State.replied { s.heard with hac := { s.hac with plan := l, legMark := false } } tag .planSet
        (.accepted .none))) ∧
    exec (.planClear tag) s = .next (State.replied { s.heard with hac := { s.hac with plan := [], legMark := false } } tag .planClear
      (.accepted .none))

/-- PLAN_APPEND (R28): BAD_FIELD for an index without a record or equal to its predecessor, QUEUE_FULL at 8 entries, else the
index joins at the tail. -/
def Obligations.PlanAppendExamined : Prop :=
  ∀ (tag : Byte) (i : Nat) (s : State), s.listening →
    let prev : Option Nat :=
      if s.hac.plan ≠ [] then s.hac.plan.getLast? else if s.hac.dest.isSome then s.hac.dest else s.hac.berth.stop
    let recorded : Prop := ∃ r ∈ s.stops, r.index = i
    (¬recorded → exec (.planAppend tag i) s = .next (s.heard.replied tag .planAppend (.refused .badField (.field 0)))) ∧
    (recorded → 8 ≤ s.hac.plan.length →
      exec (.planAppend tag i) s = .next (s.heard.replied tag .planAppend (.refused .queueFull .empty))) ∧
    (recorded → s.hac.plan.length < 8 → prev = some i →
      exec (.planAppend tag i) s = .next (s.heard.replied tag .planAppend (.refused .badField (.field 0)))) ∧
    (recorded → s.hac.plan.length < 8 → prev ≠ some i →
      exec (.planAppend tag i) s = .next (State.replied { s.heard with hac := { s.hac with plan := s.hac.plan ++ [i] } } tag .planAppend
        (.accepted (.queueLength (s.hac.plan.length + 1)))))

/-- The begin and the ends of a trip. DEPART (R30, R31): NOT_HELD while moving, INHIBITED with every inhibit present, in their
order; without one and with SB not yet reading released, the trip to the head begins: destination, mark and direction set, berth off
stop, RELEASING with the load snapshot taken and SB commanded RELEASE, each SEALED window SHUT with its car and stop absent and its
group's READY gates SHUT (R149). SB RELEASED in RELEASING enters MOTORING with the DEPARTED report (R32). SB APPLIED in BERTHING
ends the trip in HELD (R35, R35a): the berth result, the plan and the mark, the ARRIVED report; in SERVICE and REDUCED at the stop,
each platform side that is SECURED on a FRESH car is released (R109), else no side changes. SB APPLIED in STOPPING at rest ends it
in HELD off stop with the plan kept and the stop record empty (R40, R79). The direction and the stop of the ARRIVED report are
assumption log 14. -/
def Obligations.TripsBeginAndEnd : Prop :=
  (∀ (tag : Byte) (s : State), s.listening →
    (s.hac.state ≠ .held → exec (.depart tag) s = .next (s.heard.replied tag .depart (.refused .notHeld .empty))) ∧
    (s.hac.state = .held → s.inhibits ≠ [] →
      exec (.depart tag) s = .next (s.heard.replied tag .depart (.refused .inhibited (.inhibits s.inhibits)))) ∧
    (∀ i rest r, s.hac.state = .held → s.inhibits = [] → s.hac.plan = i :: rest → s.stopAt? i = some r → s.bsq.stop = none →
      (s.brake .sb).cmd = .apply → s.reading .sb ≠ .released →
      let dir : Dir := if s.ptr.x < (r.pos : Int) then .up else .down
      ∃ u : State, exec (.depart tag) s = .next (u.replied tag .depart (.accepted (.departed r.index r.pos dir))) ∧
        u.hac = { s.hac with
          state := .releasing, dest := some r.index, legMark := true, tripDir := dir,
          berth := { stop := none, onA := false, onB := false } } ∧
        u.osp = { s.osp with snapshot := some s.liveLoads, acc := 0, ordered := false } ∧
        u.brake .sb = { cmd := .release, state := .lifting, timer := s.line.map LineFields.tSbResp } ∧
        u.brake .eb = s.brake .eb ∧ u.dru = { s.dru with cleared := ⟨false, false⟩ } ∧
        (∀ g, u.window g = if (s.window g).state = .sealed then { state := .shut, car := none, stop := none, dwell := none }
          else s.window g) ∧
        u.glm = { s.glm with
          windows := u.glm.windows
          gates := s.glm.gates.map (fun h =>
            if (s.window h.group).state = .sealed ∧ h.state = .ready then { h with state := .shut } else h) } ∧
        u.ptr = s.ptr ∧ u.clu = s.clu ∧ u.ptb = s.ptb ∧ u.tally = s.tally ∧ u.lmu = s.lmu ∧ u.line = s.line ∧ u.stops = s.stops)) ∧
  (∀ s : State, s.isRunning → (s.brake .sb).state = .setting → s.reading .sb ≠ .applied → (s.brake .sb).cmd = .apply →
    s.ptr.standstill = true → s.bsq.test = none → s.lmu.mode ≠ .warming → s.noneOpen →
    let set : Brakes := { s.bsq with
      recs := s.bsq.recs.set .sb { cmd := .apply, state := .applied, timer := none }
      contacts := s.bsq.contacts.set .sb { applied := true, released := false } }
    let supervisor : Supervisor := { s.osp with acc := 0, ordered := false, heldRef := s.ptr.dp, snapshot := none }
    (∀ p i r, s.hac.state = .berthing → s.bsq.stop = none → s.line = some p → s.hac.dest = some i → s.stopAt? i = some r →
      s.hac.berth = .offStop → s.dru.cleared = ⟨false, false⟩ →
      let on : Bool := decide ((s.ptr.x - (r.pos : Int)).natAbs ≤ p.platWindow)
      let berth : Berth := if on then { stop := some r.index, onA := r.car.a.sides != .none, onB := r.car.b.sides != .none }
        else { stop := none, onA := false, onB := false }
      let plan := if s.hac.legMark then s.hac.plan.tail else s.hac.plan
      let hac : Haulage := { s.hac with state := .held, berth := berth, plan := plan, legMark := false, dest := none }
      let released (c : Car) (d : Side) : Prop :=
        on = true ∧ d ∈ s.platformSides c i ∧ s.isFresh c = true ∧ (s.side c d).state = .secured
      (on = false ∨ (s.lmu.mode ≠ .service ∧ s.lmu.mode ≠ .reduced) →
        exec (.brakeContactChange .sb true false) s = .next (post (.trip
            { event := .arrived, x := s.ptr.x, dir := s.hac.tripDir, dest := none, stop := some i
              offset := some (s.ptr.x - (r.pos : Int)), atStop := on, onA := berth.onA, onB := berth.onB, kind := none
              head := plan.head?, ready := s.hac.ready, fault := s.hac.fault })
          { s with overrun := false, bsq := set, hac := hac, osp := supervisor })) ∧
      (s.lmu.mode = .service ∨ s.lmu.mode = .reduced →
        ∃ t, exec (.brakeContactChange .sb true false) s = .next t ∧
          t = { s with overrun := false, bsq := set, osp := supervisor, hac := t.hac, dru := { s.dru with sides := t.dru.sides }
                       slp := t.slp } ∧
          t.hac = { hac with vRef := t.hac.vRef, word := t.hac.word } ∧ ((∃ c d, released c d) → t.hac.vRef = 0) ∧
          (∀ c d, released c d → t.side c d = { s.side c d with
            state := .releasePending, kind := some .auto, stop := some i, ackTimer := some 500 }) ∧
          (∀ c d, ¬released c d → t.side c d = s.side c d))) ∧
    (s.hac.state = .stopping →
      ∃ t, exec (.brakeContactChange .sb true false) s = .next t ∧ State.sameBut { s with
        overrun := false, bsq := { set with stop := none }, osp := supervisor
        hac := { s.hac with
          state := .held, dest := none, legMark := false, berth := { stop := none, onA := false, onB := false } }
        dru := { s.dru with cleared := if s.hac.berth = .offStop then s.dru.cleared else ⟨false, false⟩ } } t)) ∧
  (∀ s : State, s.isRunning → s.hac.state = .releasing → (s.brake .sb).state = .lifting → s.reading .sb ≠ .released →
    s.bsq.stop = none → s.bsq.test = none → s.lmu.mode ≠ .warming →
    exec (.brakeContactChange .sb false true) s = .next (post (.trip
        { event := .departed, x := s.ptr.x, dir := s.hac.tripDir, dest := s.hac.dest, stop := none, offset := none, atStop := false
          onA := false, onB := false, kind := none, head := s.hac.plan.head?, ready := s.hac.ready, fault := s.hac.fault })
      { s with
        overrun := false, hac := { s.hac with state := .motoring }, osp := { s.osp with acc := 0, ordered := false }
        bsq := { s.bsq with
          recs := s.bsq.recs.set .sb { s.brake .sb with state := .released, timer := none }
          contacts := s.bsq.contacts.set .sb { applied := false, released := true } } }))

/-- STOP (R38): HELD it changes nothing; moving under a reference above 0 with no stop in the record and SB not lifting, the
controlled ramp starts and a CONTROLLED stop with cause HOST is recorded. Both answer with the haulage state at acceptance. -/
def Obligations.StopRequestActs : Prop :=
  ∀ (tag : Byte) (s : State), s.listening →
    let reply : Answer := .accepted (.haulageState s.hac.state)
    (s.hac.state = .held → exec (.stop tag) s = .next (s.heard.replied tag .stop reply)) ∧
    (s.hac.state.drives = true → s.hac.vRef ≠ 0 → s.bsq.stop = none → s.bsq.test = none → s.ptr.standstill = false →
      (s.brake .sb).state ≠ .lifting →
      ∃ u : State, exec (.stop tag) s = .next (u.replied tag .stop reply) ∧ State.sameBut { s.heard with
          hac := { s.hac with ramp := true }
          bsq := { s.bsq with
            stop := some { kind := .controlled, cause := .host, x := s.ptr.x, vMeas := s.ptr.vMeas, check := .absent } } } u)

/-- An update while HELD with no stop in the record reads the drive lines and sends the drive word: the reference and the coming
direction, or 0 and UP before the parameters are loaded (R41, R42). -/
def Obligations.DriveUpdateHeldSendsWord : Prop :=
  ∀ (ready fault : Bool) (s : State), s.isRunning → s.hac.state = .held → s.bsq.stop = none →
    exec (.driveReferenceUpdate ready fault) s = .next { s with
      overrun := false
      hac := { s.hac with
        ready := ready, fault := fault
        word := some (if s.line.isSome then { vRef := s.hac.vRef, dir := s.comingDir } else { vRef := 0, dir := .up }) } }

/-- An update of a trip without a ramp (R33, R34): v_app from d_stop, v_cap, the reference one ramp step toward the lesser of the
two and never above v_perm, the state of the term that binds, and the word sent; at d_stop within b the reference is 0 in BERTHING.
An update of a controlled ramp lowers the reference by one step of a_ss, at 0 to STOPPING (R38a). A drive fault, or drive ready
lost, first read at an update while moving orders a CONTROLLED stop with cause DRIVE, which a stop in progress absorbs, and posts a
TRIP report DRIVE (R42), the lines being read after the reference is computed (assumption log 11). The segment of a car in a table
that has not passed its checks is assumption log 54. -/
def Obligations.TripUpdateSetsReference : Prop :=
  (∀ (s : State) (p : LineFields) (i : Nat) (r : StopRec), s.isRunning → s.line = some p → s.hac.state.drives = true →
     s.hac.ramp = false → s.hac.dest = some i → s.stopAt? i = some r → s.bsq.stop = none → s.ptr.standstill = false →
     s.allSecured = true → s.hac.ready = true → s.hac.fault = false →
     let dStop := if s.hac.tripDir = .up then ((r.pos : Int) - s.ptr.x).toNat else (s.ptr.x - (r.pos : Int)).toNat
     let vApp := if dStop ≤ p.dCreep then p.vCreep else p.vCreep + isqrt (2 * p.aDec * (dStop - p.dCreep))
     let cruise (c : Car) := ((s.segOf c).map Segment.vCruise).getD 0
     let vCap := min (min (cruise .a) (cruise .b)) (min (modeSpeed p s.lmu.mode) (s.osp.vPerm - p.guard))
     let vTgt := min vCap vApp
     let v := if s.hac.vRef < vTgt then min vTgt (s.hac.vRef + p.aAcc * 20 / 1000)
       else if vTgt < s.hac.vRef then max vTgt (s.hac.vRef - p.aDec * 20 / 1000) else s.hac.vRef
     (dStop ≤ p.berthTol → ∃ t, exec (.driveReferenceUpdate true false) s = .next t ∧
       t.hac = { s.hac with state := .berthing, vRef := 0, word := some { vRef := 0, dir := s.hac.tripDir } } ∧
       t.ptr = s.ptr ∧ t.bsq = s.bsq ∧ t.slp = s.slp ∧ t.dru = s.dru ∧ t.lmu = s.lmu) ∧
     (p.berthTol < dStop → 0 < p.vCreep → 0 < vCap → ∃ t, exec (.driveReferenceUpdate true false) s = .next t ∧
       t.hac = { s.hac with
         state := if dStop ≤ p.dCreep then .creeping else if vApp < vCap then .approaching else .motoring
         vRef := min v s.osp.vPerm, stalled := false
         word := some { vRef := min v s.osp.vPerm, dir := s.hac.tripDir } } ∧
       t.ptr = s.ptr ∧ t.bsq = s.bsq ∧ t.slp = s.slp ∧ t.dru = s.dru ∧ t.lmu = s.lmu)) ∧
  (∀ (s : State) (p : LineFields), s.isRunning → s.line = some p → s.hac.state.drives = true → s.hac.ramp = true →
    s.ptr.standstill = false → s.hac.ready = true → s.hac.fault = false →
    let v := if s.allSecured = true then min (s.hac.vRef - p.aSs * 20 / 1000) s.osp.vPerm else 0
    let now (h : Haulage) : State :=
      { s with overrun := false, hac := { h with vRef := v, word := some { vRef := v, dir := s.hac.tripDir } } }
    (v ≠ 0 → exec (.driveReferenceUpdate true false) s = .next (now s.hac)) ∧
    (v = 0 → exec (.driveReferenceUpdate true false) s = .next
      { now { s.hac with state := .stopping, ramp := false } with osp := { s.osp with acc := 0, ordered := false } })) ∧
  (∀ (s : State) (ready fault : Bool), s.isRunning → s.hac.state ≠ .held → s.hac.ready = true → s.hac.fault = false →
    ready = false ∨ fault = true → s.hac.state.drives = false → s.ptr.standstill = false → s.line.isSome = true →
    let read (v : State) : State := { v with hac := { v.hac with
      ready := ready, fault := fault, word := some { vRef := v.hac.vRef, dir := s.hac.tripDir } } }
    let report : TripReport :=
      { event := .drive, x := s.ptr.x, dir := s.hac.tripDir, dest := none, stop := none, offset := none, atStop := false, onA := false
        onB := false, kind := none, head := s.hac.plan.head?, ready := ready, fault := fault }
    (s.bsq.stop.isSome = true →
      exec (.driveReferenceUpdate ready fault) s = .next (post (.trip report) (read { s with overrun := false }))) ∧
    (s.hac.state = .releasing → s.hac.ramp = false → s.bsq.stop = none → s.bsq.test = none → (s.brake .sb).state = .lifting → (s.brake .sb).cmd = .release →
      s.reading .sb ≠ .applied → s.lmu.mode ≠ .warming →
      let stop : StopRecord := { kind := .controlled, cause := .drive, x := s.ptr.x, vMeas := s.ptr.vMeas, check := .absent }
      let sb : BrakeRec := { cmd := .apply, state := .setting, timer := s.line.map LineFields.tSbResp }
      ∃ t, exec (.driveReferenceUpdate ready fault) s = .next t ∧ State.sameBut (read { s with
        overrun := false, hac := { s.hac with state := .stopping, vRef := 0 }, bsq := { s.bsq with stop := some stop, recs := s.bsq.recs.set .sb sb }
        osp := { s.osp with acc := 0, ordered := false } }) t)) ∧
  (∀ (s : State) (p : LineFields) (ready fault : Bool), s.isRunning → s.line = some p → s.hac.state.drives = true →
    s.ptr.standstill = false → s.hac.ready = true → s.hac.fault = false → ready = false ∨ fault = true →
    let ordered : StopRecord := { kind := .controlled, cause := .drive, x := s.ptr.x, vMeas := s.ptr.vMeas, check := .absent }
    ∃ u, exec (.driveReferenceUpdate true false) s = .next u ∧
      (u.bsq.stop.isSome = true → exec (.driveReferenceUpdate ready fault) s = .next (post (.trip
        { event := .drive, x := s.ptr.x, dir := s.hac.tripDir, dest := none, stop := none, offset := none, atStop := false
          onA := false, onB := false, kind := none, head := s.hac.plan.head?, ready := ready, fault := fault })
        { u with hac := { u.hac with ready := ready, fault := fault } })) ∧
      (u.bsq.stop = none → u.hac.state.drives = true → u.hac.vRef ≠ 0 → u.bsq.test = none → (u.brake .sb).state ≠ .lifting →
        ∃ t, exec (.driveReferenceUpdate ready fault) s = .next t ∧ State.sameBut { u with
          hac := { u.hac with ramp := true, ready := ready, fault := fault }
          bsq := { u.bsq with stop := some ordered } } t))

/-! ## The Overspeed Supervisor -/

/-- TSR_ADD (R65): BAD_FIELD by its first bad field, LIST_FULL for a new id at 8 entries, else the entry is stored with its speed
held between 100 and v_line_max, the other entries staying. TSR_REMOVE (R66): BAD_FIELD outside 1 to 255, else the entry of the id,
if held, leaves and the others keep their order. That an end not above its start is at fault at the end's offset
is assumption log 34. -/
def Obligations.TsrRequestsKeepList : Prop :=
  (∀ (tag : Byte) (id start stop speed : Nat) (s : State), s.listening →
    let held : Prop := ∃ z ∈ s.osp.tsrs, z.id = id
    let v := max 100 (min (match s.line with | some p => p.vLineMax | none => 15000) speed)
    let z : Tsr := { id := id, start := start, stop := stop, speed := v }
    let refused (r : Reason) (d : Detail) : Prop := exec (.tsrAdd tag id start stop speed) s =
      .next (s.heard.replied tag .tsrAdd (.refused r d))
    (id = 0 ∨ 255 < id → refused .badField (.field 0)) ∧
    (1 ≤ id → id ≤ 255 → 4000000 < start → refused .badField (.field 1)) ∧
    (1 ≤ id → id ≤ 255 → start ≤ 4000000 → (stop ≤ start ∨ 4000000 < stop) → refused .badField (.field 5)) ∧
    (1 ≤ id → id ≤ 255 → start < stop → stop ≤ 4000000 → ¬held → 8 ≤ s.osp.tsrs.length → refused .listFull .empty) ∧
    (1 ≤ id → id ≤ 255 → start < stop → stop ≤ 4000000 → (held ∨ s.osp.tsrs.length < 8) → ∃ (l : List Tsr) (was : Bool),
      exec (.tsrAdd tag id start stop speed) s =
        .next (State.replied { s.heard with osp := { s.osp with tsrs := l } } tag .tsrAdd
          (.accepted (.tsrAdded z.speed was l.length))) ∧
      (was = true ↔ held) ∧ (∀ y, y ∈ l ↔ y = z ∨ (y ∈ s.osp.tsrs ∧ y.id ≠ id)) ∧ (tsrLaw s.osp.tsrs → tsrLaw l))) ∧
  (∀ (tag : Byte) (id : Nat) (s : State), s.listening →
    (id = 0 ∨ 255 < id → exec (.tsrRemove tag id) s = .next (s.heard.replied tag .tsrRemove (.refused .badField (.field 0)))) ∧
    (1 ≤ id → id ≤ 255 → ∃ (l : List Tsr) (was : Bool),
      exec (.tsrRemove tag id) s = .next (State.replied { s.heard with osp := { s.osp with tsrs := l } } tag .tsrRemove
        (.accepted (.tsrRemoved was l.length))) ∧
      (was = true ↔ ∃ z ∈ s.osp.tsrs, z.id = id) ∧ l.Sublist s.osp.tsrs ∧ ∀ y, y ∈ l ↔ y ∈ s.osp.tsrs ∧ y.id ≠ id))

/-- The envelope and its orders. isqrt is the greatest integer whose square does not exceed its argument; v_perm is the least
ceiling, the first named among equals binding (R56, equal ceilings of one row by assumption log 46); the level is the highest whose
condition v_meas meets (R57). At a sample with no switch active and no stop in progress: the wrong-way accumulator (R62); no rise
and no excess orders nothing (R58); a rise into SERVICE takes a BRAKE stop (SB being commanded APPLY where the line is WARMING),
into EMERGENCY an emergency, into RAIL an emergency with the rail-brake trip (R58); and an accumulator above 200 mm with its flag
clear an emergency with cause ROLLBACK (R63). What a first evaluation clears and the order within one evaluation are assumption log
15. -/
def Obligations.EnvelopeOrdersStops : Prop :=
  (∀ n : Nat, isqrt n * isqrt n ≤ n ∧ n < (isqrt n + 1) * (isqrt n + 1)) ∧
  (∀ (l : List (Nat × Binding)) (v : Nat) (b : Binding), leastCeiling l = some (v, b) ↔
    ∃ before after, l = before ++ (v, b) :: after ∧ (∀ c ∈ before, v < c.1) ∧ (∀ c ∈ after, v ≤ c.1)) ∧
  (∀ (s : State) (p : LineFields) (c : Nat × Binding),
    c ∈ s.ceilings p s.comingDir (s.envelope p).eval.braking.aEff (s.envelope p).eval.c → (s.envelope p).vPerm ≤ c.1) ∧
  (∀ (p : LineFields) (vPerm v : Nat),
    let service := vPerm + max p.mSAbs (vPerm * p.mSPm / 1000)
    let emergency := vPerm + max p.mEAbs (vPerm * p.mEPm / 1000)
    (levelOf p vPerm v = .rail ↔ p.vRail < v) ∧
    (levelOf p vPerm v = .emergency ↔ v ≤ p.vRail ∧ emergency < v) ∧
    (levelOf p vPerm v = .service ↔ v ≤ p.vRail ∧ v ≤ emergency ∧ service < v) ∧
    (levelOf p vPerm v = .warn ↔ v ≤ p.vRail ∧ v ≤ emergency ∧ v ≤ service ∧ vPerm < v) ∧
    (levelOf p vPerm v = .none ↔ v ≤ p.vRail ∧ v ≤ vPerm)) ∧
  (∀ (s : State) (p : LineFields), s.samples p → s.plain → s.lmu.mode ≠ .init → s.ptr.otLower = false → s.ptr.otUpper = false →
    let q := s.sampled p ⟨false, false, false, false⟩
    let now := s.keeping q
    let r := now.envelope p
    let travel : Int := q.dp - s.ptr.dp
    let acc : Nat :=
      if s.osp.fresh then 0
      else if s.hac.state = .held then (q.dp - s.osp.heldRef).natAbs
      else if s.hac.tripDir = .up then ((s.osp.acc : Int) - travel).toNat
      else ((s.osp.acc : Int) + travel).toNat
    let rises : Prop := s.osp.level.rank < r.level.rank
    let rollsBack : Prop := 200 < acc ∧ (s.osp.fresh = true ∨ s.osp.ordered = false)
    let sampled : Host.Outcome State Fault Refusal := exec (.positionSample false false false false) s
    q.beyond = false →
      (¬rollsBack → ¬rises ∨ r.level = .warn → s.hac.ramp = false →
        ∃ t, sampled = .next t ∧ t.bsq = now.bsq ∧ t.lmu = s.lmu ∧ t.ptr = q ∧ t.hac.state = s.hac.state ∧
          t.hac.vRef = min s.hac.vRef r.vPerm ∧
          t.osp = { s.osp with
            level := r.level, vPerm := r.vPerm, binding := r.binding, last := some r.eval, acc := acc, fresh := false
            heldRef := if s.osp.fresh then q.dp else s.osp.heldRef, ordered := !s.osp.fresh && s.osp.ordered }) ∧
      (¬rollsBack → rises → r.level = .service → (s.lmu.mode = .warming → (s.brake .sb).cmd = .apply) →
        ∃ t, sampled = .next t ∧ t.osp.level = .service ∧ t.osp.vPerm = r.vPerm ∧ (t.brake .sb).cmd = .apply ∧
          t.brake .eb = s.brake .eb ∧ t.lmu = s.lmu ∧
          (s.hac.state = .held → t.hac.state = .held) ∧ (s.hac.state ≠ .held → t.hac.state = .stopping) ∧
          (s.hac.state.drives = true → t.hac.vRef = 0) ∧
          ∃ check, t.bsq.stop = some { kind := .brake, cause := .overspeed, x := q.x, vMeas := q.vMeas, check := check }) ∧
      (rises → r.level = .emergency → ∃ t, sampled = .next t ∧ now.emergencyTaken t .overspeed) ∧
      (rises → r.level = .rail → ∃ t, sampled = .next t ∧ now.emergencyTaken t .rail ∧ t.bsq.railTrip = true) ∧
      (rollsBack → ¬rises ∨ r.level = .warn →
        ∃ t, sampled = .next t ∧ now.emergencyTaken t .rollback ∧
          (s.hac.state = .held → t.osp.acc = acc ∧ t.osp.ordered = true)))

/-! ## The Brake Sequencer -/

/-- BRAKE_CONTACT_CHANGE while the haulage is HELD, with no stop, no test and the line not WARMING (R69, R70): contacts that leave
the reading as it was change nothing else; a lift or a set is complete at its reading; a reading between starts the response timer
of a record at rest, and a reading back stops it. That contacts which leave the reading as it was change the contacts only is
assumption log 36. With every side SECURED, no window OPEN and the line not PARKED, a reading that swings to the opposite trips the
line: APPLIED that reads released, or SB RELEASED that reads applied, is a FAULT with an EMERGENCY stop BRAKE_FAULT, and EB RELEASED
that reads applied is APPLIED with an EMERGENCY stop EXTERNAL (R70, R71, R78), the stop ending at once where the line stands and SB
is APPLIED (R79). -/
def Obligations.ContactsMoveRecord : Prop :=
  ∀ (b : BrakeId) (x y : Bool) (s : State), s.isRunning → s.hac.state = .held → s.bsq.stop = none → s.bsq.test = none →
    s.lmu.mode ≠ .warming →
    let now : Reading := if x = y then .between else if x then .applied else .released
    let inputs : State :=
      { s with overrun := false, bsq := { s.bsq with contacts := s.bsq.contacts.set b { applied := x, released := y } } }
    let after (r : BrakeRec) : Prop := exec (.brakeContactChange b x y) s = .next (inputs.setBrake b r)
    let bound : Option Nat := s.line.map (fun p => if b = .sb then p.tSbResp else p.tEbResp)
    (now = s.reading b → exec (.brakeContactChange b x y) s = .next inputs) ∧
    (now ≠ s.reading b →
      ((s.brake b).state = .lifting → now = .released → after { s.brake b with state := .released, timer := none }) ∧
      ((s.brake b).state = .lifting → now ≠ .released → after (s.brake b)) ∧
      ((s.brake b).state = .setting → now = .applied → after { s.brake b with state := .applied, timer := none }) ∧
      ((s.brake b).state = .setting → now ≠ .applied → after (s.brake b)) ∧
      ((s.brake b).state = .applied ∨ (s.brake b).state = .released → now = .between → after { s.brake b with timer := bound }) ∧
      ((s.brake b).state = .applied → now = .applied → after { s.brake b with timer := none }) ∧
      ((s.brake b).state = .released → now = .released → after { s.brake b with timer := none }) ∧
      ((s.brake b).state = .fault → after (s.brake b)) ∧
      (s.lmu.mode ≠ .parked → s.allSecured = true → s.noneOpen →
        let stop : StopCause → StopRecord := fun cause =>
          { kind := .emergency, cause := cause, x := s.ptr.x, vMeas := s.ptr.vMeas, check := .absent }
        let trips (cause : StopCause) (t : State) : Prop :=
          t.bsq.stop = (if s.ptr.standstill = true ∧ (t.brake .sb).state = .applied then none else some (stop cause)) ∧
            t.bsq.latch = some (s.bsq.latch.getD cause) ∧ (∀ d, (t.brake d).cmd = .apply) ∧ t.lmu.mode = .tripped ∧
            t.hac.state = .held ∧ t.bsq.contacts = inputs.bsq.contacts ∧ t.ptr = s.ptr ∧ t.clu = s.clu ∧ t.dru = s.dru ∧
            t.ptb = s.ptb ∧ t.glm = s.glm ∧ t.tally = s.tally ∧ t.line = s.line
        (((s.brake b).state = .applied ∧ now = .released) ∨ (b = .sb ∧ (s.brake b).state = .released ∧ now = .applied) →
          ∃ t, exec (.brakeContactChange b x y) s = .next t ∧ trips .brakeFault t ∧
            t.brake b = { cmd := .apply, state := .fault, timer := none }) ∧
        (b = .eb → (s.brake b).state = .released → now = .applied →
          ∃ t, exec (.brakeContactChange b x y) s = .next t ∧ trips .external t ∧
            t.brake .eb = { cmd := .apply, state := .applied, timer := none })))

/-- The emergencies of the Brake Sequencer's timers, with nothing else set off: a response timer's expiry puts its brake in FAULT
(R70, R71), and t_check's expiry during a BRAKE stop escalates it (R77); an expiry with nothing running changes nothing (assumption
log 7, the model's choice). -/
def Obligations.TimersOrderEmergency : Prop :=
  ∀ s : State, s.isRunning →
    (∀ b, s.plain → s.bsq.stop = none → (s.brake b).timer.isSome = true → (s.brake b).state ≠ .fault →
      ∃ t, exec (.brakeResponseTimeout b) s = .next t ∧ s.emergencyTaken t .brakeFault ∧ (t.brake b).state = .fault ∧
        (t.brake b).timer = none) ∧
    (∀ b, (s.brake b).timer = none → exec (.brakeResponseTimeout b) s = .next { s with overrun := false }) ∧
    (∀ r m, s.plain → s.bsq.stop = some r → r.kind = .brake → r.check = .running m →
      ∃ t, exec .decelerationCheckTimeout s = .next t ∧ s.emergencyTaken t .escalation) ∧
    (s.bsq.stop = none → exec .decelerationCheckTimeout s = .next { s with overrun := false })

/-- BRAKE_TEST (R83, R84): an unknown brake is a bad field, while a test is running too (assumption log 57, the model's choice), a
running test BUSY, and every unmet condition INHIBITED; a test of SB enters TORQUE at once with its reference, its timer and the
torque line, and passes at the timer's expiry (R85). An expiry without a test changes nothing (assumption log 7, the model's
choice). A test of EB commands EB APPLY; EB APPLIED in PREPARING brings SB RELEASE where R73 allows it and else an abort; SB
RELEASED enters TORQUE; the timer's expiry enters RESTORING with SB commanded APPLY; SB APPLIED brings EB RELEASE; and EB RELEASED
ends the test (R84, R85). A sample in TORQUE keeps the largest movement, and one above 50 mm fails the test with an EMERGENCY stop
TEST_FAIL (R85), the level not rising and the wrong-way accumulator within its limit at that sample. -/
def Obligations.BrakeTestsRun : Prop :=
  ∀ s : State,
    (∀ (tag : Byte) (brake : Nat), s.listening → 1 < brake →
      exec (.brakeTest tag brake) s = .next (s.heard.replied tag .brakeTest (.refused .badField (.field 0)))) ∧
    (∀ (tag : Byte) (brake : Nat), s.listening → brake ≤ 1 → s.bsq.test.isSome = true →
      exec (.brakeTest tag brake) s = .next (s.heard.replied tag .brakeTest (.refused .busy .empty))) ∧
    (∀ (tag : Byte) (brake : Nat), s.listening → brake ≤ 1 → s.bsq.test = none →
      let reasons := s.testReasons (if brake = 0 then .sb else .eb)
      reasons ≠ [] →
      exec (.brakeTest tag brake) s = .next (s.heard.replied tag .brakeTest (.refused .inhibited (.testReasons reasons)))) ∧
    (∀ tag : Byte, s.listening → s.bsq.test = none → s.testReasons .sb = [] →
      ∃ u : State, exec (.brakeTest tag 0) s = .next (u.replied tag .brakeTest (.accepted .none)) ∧
        State.sameBut { s.heard with bsq := { s.bsq with
          torqueLine := true
          test := some { brake := .sb, phase := .torque, ref := s.ptr.dp, move := 0,
                         timer := s.line.map (fun p => p.tTest * 1000) } } } u) ∧
    (∀ t, s.isRunning → s.bsq.test = some t → t.brake = .sb → t.phase = .torque →
      ∃ u, exec .brakeTestTimerExpiry s = .next u ∧
        State.sameBut { s with overrun := false, bsq := { s.bsq with test := none, torqueLine := false } } u) ∧
    (s.isRunning → s.bsq.test = none → exec .brakeTestTimerExpiry s = .next { s with overrun := false }) ∧
    (∀ tag : Byte, s.listening → s.bsq.test = none → s.testReasons .eb = [] → (s.brake .eb).cmd = .release → s.reading .eb ≠ .applied →
      let x : BrakeTest := { brake := .eb, phase := .preparing, ref := 0, move := 0, timer := none }
      let eb : BrakeRec := { cmd := .apply, state := .setting, timer := s.line.map LineFields.tEbResp }
      ∃ u : State, exec (.brakeTest tag 1) s = .next (u.replied tag .brakeTest (.accepted .none)) ∧
        State.sameBut { s.heard with bsq := { s.bsq with
          torqueLine := false, test := some x, recs := s.bsq.recs.set .eb eb } } u) ∧
    (∀ x, s.isRunning → s.bsq.test = some x → x.brake = .eb → s.hac.state = .held → s.bsq.stop = none → s.lmu.mode ≠ .warming →
      let lift : BrakeRec := { cmd := .release, state := .lifting, timer := s.line.map LineFields.tSbResp }
      let free : BrakeRec := { cmd := .release, state := .lifting, timer := s.line.map LineFields.tEbResp }
      let set : BrakeRec := { cmd := .apply, state := .setting, timer := s.line.map LineFields.tSbResp }
      let inputs (b : BrakeId) (applied : Bool) (r : BrakeRec) (bsq : Brakes) : Brakes :=
        { bsq with contacts := s.bsq.contacts.set b { applied := applied, released := !applied }, recs := bsq.recs.set b r }
      let becomes (c : Instr) (bsq : Brakes) : Prop :=
        ∃ t, exec c s = .next t ∧ State.sameBut { s with overrun := false, bsq := bsq } t
      let done (b : BrakeId) (st : BrakeState) : BrakeRec := { s.brake b with state := st, timer := none }
      (x.phase = .preparing → (s.brake .eb).state = .setting → (s.brake .eb).cmd = .apply → s.reading .eb ≠ .applied →
        (s.brake .sb).state = .applied → (s.brake .sb).cmd = .apply → s.reading .sb ≠ .released →
        (s.interlockHolds = true → becomes (.brakeContactChange .eb true false)
          (inputs .eb true (done .eb .applied) { s.bsq with recs := s.bsq.recs.set .sb lift })) ∧
        (s.interlockHolds = false → becomes (.brakeContactChange .eb true false)
          (inputs .eb true (done .eb .applied) { s.bsq with test := none, torqueLine := false }))) ∧
      (x.phase = .preparing → (s.brake .sb).state = .lifting → (s.brake .sb).cmd = .release → s.reading .sb ≠ .released →
        (s.brake .eb).state = .applied → (s.brake .eb).cmd = .apply →
        let torque : BrakeTest := { x with phase := .torque, ref := s.ptr.dp, timer := s.line.map (fun p => p.tTest * 1000) }
        becomes (.brakeContactChange .sb false true)
          (inputs .sb false (done .sb .released) { s.bsq with test := some torque, torqueLine := true })) ∧
      (x.phase = .torque → (s.brake .sb).state = .released → (s.brake .sb).cmd = .release → s.reading .sb ≠ .applied →
        becomes .brakeTestTimerExpiry { s.bsq with
          test := some { x with phase := .restoring, timer := none }, torqueLine := false, recs := s.bsq.recs.set .sb set }) ∧
      (x.phase = .restoring → (s.brake .sb).state = .setting → (s.brake .sb).cmd = .apply → s.reading .sb ≠ .applied →
        (s.brake .eb).state = .applied → (s.brake .eb).cmd = .apply → s.reading .eb ≠ .released → s.bsq.latch = none →
        becomes (.brakeContactChange .sb true false)
          (inputs .sb true (done .sb .applied) { s.bsq with recs := s.bsq.recs.set .eb free })) ∧
      (x.phase = .restoring → (s.brake .eb).state = .lifting → (s.brake .eb).cmd = .release → s.reading .eb ≠ .released →
        (s.brake .sb).state = .applied →
        becomes (.brakeContactChange .eb false true)
          (inputs .eb false (done .eb .released) { s.bsq with test := none, torqueLine := false }))) ∧
    (∀ x p, s.isRunning → s.line = some p → s.ptr.first = .ordinary → s.ptr.standstill = false → s.ptr.still = none → 0 < p.tStill →
      s.ptr.otLower = false → s.ptr.otUpper = false → s.lmu.mode ≠ .init → s.lmu.mode ≠ .parked → s.allSecured = true →
      s.noneOpen → s.hac.state = .held → s.bsq.stop = none → s.bsq.test = some x → x.phase = .torque →
      let q := s.sampled p ⟨false, false, false, false⟩
      let now := s.keeping q
      let m := (q.dp - x.ref).natAbs
      q.beyond = false → (now.envelope p).level.rank ≤ s.osp.level.rank →
      s.osp.fresh = true ∨ (q.dp - s.osp.heldRef).natAbs ≤ 200 ∨ s.osp.ordered = true →
      (m ≤ 50 → ∃ t, exec (.positionSample false false false false) s = .next t ∧ t.lmu = s.lmu ∧ t.ptr = q ∧
        t.hac.state = .held ∧ t.bsq = { now.bsq with test := some { x with move := max x.move m } }) ∧
      (50 < m → ∃ t, exec (.positionSample false false false false) s = .next t ∧ now.emergencyTaken t .testFail ∧
        t.bsq.test = none ∧ t.bsq.torqueLine = false))

/-- TRIP_RESET (R81, R82): INHIBITED with every reason present; with none, and the haulage HELD without a stop or a test, the latch
and the rail-brake trip are cleared, a brake in FAULT is APPLIED, EB is commanded RELEASE and the mode becomes MAINTENANCE. -/
def Obligations.TripResetAnswers : Prop :=
  ∀ (tag : Byte) (s : State), s.listening →
    (s.tripReasons ≠ [] →
      exec (.tripReset tag) s = .next (s.heard.replied tag .tripReset (.refused .inhibited (.tripReasons s.tripReasons)))) ∧
    (s.tripReasons = [] → s.hac.state = .held → s.bsq.stop = none → s.bsq.test = none →
      (∀ b, (s.brake b).cmd = .apply ∧ ((s.brake b).state = .applied ∨ (s.brake b).state = .fault)) →
      ∃ u : State, exec (.tripReset tag) s = .next (u.replied tag .tripReset (.accepted .none)) ∧
        u.bsq.latch = none ∧ u.bsq.railTrip = false ∧ u.bsq.stop = none ∧
        (u.brake .sb).cmd = .apply ∧ (u.brake .sb).state = .applied ∧
        u.brake .eb = { cmd := .release, state := .lifting, timer := s.line.map LineFields.tEbResp } ∧
        u.lmu = { s.lmu with mode := .maintenance, variant := none, target := none, warmTimer := none } ∧
        u.hac = s.hac ∧ u.ptr = s.ptr ∧ u.osp = s.osp ∧ u.clu = s.clu ∧ u.dru = s.dru ∧ u.glm = s.glm ∧ u.ptb = s.ptb ∧
        u.tally = s.tally)

/-! ## The Car Link Unit -/

/-- A burst on a running car link (R91, R93): one that is no status frame is counted a discard in the record and in the link's
health counter; one that repeats the last sequence number is counted a duplicate; a next frame of a FRESH car whose doors stay
proven and whose alarm, key, rail brake and marker say nothing new is stored and answered by a command frame. The command timer's
expiry sends a command frame (R92); nothing is received on a stopped link (R96). A
command timer that is stopped has no effect (assumption log 7, the model's choice). Frames that change the gap, the alarm, the crew
key, the door fields or the marker are not said here. -/
def Obligations.StatusFrameOutcomes : Prop :=
  ∀ (c : Car) (bytes : List Byte) (s : State), s.isRunning →
    let r := s.car c
    let n := s.lmu.health.get (linkCounter c)
    (r.running = false → exec (.carStatusFrame c bytes) s = .next { s with overrun := false }) ∧
    (r.running = true → statusOf? c bytes = none → (2 ^ n.exp ≤ n.count ∨ n.count + 1 < 2 ^ n.exp) →
      exec (.carStatusFrame c bytes) s = .next (State.setCar
        { s with overrun := false, lmu := { s.lmu with
          health := s.lmu.health.set (linkCounter c) { n with count := min 65535 (n.count + 1) } } } c
        { r with discards := min 255 (r.discards + 1), discarded := min 65535 (r.discarded + 1) })) ∧
    (∀ x, r.running = true → statusOf? c bytes = some x → r.lastSeq = some x.seq →
      exec (.carStatusFrame c bytes) s = .next (State.setCar { s with overrun := false } c
        { r with duplicates := min 65535 (r.duplicates + 1) })) ∧
    (∀ x last before, r.running = true → statusOf? c bytes = some x → r.freshness = .fresh → r.lastSeq = some last → last < 256 →
      x.seq = (last + 1) % 256 → r.status = some before → x.marker = none → x.alarm = false → x.crewKey = before.crewKey →
      x.rail = before.rail → (∀ d, (s.side c d).state = .secured ∧ (x.door d).leaf = .locked) →
      exec (.carStatusFrame c bytes) s = .next (State.setCar { s with overrun := false } c { r with
        lastSeq := some x.seq, discards := 0, status := some x, since := some 0, accepted := min 65535 (r.accepted + 1)
        lastSent := s.levels c, timer := some 100 })) ∧
    (r.running = true → r.timer.isSome = true →
      exec (.carCommandTimer c) s = .next (State.setCar { s with overrun := false } c
        { r with lastSent := s.levels c, timer := some 100 })) ∧
    (r.timer = none → exec (.carCommandTimer c) s = .next { s with overrun := false })

/-- CAR_STALE_TIMEOUT takes a FRESH car to STALE and makes each of its sides that is not in FAULT UNPROVEN, the reference going to 0
if one was SECURED (R37, R94, R121), and where SB is commanded RELEASE on a moving line takes a BRAKE stop with cause INTERLOCK
(R73, R76); CAR_LOST_TIMEOUT takes a STALE car to LOST and adds 1 to its link's health counter, SB being commanded APPLY as R73 has
it, and on a moving line orders a CONTROLLED stop with cause LINK, which a stop in progress absorbs (R94, R74); neither does
anything in another freshness. -/
def Obligations.SilenceUnprovesCar : Prop :=
  ∀ (c : Car) (s : State), s.isRunning →
    (s.undisturbed → s.isFresh c = true →
      ∃ t, exec (.carStaleTimeout c) s = .next t ∧ t.car c = { s.car c with freshness := .stale } ∧
        t.car c.other = s.car c.other ∧
        (∀ d, t.side c d = if (s.side c d).state = .fault then s.side c d else (s.side c d).unproven) ∧
        (∀ d, t.side c.other d = s.side c.other d) ∧
        ((∃ d, (s.side c d).state = .secured) → t.hac = { s.hac with vRef := 0, word := some (driveWordOf { s with
          hac := { s.hac with vRef := 0 } }) }) ∧
        t.ptr = s.ptr ∧ t.osp = s.osp ∧ t.bsq = s.bsq ∧ t.glm = s.glm ∧ t.tally = s.tally ∧ t.ptb = s.ptb ∧ t.lmu = s.lmu) ∧
    (s.isFresh c = true → s.hac.state.drives = true ∨ s.hac.state = .berthing → (s.brake .sb).cmd = .release → s.bsq.stop = none →
      s.bsq.test = none → s.ptr.standstill = false → s.noneOpen → s.lmu.mode ≠ .warming →
      ∃ t, exec (.carStaleTimeout c) s = .next t ∧ t.car c = { s.car c with freshness := .stale } ∧
        t.car c.other = s.car c.other ∧
        (∀ d, t.side c d = if (s.side c d).state = .fault then s.side c d else (s.side c d).unproven) ∧
        (∀ d, t.side c.other d = s.side c.other d) ∧ t.hac.state = .stopping ∧ t.hac.vRef = 0 ∧ (t.brake .sb).cmd = .apply ∧
        t.bsq.stop = some { kind := .brake, cause := .interlock, x := s.ptr.x, vMeas := s.ptr.vMeas
                            check := .running (s.line.map LineFields.tCheck) } ∧
        t.brake .eb = s.brake .eb ∧ t.ptr = s.ptr ∧ t.lmu = s.lmu ∧ t.glm = s.glm ∧ t.ptb = s.ptb ∧ t.tally = s.tally) ∧
    (s.isFresh c = false → exec (.carStaleTimeout c) s = .next { s with overrun := false }) ∧
    (s.undisturbed → (s.car c).freshness = .stale → s.hac.state = .held →
      let n := s.lmu.health.get (linkCounter c)
      (2 ^ n.exp ≤ n.count ∨ n.count + 1 < 2 ^ n.exp) →
      ∃ t, exec (.carLostTimeout c) s = .next t ∧ State.sameBut (State.setCar
        { s with overrun := false, lmu := { s.lmu with
          health := s.lmu.health.set (linkCounter c) { n with count := min 65535 (n.count + 1) } } } c
        { s.car c with freshness := .lost }) t) ∧
    (s.undisturbed → (s.car c).freshness = .stale → s.hac.state ≠ .held → s.uncrossed (linkCounter c) 1 →
      let lost : State := State.setCar (State.counted { s with overrun := false } (linkCounter c) 1) c
        { s.car c with freshness := .lost }
      let stop : StopRecord := { kind := .controlled, cause := .link, x := s.ptr.x, vMeas := s.ptr.vMeas, check := .absent }
      (s.bsq.stop.isSome = true → ∃ t, exec (.carLostTimeout c) s = .next t ∧ lost.sameBut t) ∧
      (s.bsq.stop = none → s.bsq.test = none → s.ptr.standstill = false → (s.brake .sb).state ≠ .lifting →
        s.hac.state = .berthing ∨ (s.hac.state.drives = true ∧ s.hac.vRef ≠ 0) →
        ∃ t, exec (.carLostTimeout c) s = .next t ∧ State.sameBut { lost with
          hac := if s.hac.state = .berthing then s.hac else { s.hac with ramp := true }
          bsq := { s.bsq with stop := some stop } } t)) ∧
    ((s.car c).freshness ≠ .stale → exec (.carLostTimeout c) s = .next { s with overrun := false })

/-- The passenger alarm and the door fields of a frame. ALARM_CLEAR (R99): refused without a last status or while it shows the
alarm; else the latch is cleared, with an ALARM report CLEARED where the route holds REPORT if it was set, and the other car's latch
stays. ALARM_ROUTE_SET adds the destinations named; ALARM_ROUTE_CLEAR removes them but leaves the first present where none would
remain (R100). A frame with the alarm yes sets a clear latch with its report and, moving under STOP_NOW, orders a CONTROLLED stop
with cause ALARM (R43, R98). The door fields of a frame are judged by the side's state: while HELD by R112, R113, R117 and R119, an
entry into RELEASED correcting the tally (R114) and opening a window (R148); while moving a side that is not shown locked is a FAULT
MOVING (R120), which orders a BRAKE stop with cause DOOR, or meets the one that the interlock watch has taken with SB commanded
RELEASE (R73). The ALARM report stands as it was built at the latching (assumption log 26), is posted before the reply on an idle
line (assumption log 21) and has no alarm action before the parameters are loaded (assumption log 12), and what a change of a side
sets off follows the order of assumption log 10. -/
def Obligations.AlarmsAndDoorsFollowFrames : Prop :=
  (∀ (tag : Byte) (s : State), s.listening →
    (∀ car, 1 < car → exec (.alarmClear tag car) s = .next (s.heard.replied tag .alarmClear (.refused .badField (.field 0)))) ∧
    (∀ c : Car,
      let code := if c = .a then 0 else 1
      ((s.car c).status = none →
        exec (.alarmClear tag code) s = .next (s.heard.replied tag .alarmClear (.refused .inhibited (.alarm false)))) ∧
      (∀ x, (s.car c).status = some x → x.alarm = true →
        exec (.alarmClear tag code) s = .next (s.heard.replied tag .alarmClear (.refused .inhibited (.alarm true)))) ∧
      (∀ x, (s.car c).status = some x → x.alarm = false → (s.car c).alarm = false →
        exec (.alarmClear tag code) s = .next (s.heard.replied tag .alarmClear (.accepted (.alarmCleared false)))) ∧
      (∀ x, (s.car c).status = some x → x.alarm = false → (s.car c).alarm = true →
        let cleared : State := s.heard.setCar c { s.car c with alarm := false }
        let report : AlarmReport :=
          { car := c, latched := false, before := (s.car c).freshness, after := (s.car c).freshness, lastSeq := (s.car c).lastSeq
            other := (s.car c.other).alarm, route := s.clu.route, action := s.line.map LineFields.alarmAction
            haulage := s.hac.state, x := s.ptr.x }
        exec (.alarmClear tag code) s = .next (State.replied
          (if s.clu.route.report = true then post (.alarm report) cleared else cleared) tag .alarmClear
          (.accepted (.alarmCleared true))))) ∧
    (∀ dests, ∃ r : AlarmRoute, exec (.alarmRouteSet tag dests) s =
        .next (State.replied { s.heard with clu := { s.clu with route := r } } tag .alarmRouteSet (.accepted (.route r))) ∧
      r.report = (s.clu.route.report || dests.testBit 0) ∧ r.lower = (s.clu.route.lower || dests.testBit 1) ∧
      r.upper = (s.clu.route.upper || dests.testBit 2)) ∧
    (∀ dests, ∃ r : AlarmRoute, exec (.alarmRouteClear tag dests) s =
        .next (State.replied { s.heard with clu := { s.clu with route := r } } tag .alarmRouteClear (.accepted (.route r))) ∧
      let report := s.clu.route.report && !dests.testBit 0
      let lower := s.clu.route.lower && !dests.testBit 1
      let upper := s.clu.route.upper && !dests.testBit 2
      (report || lower || upper = true → r = { report := report, lower := lower, upper := upper }) ∧
      ((report || lower || upper) = false →
        r = if s.clu.route.report then { report := true, lower := false, upper := false }
          else if s.clu.route.lower then { report := false, lower := true, upper := false }
          else { report := false, lower := false, upper := s.clu.route.upper }))) ∧
  (∀ (s : State) (c : Car) (bytes : List Byte) (x : CarStatus), s.isRunning → s.nextFrame c bytes x → s.provenBy c x →
    x.marker = none → x.alarm = true → s.bsq.test = none →
    let now : State := { s with overrun := false }
    let latched : State := now.setCar c { s.car c with alarm := true }
    let report : AlarmReport :=
      { car := c, latched := true, before := .fresh, after := .fresh, lastSeq := some x.seq, other := (s.car c.other).alarm
        route := s.clu.route
        action := s.line.map LineFields.alarmAction, haulage := s.hac.state, x := s.ptr.x }
    let stopNow : Prop := s.hac.state ≠ .held ∧ ∃ p, s.line = some p ∧ p.alarmAction = 0
    ((s.car c).alarm = true → exec (.carStatusFrame c bytes) s = .next (now.answered c x)) ∧
    ((s.car c).alarm = false → ¬stopNow → exec (.carStatusFrame c bytes) s =
      .next (State.answered (if s.clu.route.report = true then post (.alarm report) latched else latched) c x)) ∧
    ((s.car c).alarm = false → stopNow → s.hac.state.drives = true → s.hac.vRef ≠ 0 → s.bsq.stop = none →
      s.ptr.standstill = false → (s.brake .sb).state ≠ .lifting →
      ∃ t, exec (.carStatusFrame c bytes) s = .next t ∧ State.sameBut (State.answered { latched with
        hac := { s.hac with ramp := true }
        bsq := { s.bsq with
          stop := some { kind := .controlled, cause := .alarm, x := s.ptr.x, vMeas := s.ptr.vMeas, check := .absent } } } c x) t)) ∧
  (∀ (s : State) (c : Car) (d other : Side) (bytes : List Byte) (x : CarStatus), s.isRunning → s.nextFrame c bytes x →
    x.marker = none → x.alarm = false → other ≠ d → (s.side c other).state = .secured → (x.door other).leaf = .locked →
    let now : State := { s with overrun := false }
    let r := s.side c d
    let y := x.door d
    let becomes (v : State) (r' : DoorSide) : Prop := ∃ t, exec (.carStatusFrame c bytes) s = .next t ∧
      State.sameBut (State.answered (v.setSide c d r') c x) t
    let stays : Prop := exec (.carStatusFrame c bytes) s = .next (now.answered c x)
    (s.hac.state = .held → s.undisturbed →
      (r.state = .releasePending → y.ack = false → y.leaf ≠ .opened → stays) ∧
      (r.state = .releasePending → y.ack = false → y.leaf = .opened → becomes now (r.faulted .opened)) ∧
      (r.state = .releasePending → y.ack = true →
        let onStop : Prop := r.kind = some .auto ∨ r.kind = some .manual
        let terminal : Prop := onStop ∧ ∃ j, r.stop = some j ∧ ∃ z, s.stopAt? j = some z ∧ (z.car.get c).terminal = true
        let opens (g : Group) : Prop :=
          onStop ∧ (∃ j, r.stop = some j ∧ ∃ z, s.stopAt? j = some z ∧ (z.car.get c).group = some g) ∧
          ((s.window g).state = .shut ∨
            ((s.window g).state = .sealed ∧ (s.window g).car = some c ∧ (s.window g).stop = r.stop))
        ∃ t, exec (.carStatusFrame c bytes) s = .next t ∧
          t.side c d = { r with state := if y.leaf = .locked then .released else .opened, ackTimer := none } ∧
          t.side c other = s.side c other ∧ (∀ e, t.side c.other e = s.side c.other e) ∧
          (terminal → s.dru.cleared.get c = false → t.dru.cleared.get c = true ∧
            t.tallyOf c = { s.tallyOf c with aboardMin := 0, aboardMax := 0, unknown := false }) ∧
          (¬terminal ∨ s.dru.cleared.get c = true →
            t.dru.cleared = s.dru.cleared ∧ t.tallyOf c = { s.tallyOf c with aboardMin := 0 }) ∧
          t.tallyOf c.other = s.tallyOf c.other ∧
          (∀ g, (opens g → t.window g = { state := .opened, car := some c, stop := r.stop
                                          dwell := s.line.map (fun p => p.dwell * 1000) }) ∧
            (¬opens g → t.window g = s.window g)) ∧
          t.hac = s.hac ∧ t.bsq = s.bsq ∧ t.lmu = s.lmu ∧ t.ptr = s.ptr ∧ t.osp = s.osp ∧ t.ptb = s.ptb) ∧
      (r.state = .released → y.leaf = .locked → stays) ∧
      (r.state = .released → y.leaf ≠ .locked → becomes now { r with state := .opened }) ∧
      (r.state = .opened → y.leaf ≠ .locked → stays) ∧
      (r.state = .opened → y.leaf = .locked → r.kind = none →
        becomes (now.setTally c { s.tallyOf c with aboardMin := 0 }) { r with state := .released }) ∧
      (r.state = .closing → y.leaf = .locked → y.ack = false → becomes now r.secured) ∧
      (r.state = .closing → y.proves = false → y.obstruction = true → r.retries < 3 →
        becomes now { r with state := .opened, closeTimer := none, retryTimer := s.line.map (fun _ => 2000) }) ∧
      (r.state = .closing → y.proves = false → y.obstruction = true → 3 ≤ r.retries → becomes now (r.faulted .stuck)) ∧
      (r.state = .closing → y.proves = false → y.obstruction = false → stays) ∧
      (r.state = .secured → y.leaf = .locked → stays) ∧
      (r.state = .secured → y.leaf = .closed → y.ack = true → becomes now.referenceZero r.unproven) ∧
      (r.state = .secured → y.leaf = .closed → y.ack = false → becomes now.referenceZero (r.faulted .unlocked)) ∧
      (r.state = .secured → y.leaf = .opened → y.ack = true → becomes now.referenceZero (r.faulted .lateOpen)) ∧
      (r.state = .secured → y.leaf = .opened → y.ack = false → becomes now.referenceZero (r.faulted .opened)) ∧
      (r.state = .unproven → y.leaf = .locked → y.ack = false → becomes now r.secured) ∧
      (r.state = .unproven → y.proves = false → stays) ∧
      (r.state = .fault → stays)) ∧
    (s.hac.state.drives = true ∨ s.hac.state = .berthing → s.bsq.stop = none → s.bsq.test = none → s.ptr.standstill = false →
      s.noneOpen → s.lmu.mode ≠ .warming →
      (r.state = .secured ∧ y.leaf ≠ .locked) ∨ (r.state = .unproven ∧ y.proves = false ∧ (s.brake .sb).cmd = .apply) →
      ∃ t, exec (.carStatusFrame c bytes) s = .next t ∧ t.side c d = r.faulted .moving ∧ t.side c other = s.side c other ∧
        (∀ e, t.side c.other e = s.side c.other e) ∧ t.hac.state = .stopping ∧ t.hac.vRef = 0 ∧ (t.brake .sb).cmd = .apply ∧
        t.bsq.stop = some { kind := .brake, cause := if (s.brake .sb).cmd = .release then .interlock else .door, x := s.ptr.x
                            vMeas := s.ptr.vMeas, check := .running (s.line.map LineFields.tCheck) } ∧
        t.brake .eb = s.brake .eb ∧ t.ptr = s.ptr ∧ t.lmu = s.lmu ∧ t.glm = s.glm ∧ t.ptb = s.ptb ∧ t.tally = s.tally))

/-! ## The Door Release Unit -/

/-- The three timers of a door side, SB being commanded APPLY and no window OPEN: an acknowledgement that does not come leaves the
side SECURED (R112); a close that is not proved in time waits for a retry, and after the third is a FAULT STUCK (R117, R118); a retry
closes again and counts (R118). A timer that is stopped has no effect (assumption log 7, the model's choice). -/
def Obligations.DoorTimersAct : Prop :=
  ∀ (c : Car) (d : Side) (s : State), s.isRunning → s.undisturbed →
    let r := s.side c d
    let now : State := { s with overrun := false }
    (r.ackTimer.isSome = true → r.state = .releasePending →
      ∃ t, exec (.acknowledgementTimeout c d) s = .next t ∧ State.sameBut (now.setSide c d r.secured) t) ∧
    (r.ackTimer = none → exec (.acknowledgementTimeout c d) s = .next now) ∧
    (r.closeTimer.isSome = true → r.state = .closing → r.retries < 3 →
      ∃ t, exec (.closeTimeout c d) s = .next t ∧ State.sameBut (now.setSide c d
        { r with state := .opened, closeTimer := none, retryTimer := s.line.map (fun _ => 2000) }) t) ∧
    (r.closeTimer.isSome = true → r.state = .closing → 3 ≤ r.retries →
      ∃ t, exec (.closeTimeout c d) s = .next t ∧ State.sameBut (now.setSide c d (r.faulted .stuck)) t) ∧
    (r.closeTimer = none → exec (.closeTimeout c d) s = .next now) ∧
    (r.retryTimer.isSome = true → r.state = .opened ∨ r.state = .released →
      ∃ t, exec (.retryTimerExpiry c d) s = .next t ∧ State.sameBut (now.setSide c d
        { r with state := .closing, retries := r.retries + 1, retryTimer := none,
                 closeTimer := s.line.map (fun p => p.tClose * 1000) }) t) ∧
    (r.retryTimer = none → exec (.retryTimerExpiry c d) s = .next now)

/-- DOOR_RELEASE and EVAC_RELEASE (R110, R111): a bad car or side by its offset; INHIBITED with every reason present; else a SECURED
side enters RELEASE_PENDING with its kind and stop and a 500 ms timer, the reference going to 0, and a side already released is left
as it is. -/
def Obligations.ReleaseRequestsAct : Prop :=
  ∀ (tag : Byte) (s : State), s.listening → s.undisturbed →
    let after (c : Car) (d : Side) (kind : ReleaseKind) (stop : Option Nat) : State := State.setSide
      { s.heard with hac := { s.hac with vRef := 0, word := some (driveWordOf { s with hac := { s.hac with vRef := 0 } }) } } c d
      { s.side c d with state := .releasePending, kind := some kind, stop := stop, ackTimer := s.line.map (fun _ => 500) }
    (∀ car side, 1 < car → exec (.doorRelease tag car side) s =
        .next (s.heard.replied tag .doorRelease (.refused .badField (.field 0))) ∧
      exec (.evacRelease tag car side) s = .next (s.heard.replied tag .evacRelease (.refused .badField (.field 0)))) ∧
    (∀ car side, car ≤ 1 → 1 < side → exec (.doorRelease tag car side) s =
        .next (s.heard.replied tag .doorRelease (.refused .badField (.field 1))) ∧
      exec (.evacRelease tag car side) s = .next (s.heard.replied tag .evacRelease (.refused .badField (.field 1)))) ∧
    (∀ (c : Car) (d : Side),
      let cc := if c = .a then 0 else 1
      let dd := if d = .left then 0 else 1
      (s.releaseReasons c d ≠ [] → exec (.doorRelease tag cc dd) s =
        .next (s.heard.replied tag .doorRelease (.refused .inhibited (.releaseReasons (s.releaseReasons c d))))) ∧
      (s.releaseReasons c d = [] → (s.side c d).state ≠ .secured → exec (.doorRelease tag cc dd) s =
        .next (s.heard.replied tag .doorRelease (.accepted (.released false)))) ∧
      (s.releaseReasons c d = [] → (s.side c d).state = .secured →
        ∃ u : State, exec (.doorRelease tag cc dd) s = .next (u.replied tag .doorRelease (.accepted (.released true))) ∧
          (after c d .manual s.hac.berth.stop).sameBut u) ∧
      (s.evacReasons c d ≠ [] → exec (.evacRelease tag cc dd) s =
        .next (s.heard.replied tag .evacRelease (.refused .inhibited (.evacReasons (s.evacReasons c d))))) ∧
      (s.evacReasons c d = [] → (s.side c d).state ≠ .secured → exec (.evacRelease tag cc dd) s =
        .next (s.heard.replied tag .evacRelease (.accepted (.released false)))) ∧
      (s.evacReasons c d = [] → (s.side c d).state = .secured →
        ∃ u : State, exec (.evacRelease tag cc dd) s = .next (u.replied tag .evacRelease (.accepted (.released true))) ∧
          (after c d .evac none).sameBut u))

/-- DOOR_CLOSE by the side's state (R116): SECURED and CLOSING stay; a released side, an UNPROVEN side of a FRESH car and a FAULT of
a FRESH car without proof while HELD enter CLOSING; a FAULT already proven is SECURED; the rest are refused with their detail. -/
def Obligations.DoorCloseByState : Prop :=
  ∀ (tag : Byte) (c : Car) (d : Side) (s : State), s.listening → s.undisturbed →
    let r := s.side c d
    let cmd : Instr := .doorClose tag (if c = .a then 0 else 1) (if d = .left then 0 else 1)
    let proven : Prop := ∃ x, (s.car c).status = some x ∧ (x.door d).leaf = .locked ∧ (x.door d).ack = false
    let refused (moving : Bool) : Prop := exec cmd s = .next (s.heard.replied tag .doorClose (.refused .inhibited (.door moving)))
    let stays : Prop := exec cmd s = .next (s.heard.replied tag .doorClose (.accepted (.doorState r.state)))
    let becomes (r' : DoorSide) : Prop := ∃ u : State, exec cmd s =
        .next (u.replied tag .doorClose (.accepted (.doorState r'.state))) ∧ State.sameBut (s.heard.setSide c d r') u
    let closing (mark : Bool) : DoorSide := { r with
      state := .closing, retries := 0, ackTimer := none, retryTimer := none, faultCause := none, clearing := mark
      closeTimer := s.line.map (fun p => p.tClose * 1000) }
    (r.state = .secured ∨ r.state = .closing → stays) ∧
    (r.state = .releasePending ∨ r.state = .released ∨ r.state = .opened → becomes (closing r.clearing)) ∧
    (r.state = .unproven → s.isFresh c = true → becomes (closing r.clearing)) ∧
    (r.state = .unproven ∨ r.state = .fault → s.isFresh c = false → refused false) ∧
    (r.state = .fault → s.isFresh c = true → proven → becomes { r with
      state := .secured, kind := none, stop := none, retries := 0, ackTimer := none, closeTimer := none, retryTimer := none,
      faultCause := none, clearing := false }) ∧
    (r.state = .fault → s.isFresh c = true → ¬proven → s.hac.state = .held → becomes (closing true)) ∧
    (r.state = .fault → s.isFresh c = true → ¬proven → s.hac.state ≠ .held → refused true)

/-! ## The Pass Table -/

/-- SET_DAY (R134): a day below the current one is refused with it; an equal one changes nothing; a later one becomes the day,
restarts the line clock at 0 and purges the entries whose valid_to is lower, those with persons held being marked instead. The line
clock advances by 1 a second up to 2^32 - 1 (R133). -/
def Obligations.SetDayPurges : Prop :=
  ∀ s : State,
    (∀ (tag : Byte) (d : Nat), s.listening →
      let purged (e : PassEntry) : Bool := match e.validTo with
        | some v => decide (v < d)
        | none => false
      let left : List PassEntry := (s.ptb.entries.filter (fun e => !(purged e && e.held == 0))).map
        (fun e => if purged e then { e with removal := true } else e)
      (d < s.ptb.day → exec (.setDay tag d) s = .next (s.heard.replied tag .setDay (.refused .dayBackward (.day s.ptb.day)))) ∧
      (d = s.ptb.day → exec (.setDay tag d) s =
        .next (s.heard.replied tag .setDay (.accepted (.dayset 0 0 s.ptb.entries.length)))) ∧
      (s.ptb.day < d → exec (.setDay tag d) s = .next (State.replied
        { s.heard with ptb := { entries := left, day := d, clock := 0 } } tag .setDay
        (.accepted (.dayset (s.ptb.entries.filter (fun e => purged e && e.held == 0)).length
          (s.ptb.entries.filter (fun e => purged e && e.held != 0)).length left.length))))) ∧
    (s.isRunning → exec .lineClockTick s = .next { s with
      overrun := false, ptb := { s.ptb with clock := min 4294967295 (s.ptb.clock + 1) } })

/-- PASS_INSERT of 1 to 12 good entries with distinct ids into a table with room for them (R128, R129): each is held under its id as
a new entry or as the replacement of the entry there, every other id keeps its entry, and the reply counts the new and the replaced;
a count outside 1 to 12 is a bad field. -/
def Obligations.PassInsertHolds : Prop :=
  ∀ (tag : Byte) (l : List PassFields) (s : State), s.listening →
    (l.length = 0 ∨ 12 < l.length →
      exec (.passInsert tag l) s = .next (s.heard.replied tag .passInsert (.refused .badField (.field 0)))) ∧
    (∀ os : List PassOffer, s.ptb.law → 1 ≤ l.length → l.length ≤ 12 → l.map offerOf = os.map .good →
      (os.map PassOffer.id).Nodup → s.ptb.entries.length + l.length ≤ 4096 →
      ∃ (t : PassTable) (new replaced : Nat), t.day = s.ptb.day ∧ t.clock = s.ptb.clock ∧
        exec (.passInsert tag l) s = .next (State.replied { s.heard with ptb := t } tag .passInsert
          (.accepted (.inserted new replaced .complete t.entries.length))) ∧
        new = (os.filter (fun o => (s.ptb.find? o.id).isNone)).length ∧
        replaced = (os.filter (fun o => (s.ptb.find? o.id).isSome)).length ∧ t.entries.length = s.ptb.entries.length + new ∧
        (∀ o ∈ os, t.find? o.id = some (match s.ptb.find? o.id with
          | some e => replacingEntry e o
          | none => newEntry o)) ∧
        (∀ id, id ∉ os.map PassOffer.id → t.find? id = s.ptb.find? id))

/-- PASS_DELETE of 1 to 12 distinct ids, none 0 (R130): an entry without persons held leaves, one with persons held is marked, every
other id keeps its entry, and the reply counts the not found, the deleted and the deferred; a bad count or the first id of 0 is a
bad field and nothing changes. -/
def Obligations.PassDeleteRemoves : Prop :=
  ∀ (tag : Byte) (ids : List Nat) (s : State), s.listening →
    let refused (o : Nat) : Prop := exec (.passDelete tag ids) s = .next (s.heard.replied tag .passDelete (.refused .badField (.field o)))
    (ids.length = 0 ∨ 12 < ids.length → refused 0) ∧
    (∀ k, ids.length ≤ 12 → ids[k]? = some 0 → (∀ j, j < k → ids[j]? ≠ some 0) → refused (1 + 4 * k)) ∧
    (s.ptb.law → 1 ≤ ids.length → ids.length ≤ 12 → 0 ∉ ids → ids.Nodup →
      ∃ t : PassTable, t.day = s.ptb.day ∧ t.clock = s.ptb.clock ∧
        exec (.passDelete tag ids) s = .next (State.replied { s.heard with ptb := t } tag .passDelete
          (.accepted (.deleted (ids.filter (fun id => (s.ptb.find? id).isNone)).length
            (ids.filter (fun id => (s.ptb.find? id).any (fun e => e.held == 0))).length
            (ids.filter (fun id => (s.ptb.find? id).any (fun e => e.held != 0))).length t.entries.length))) ∧
        (∀ id ∈ ids, t.find? id = match s.ptb.find? id with
          | some e => if e.held = 0 then none else some { e with removal := true }
          | none => none) ∧
        (∀ id, id ∉ ids → t.find? id = s.ptb.find? id))

/-- PASS_BLOCK and PASS_UNBLOCK of 1 to 12 distinct ids, none 0 (R131): an ACTIVE or CONSUMED entry is BLOCKED with the note of which
it was; a BLOCKED SINGLE or GROUP entry with the note becomes CONSUMED again and every other BLOCKED entry ACTIVE; the rest stay, and
the reply counts the changed, the left and the not found. -/
def Obligations.PassBlockAndUnblock : Prop :=
  ∀ (tag : Byte) (ids : List Nat) (s : State), s.listening → s.ptb.law → 1 ≤ ids.length → ids.length ≤ 12 → 0 ∉ ids → ids.Nodup →
    let block (e : PassEntry) : PassEntry :=
      if e.state = .blocked then e else { e with state := .blocked, wasConsumed := decide (e.state = .consumed) }
    let unblock (e : PassEntry) : PassEntry :=
      if e.state ≠ .blocked then e
      else { e with state := if (e.kind = .single ∨ e.kind = .party) ∧ e.wasConsumed = true then .consumed else .active }
    let answer (f : PassEntry → PassEntry) : Answer := .accepted (.blocked
      (ids.filter (fun id => (s.ptb.find? id).any (fun e => decide (f e ≠ e)))).length
      (ids.filter (fun id => (s.ptb.find? id).any (fun e => decide (f e = e)))).length
      (ids.filter (fun id => (s.ptb.find? id).isNone)).length)
    let holds (f : PassEntry → PassEntry) (t : PassTable) : Prop := t.day = s.ptb.day ∧ t.clock = s.ptb.clock ∧
      (∀ id ∈ ids, t.find? id = (s.ptb.find? id).map f) ∧ (∀ id, id ∉ ids → t.find? id = s.ptb.find? id)
    (∃ t, exec (.passBlock tag ids) s = .next (State.replied { s.heard with ptb := t } tag .passBlock (answer block)) ∧ holds block t) ∧
    (∃ t, exec (.passUnblock tag ids) s = .next (State.replied { s.heard with ptb := t } tag .passUnblock (answer unblock)) ∧
      holds unblock t)

/-- What the lookup finds ELIGIBLE the taking takes, raising held by k (R135, R136); and a whole abandonment of the taking, nobody
else being held on the ticket, gives a SINGLE, MULTI, STAFF or GROUP entry back as it was (R138, R140). -/
def Obligations.TakingFollowsLookup : Prop :=
  (∀ (t : PassTable) (passback id k : Nat) (kind : PassKind) (g : Group), t.law → t.lookup passback id g = .eligible kind k →
    ∃ u e f, t.take id k g = .inl u ∧ t.find? id = some e ∧ u.find? id = some f ∧ e.kind = kind ∧ f.held = e.held + k ∧
      f.held ≤ 12 ∧ u.law ∧ ∀ j, j ≠ id → u.find? j = t.find? j) ∧
  (∀ (t u : PassTable) (id k : Nat) (g : Group) (e : PassEntry), t.law → t.find? id = some e → e.held = 0 → e.kind ≠ .period →
    t.take id k g = .inl u →
    (u.abandon id k true g).find? id = some { e with prior := none } ∧
      ∀ j, j ≠ id → (u.abandon id k true g).find? j = t.find? j)

/-! ## The Gate Loop Master -/

/-- A good IDLE reply of an online gate brings its misses to 0, a missed reply adds one to its misses and to GATES, and the loop then
polls the next gate; neither changes anything outside the gate loop and, for a miss, the health counters and the link (R144 to
R146). -/
def Obligations.GateExchangesPoll : Prop :=
  ∀ (s : State) (p : Poll) (g h : GateRec), s.isRunning → s.glm.law → s.glm.running = true → s.glm.poll = some p →
    s.glm.cursor = p.address → s.gate? p.address = some g → g.state ≠ .offline → g.state ≠ .fault → s.glm.slots.s1 = none →
    s.glm.slots.s2 = none → h ∈ s.glm.gates → p.address < h.address → h.state ≠ .offline →
    (∀ x ∈ s.glm.gates, p.address < x.address → x.state ≠ .offline → h.address ≤ x.address) →
    (s.glm.cycle = 0 → ∀ x ∈ s.glm.gates, p.address < x.address → h.address ≤ x.address) →
    let poll : Poll :=
      { address := h.address, verdict := h.verdict, access := none, timer := some 8
        windowOpen := decide ((s.window h.group).state = .opened ∧ (h.state = .ready ∨ h.state = .query ∨ h.state = .passing)) }
    let polled (t : State) : Prop := t.glm.poll = some poll
    (∀ bytes, gateReplyOf? p.address bytes = some .idle → g.carried = false →
      ∃ t, exec (.gateReply bytes) s = .next t ∧ t = { s with overrun := false, glm := t.glm } ∧ polled t ∧
        t.gate? p.address = some { g with misses := 0 } ∧ t.glm.windows = s.glm.windows) ∧
    (g.misses < 2 → ∃ t, exec .gateReplyTimeout s = .next t ∧
      t = { s with overrun := false, glm := t.glm, lmu := t.lmu, slp := t.slp } ∧ polled t ∧
      t.gate? p.address = some { g with misses := g.misses + 1 } ∧
      t.lmu = { s.lmu with health := { s.lmu.health with
        gates := { s.lmu.health.gates with count := min 65535 (s.lmu.health.gates.count + 1) } } })

/-- Windows, queries and passages. BOARDING_EXTEND and BOARDING_CLOSE (R150): a field out of range is a bad field; an OPEN window's
dwell is reloaded with min(seconds, 600), any other state refuses TOO_LATE with it; a close takes an OPEN window to SEALING, or at once
to SEALED where no gate of the group queries or has persons pending, with auto-close ordering the served platform sides closed by R115,
and leaves any other window as it is. A dwell timer's expiry seals an OPEN window as BOARDING_CLOSE does (R149). A query timer's expiry
gives the gate REFUSE UNKNOWN and its resting state and records how the query ended (R155). A passage deadline abandons the persons
pending, who leave in_flight and are settled in the Pass Table (R157). A SEALING window with nothing left to resolve is SEALED.
Judging at a gate, in good replies to the outstanding poll. A ticket presented at a SHUT gate is REFUSE CLOSED (R146); at a READY
gate the checks of R151 are made in order: a lookup's refusal, a ticket query for an unknown ticket (R153) or REFUSE UNKNOWN, FULL
where seats are short, BALANCE where the car descends and the projection is below a_floor; and where
all pass the admission is made (R152), the taking of an eligible ticket not being declined (see TakingFollowsLookup): in_flight rises by k, the gate is PASSING with k persons pending and ADMIT as its verdict. A
refusal leaves the Pass Table and the tally as they are. Persons passed leave in_flight, join both bounds and are settled one by one
(R156); the third miss of a PASSING gate takes it OFFLINE with the fate of the rest unknown, who leave in_flight and join aboard_max
(R145, R158). Ticket 0 as UNKNOWN at a READY gate is assumption log 31; an expiry acts whenever its timer runs (assumption log 7, the
model's choice). -/
def Obligations.BoardingEventsAct : Prop :=
  (∀ (tag : Byte) (s : State), s.listening →
    (∀ group seconds, groupOf? group = none → exec (.boardingExtend tag group seconds) s =
        .next (s.heard.replied tag .boardingExtend (.refused .badField (.field 0))) ∧
      exec (.boardingClose tag group) s = .next (s.heard.replied tag .boardingClose (.refused .badField (.field 0)))) ∧
    (∀ group g seconds, groupOf? group = some g →
      let w := s.window g
      (seconds = 0 ∨ 65535 < seconds → exec (.boardingExtend tag group seconds) s =
        .next (s.heard.replied tag .boardingExtend (.refused .badField (.field 1)))) ∧
      (1 ≤ seconds → seconds ≤ 65535 → w.state ≠ .opened → exec (.boardingExtend tag group seconds) s =
        .next (s.heard.replied tag .boardingExtend (.refused .tooLate (.window w.state)))) ∧
      (1 ≤ seconds → seconds ≤ 65535 → w.state = .opened → exec (.boardingExtend tag group seconds) s =
        .next (State.replied { s.heard with glm := { s.glm with
          windows := s.glm.windows.set g { w with dwell := some (min seconds 600 * 1000) } } } tag .boardingExtend
          (.accepted (.extended (min seconds 600))))) ∧
      (w.state ≠ .opened → exec (.boardingClose tag group) s =
        .next (s.heard.replied tag .boardingClose (.accepted (.windowState w.state)))) ∧
      (w.state = .opened → s.param LineFields.autoClose ≠ 1 ∨ s.sealingEnd g = .sealing →
        ∃ u : State, exec (.boardingClose tag group) s =
            .next (u.replied tag .boardingClose (.accepted (.windowState (s.sealingEnd g)))) ∧
          u = { s.heard with glm := u.glm, slp := u.slp } ∧
          u.glm.windows = s.glm.windows.set g { w with state := s.sealingEnd g, dwell := none }) ∧
      (w.state = .opened → (s.brake .sb).cmd = .apply → s.lmu.mode ≠ .warming →
        ∃ u : State, exec (.boardingClose tag group) s =
            .next (u.replied tag .boardingClose (.accepted (.windowState (s.sealingEnd g)))) ∧
          u.window g = { w with state := s.sealingEnd g, dwell := none } ∧ s.closesOrdered u g))) ∧
  (∀ s : State, s.isRunning →
    (∀ group g, groupOf? group = some g → (s.window g).state = .opened → (s.window g).dwell.isSome = true →
      (s.param LineFields.autoClose ≠ 1 ∨ s.sealingEnd g = .sealing →
        ∃ t, exec (.dwellExpiry group) s = .next t ∧ t = { s with overrun := false, glm := t.glm, slp := t.slp } ∧
          t.glm.windows = s.glm.windows.set g { s.window g with state := s.sealingEnd g, dwell := none }) ∧
      ((s.brake .sb).cmd = .apply → s.lmu.mode ≠ .warming →
        ∃ t, exec (.dwellExpiry group) s = .next t ∧
          t.window g = { s.window g with state := s.sealingEnd g, dwell := none } ∧ s.closesOrdered t g)) ∧
    (∀ a g ticket, s.gate? a = some g → g.queryTimer.isSome = true → g.queryTicket = some ticket →
      (s.window g.group).state ≠ .sealing ∨ s.param LineFields.autoClose ≠ 1 →
      ∃ t, exec (.queryTimeout a) s = .next t ∧ t = { s with overrun := false, glm := t.glm, slp := t.slp } ∧
        t.glm.windows = s.windowsResolved t g.group ∧ t.gate? a = some { g with
          verdict := some (.refuse .unknown), carried := false, queryTimer := none, queryTicket := none
          lastQuery := some { number := g.queryNumber, ticket := ticket, how := .timeout }
          state := if g.lockNote then .lockedOut else if (s.window g.group).state = .opened then .ready else .shut }) ∧
    (∀ a g adm, s.gate? a = some g → g.admission = some adm → adm.deadline.isSome = true →
      (s.window g.group).state ≠ .sealing ∨ s.param LineFields.autoClose ≠ 1 →
      ∃ t, exec (.passageDeadline a) s = .next t ∧ t = { s with
          overrun := false, glm := t.glm, slp := t.slp
          tally := s.tally.set adm.car { s.tally.get adm.car with inFlight := (s.tally.get adm.car).inFlight - adm.pending }
          ptb := match adm.ticket with
            | some id => s.ptb.abandon id adm.pending (adm.passed == 0) g.group
            | none => s.ptb } ∧
        t.glm.windows = s.windowsResolved t g.group ∧ t.gate? a = some { g with
          admission := none
          state := if g.lockNote then .lockedOut else if (s.window g.group).state = .opened then .ready else .shut })) ∧
  (∀ (s : State) (p : Poll) (g : GateRec), s.isRunning → s.glm.law → s.glm.poll = some p → p.access = none →
     s.gate? p.address = some g → s.glm.slots.s1 = none → s.glm.slots.s2 = none →
     let a := p.address
     let w := s.window g.group
     let rest : GateState := if g.lockNote then .lockedOut else if w.state = .opened then .ready else .shut
     let gateIs (t : State) (h : GateRec) : Prop := (t.gate? a).map GateRec.unpolled = some h.unpolled
     (∀ bytes ticket, gateReplyOf? a bytes = some (.presented ticket) → g.verdict = none →
       let answered (h : GateRec) : Prop := ∃ t, exec (.gateReply bytes) s = .next t ∧
         t = { s with overrun := false, glm := t.glm, slp := t.slp } ∧ t.glm.windows = s.glm.windows ∧ gateIs t h
       let refused (r : RefuseReason) : Prop := answered { g with misses := 0, verdict := some (.refuse r) }
       (g.state = .shut → refused .closed) ∧
       (∀ c, g.state = .ready → w.car = some c →
         let found := s.ptb.lookup (s.param LineFields.passback) ticket g.group
         (ticket = 0 → refused .unknown) ∧
         (∀ r, ticket ≠ 0 → found = .refused r → r ≠ .unknown → refused r) ∧
         (ticket ≠ 0 → found = .refused .unknown → s.param LineFields.queryEnable ≠ 1 ∨ s.lmu.lost = true → refused .unknown) ∧
         (ticket ≠ 0 → found = .refused .unknown → s.param LineFields.queryEnable = 1 → s.lmu.lost = false →
           answered { g with misses := 0, state := .query, queryNumber := (g.queryNumber + 1) % 256, queryTicket := some ticket
                             queryTimer := some 1500 }) ∧
         (∀ kind k, ticket ≠ 0 → found = .eligible kind k →
           let room : Prop := k + (s.tallyOf c).aboardMax + (s.tallyOf c).inFlight ≤ s.capacity
           let low : Prop := (s.project c k).descends = true ∧ (s.project c k).below = true
           (¬room → refused .full) ∧
           (room → low → refused .balance) ∧
           (∀ table, room → ¬low → s.ptb.take ticket k g.group = .inl table →
             ∃ t, exec (.gateReply bytes) s = .next t ∧
               t = { s with overrun := false, glm := t.glm, slp := t.slp, ptb := table
                            tally := s.tally.set c { s.tallyOf c with inFlight := (s.tallyOf c).inFlight + k } } ∧
               t.glm.windows = s.glm.windows ∧ gateIs t { g with
                 misses := 0, state := .passing, verdict := some (.entry k)
                 admission := some { ticket := some ticket, car := c, k := k, pending := k, passed := 0
                                     deadline := s.line.map (fun p => p.tPass * 1000), staff := none } })))) ∧
     (∀ bytes n adm, gateReplyOf? a bytes = some (.passed n) → g.state = .passing → g.admission = some adm → 1 ≤ n →
       n ≤ adm.pending → g.carried = false → w.state ≠ .sealing ∨ s.param LineFields.autoClose ≠ 1 →
       ∃ t, exec (.gateReply bytes) s = .next t ∧
         t = { s with overrun := false, glm := t.glm, slp := t.slp, ptb := t.ptb, tally := t.tally } ∧
         t.tally = s.tally.set adm.car { s.tallyOf adm.car with
           aboardMin := (s.tallyOf adm.car).aboardMin + n, aboardMax := (s.tallyOf adm.car).aboardMax + n
           inFlight := (s.tallyOf adm.car).inFlight - n } ∧
         t.ptb = (match adm.ticket with
           | some id => (fun x : PassTable => x.passage id)^[n] s.ptb
           | none => s.ptb) ∧
         (n < adm.pending → t.glm.windows = s.glm.windows ∧ gateIs t { g with
           misses := 0, admission := some { adm with pending := adm.pending - n, passed := adm.passed + n } }) ∧
         (n = adm.pending → gateIs t { g with misses := 0, admission := none, state := rest } ∧
           t.glm.windows = s.windowsResolved t g.group)) ∧
     (∀ adm, g.misses = 2 → g.state = .passing → g.admission = some adm → s.uncrossed .gates 1 →
       w.state ≠ .sealing ∨ s.param LineFields.autoClose ≠ 1 →
       ∃ t, exec .gateReplyTimeout s = .next t ∧
         t = { s with
           overrun := false, glm := t.glm, slp := t.slp, lmu := (s.counted .gates 1).lmu
           tally := s.tally.set adm.car { s.tallyOf adm.car with
             aboardMax := (s.tallyOf adm.car).aboardMax + adm.pending, inFlight := (s.tallyOf adm.car).inFlight - adm.pending }
           ptb := match adm.ticket with
             | some id => s.ptb.release id adm.pending
             | none => s.ptb } ∧
         t.glm.windows = s.windowsResolved t g.group ∧
         gateIs t { g with state := .offline, misses := 3, verdict := none, admission := none }))

/-- Laws of boarding that every step keeps. A side enters RELEASE_PENDING only with the haulage HELD, SB APPLIED and standstill set
(R108). A gate is given an ADMIT verdict only while its group's window is OPEN (R151). in_flight is the sum of the persons pending for
the car, and aboard_max + in_flight never exceeds C (R159). These rest on where windows may be OPEN and sides released and on the gates
that have an admission, which every step keeps as well and the state after reset meets. -/
def Obligations.BoardingLawsKept : Prop :=
  (State.reset.boardingLaw ∧ State.reset.gateWindowLaw ∧ State.reset.seatLaw) ∧
  ∀ s t : State, s.glm.law → s.ptb.law → s.boardingLaw → s.gateWindowLaw → s.seatLaw → step s = .next t →
    t.boardingLaw ∧ t.gateWindowLaw ∧ t.seatLaw ∧
    (∀ c d, (t.side c d).state = .releasePending → (s.side c d).state ≠ .releasePending →
      t.hac.state = .held ∧ (t.brake .sb).state = .applied ∧ t.ptr.standstill = true) ∧
    (∀ a g k, t.gate? a = some g → g.verdict = some (.entry k) →
      (∀ h, s.gate? a = some h → h.verdict ≠ some (.entry k)) → (t.window g.group).state = .opened)

/-- The gate requests: LOAD_GATES with good fields lists every gate afresh in ascending address order (R142); GATE_ACCESS of a free
slot is held for an online gate and completes at once with GATE_OFFLINE for an OFFLINE one, and a held slot is SLOT_BUSY (R160);
TICKET_ANSWER REFUSE ends the query in flight with REFUSE HOST, and an answer that no query meets is UNKNOWN_QUERY (R154).
TICKET_ANSWER ADMIT-AS inserts the entry it carries and at an OPEN window admits by checks 2 to 4 of R151 or refuses with the reason
found, REFUSE CLOSED elsewhere (R154, R152). STAFF_OPEN admits one person without a ticket at a READY gate with a seat left, else
completes at once with NAK (R161). LOAD_GATES keeping the outstanding poll and the cursor is assumption log 32, the answered query
not recorded as ended and UNKNOWN without a held entry log 31, ACCESS_DONE before the reply on an idle line log 21. -/
def Obligations.GateRequestsAct : Prop :=
  (∀ (tag : Byte) (l : List GateFields) (s : State), s.listening → s.lmu.mode = .init ∨ s.lmu.mode = .parked → l.length ≤ 16 →
    (l.map GateFields.address).Nodup → (∀ r ∈ l, 1 ≤ r.address ∧ r.address ≤ 16 ∧ 1 ≤ r.group ∧ r.group ≤ 4) →
    s.glm.slots.s1 = none → s.glm.slots.s2 = none → s.glm.poll.isSome = true →
    ∃ gates : List GateRec, exec (.loadGates tag l) s =
        .next (State.replied { s.heard with glm := { s.glm with gates := gates } } tag .loadGates (.accepted .none)) ∧
      (gates.map GateRec.address).Pairwise (· < ·) ∧
      (∀ x, x ∈ gates ↔ ∃ r ∈ l, ∃ g, groupOf? r.group = some g ∧ x = .fresh r.address g)) ∧
  (∀ (tag : Byte) (slot : SlotId) (a arg : Nat) (g : GateRec) (c : AccessCommand) (code : Nat) (s : State), s.listening →
    s.gate? a = some g → accessOf? code = some c → arg ≤ 255 →
    let cmd : Instr := .gateAccess tag (if slot = .s1 then 1 else 2) a code arg
    ((s.glm.slots.get slot).isSome = true → exec cmd s = .next (s.heard.replied tag .gateAccess (.refused .slotBusy .empty))) ∧
    (s.glm.slots.get slot = none → g.state = .offline →
      let done : AccessReport :=
        { slot := slot, gate := a, command := c, argument := arg, result := .gateOffline, data := none }
      exec cmd s = .next (State.replied (post (.accessDone done) s.heard) tag .gateAccess (.accepted .none))) ∧
    (s.glm.slots.get slot = none → g.state ≠ .offline → c ≠ .staffOpen →
      ∃ u : State, exec cmd s = .next (u.replied tag .gateAccess (.accepted .none)) ∧
        u = { s.heard with glm := { s.glm with slots := u.glm.slots } } ∧
        u.glm.slots.get slot = some { gate := a, command := c, argument := arg, polls := 0 } ∧
        ∀ other, other ≠ slot → u.glm.slots.get other = s.glm.slots.get other)) ∧
  (∀ (tag : Byte) (a n : Nat) (e : PassFields) (s : State), s.listening → 1 ≤ a → a ≤ 16 → n ≤ 255 →
    (s.gate? a = none → exec (.ticketAnswer tag a n 1 0 e) s =
      .next (s.heard.replied tag .ticketAnswer (.refused .unknownQuery .empty))) ∧
    (∀ g ticket, s.gate? a = some g → g.state = .query → g.queryNumber = n → g.queryTicket = some ticket →
      (s.window g.group).state ≠ .sealing ∨ s.param LineFields.autoClose ≠ 1 →
      ∃ u : State, exec (.ticketAnswer tag a n 1 0 e) s =
          .next (u.replied tag .ticketAnswer (.accepted (.answered (.refuse .host) .nothing))) ∧
        u = { s.heard with glm := u.glm, slp := u.slp } ∧ u.glm.windows = s.windowsResolved u g.group ∧ u.gate? a = some { g with
          verdict := some (.refuse .host), carried := false, queryTimer := none, queryTicket := none
          state := if g.lockNote then .lockedOut else if (s.window g.group).state = .opened then .ready else .shut })) ∧
  (∀ (tag : Byte) (a n : Nat) (e : PassFields) (offer : Option PassOffer) (g : GateRec) (ticket : Nat) (s : State), s.listening →
    1 ≤ a → a ≤ 16 → n ≤ 255 → s.gate? a = some g → g.state = .query → g.queryNumber = n → g.queryTicket = some ticket →
    (∀ o, offer = some o → offerOf e = .good o ∧ o.id = ticket) →
    (s.window g.group).state ≠ .sealing ∨ s.param LineFields.autoClose ≠ 1 →
    let present : Nat := if offer.isSome then 1 else 0
    let inserted : PassTable × InsertOutcome := match offer with
      | some o => s.ptb.insert o
      | none => (s.ptb, .nothing)
    let table := inserted.1
    let how := inserted.2
    let w := s.window g.group
    let ended : GateRec := { g with carried := false, queryTimer := none, queryTicket := none }
    let rest : GateState := if g.lockNote then .lockedOut else if w.state = .opened then .ready else .shut
    let refused (r : RefuseReason) : Prop := ∃ u : State, exec (.ticketAnswer tag a n 0 present e) s =
        .next (u.replied tag .ticketAnswer (.accepted (.answered (.refuse r) how))) ∧
      u = { s.heard with glm := u.glm, slp := u.slp, ptb := table } ∧ u.glm.windows = s.windowsResolved u g.group ∧
      u.gate? a = some { ended with verdict := some (.refuse r), state := rest }
    (w.state ≠ .opened → refused .closed) ∧
    (∀ c, w.state = .opened → w.car = some c →
      (table.find? ticket = none → refused .unknown) ∧
      (∀ x, table.find? ticket = some x →
        let k := x.seats
        let room : Prop := k + (s.tallyOf c).aboardMax + (s.tallyOf c).inFlight ≤ s.capacity
        let low : Prop := (s.project c k).descends = true ∧ (s.project c k).below = true
        (¬room → refused .full) ∧ (room → low → refused .balance) ∧
        (∀ r, room → ¬low → table.take ticket k g.group = .inr r → refused r) ∧
        (∀ taken, room → ¬low → table.take ticket k g.group = .inl taken →
          ∃ u : State, exec (.ticketAnswer tag a n 0 present e) s =
              .next (u.replied tag .ticketAnswer (.accepted (.answered (.entry k) how))) ∧
            u = { s.heard with
              glm := u.glm, slp := u.slp, ptb := taken
              tally := s.tally.set c { s.tallyOf c with inFlight := (s.tallyOf c).inFlight + k } } ∧
            u.glm.windows = s.glm.windows ∧ u.gate? a = some { ended with
              verdict := some (.entry k), state := .passing
              admission := some { ticket := some ticket, car := c, k := k, pending := k, passed := 0
                                  deadline := s.line.map (fun p => p.tPass * 1000), staff := none } })))) ∧
  (∀ (tag : Byte) (slot : SlotId) (a arg : Nat) (g : GateRec) (s : State), s.listening → s.gate? a = some g → arg ≤ 255 →
    s.glm.slots.get slot = none → g.state ≠ .offline →
    let w := s.window g.group
    let cmd : Instr := .gateAccess tag (if slot = .s1 then 1 else 2) a 3 arg
    let seat (c : Car) : Prop := 1 + (s.tallyOf c).aboardMax + (s.tallyOf c).inFlight ≤ s.capacity
    ((g.state = .ready → ∀ c, w.car = some c → ¬seat c) →
      exec cmd s = .next (State.replied (post (.accessDone
        { slot := slot, gate := a, command := .staffOpen, argument := arg, result := .nak, data := none }) s.heard) tag .gateAccess
        (.accepted .none))) ∧
    (∀ c, g.state = .ready → w.car = some c → seat c →
      ∃ u : State, exec cmd s = .next (u.replied tag .gateAccess (.accepted .none)) ∧
        u = { s.heard with
          glm := u.glm, slp := u.slp, tally := s.tally.set c { s.tallyOf c with inFlight := (s.tallyOf c).inFlight + 1 } } ∧
        u.glm.windows = s.glm.windows ∧ u.glm.slots.get slot = some { gate := a, command := .staffOpen, argument := arg, polls := 0 } ∧
        (∀ other, other ≠ slot → u.glm.slots.get other = s.glm.slots.get other) ∧
        u.gate? a = some { g with
          state := .passing
          admission := some { ticket := none, car := c, k := 1, pending := 1, passed := 0
                              deadline := s.line.map (fun p => p.tPass * 1000), staff := some slot } }))

/-! ## The Line Mode Unit -/

/-- SET_MODE without a running test, step by step (R167, R168): an unknown target is a bad field; BUSY while WARMING; the present
mode is accepted as it is; a change outside the table is WRONG_MODE; SERVICE over a threshold is FORCED; a configuration check that
fails is CONFIG_INVALID with its name (R8, R169); unmet conditions are INHIBITED with every reason present. With every step passed
the change is made: out of INIT or PARKED to WARMING with its target, its timer and EB commanded RELEASE (R171); to PARKED with its
variant, v_perm 0 and EB commanded APPLY (R170); and otherwise the mode alone. EB RELEASED with both cars FRESH completes a warming
with cause WARMED into its target, a target of SERVICE with a forcing counter over threshold with cause FORCED into REDUCED (R172,
R175). A failed warming returns to PARKED with the variant that it began from (R172, of which assumption log 28 says how it is kept)
and EB applied, what the variant does not keep being stopped; the expiry acts whenever its timer runs (assumption log 7, the model's
choice). -/
def Obligations.ModeRequestsAct : Prop :=
  (∀ (tag : Byte) (s : State),
     let name (m : Mode) : Nat := match m with
       | .parked => 0
       | .service => 1
       | .reduced => 2
       | .maintenance => 3
       | .evacuation => 4
       | .tripped => 5
       | .init => 6
       | .warming => 6
     let sent (m : Mode) : Host.Outcome State Fault Refusal := exec (.setMode tag (name m) 1 1) s
     let answered (m : Mode) (a : Answer) : Prop := sent m = .next (s.heard.replied tag .setMode a)
     let changed (m now : Mode) (v : State) : Prop :=
       ∃ u : State, sent m = .next (u.replied tag .setMode (.accepted (.modeSet false now))) ∧ v.sameBut u
     let both : Variant := { keepLinks := true, keepLoop := true }
     let awake : Prop := s.glm.running = true ∧ ∀ c, (s.car c).running = true
     (s.listening → s.bsq.test = none →
       (∀ m l p, 5 < m → exec (.setMode tag m l p) s = .next (s.heard.replied tag .setMode (.refused .badField (.field 0)))) ∧
       (∀ m, m ≠ .init → m ≠ .warming → s.lmu.mode = .warming → answered m (.refused .busy .empty)) ∧
       (s.lmu.mode ≠ .init → s.lmu.mode ≠ .warming → (s.lmu.mode = .parked → s.lmu.variant = some both) →
         answered s.lmu.mode (.accepted (.modeSet true s.lmu.mode))) ∧
       (∀ m, m ≠ .init → m ≠ .warming → s.lmu.mode ≠ .warming → m ≠ s.lmu.mode → s.modeChangeAllowed m = none →
         answered m (.refused .wrongMode (.mode s.lmu.mode))) ∧
       (∀ m c, m ≠ .init → m ≠ .warming → s.lmu.mode ≠ .warming → m ≠ s.lmu.mode → s.modeChangeAllowed m = some c →
         (m = .service → s.lmu.health.forcing.any = true → answered m (.refused .forced (.counters s.lmu.health.forcing))) ∧
         ((m = .service → s.lmu.health.forcing.any = false) →
           (∀ check, c.checks = true → s.configFault = some check → answered m (.refused .configInvalid (.config check))) ∧
           ((c.checks = true → s.configFault = none) →
             (s.modeReasons c ≠ [] → answered m (.refused .inhibited (.modeReasons (s.modeReasons c)))) ∧
             (s.modeReasons c = [] → m ≠ .parked → s.lmu.mode ≠ .init → s.lmu.mode ≠ .parked → s.allSecured = true → s.noneOpen →
               changed m m { s.heard with lmu := { s.lmu with mode := m, variant := none, target := none, warmTimer := none } }) ∧
             (s.modeReasons c = [] → m ≠ .parked →
               (s.lmu.mode = .init ∧ s.lmu.variant = none) ∨ (s.lmu.mode = .parked ∧ s.lmu.variant = some both) → awake →
               s.bsq.stop = none → s.bsq.latch = none → s.hac.state = .held → (s.brake .eb).cmd = .apply →
               (s.brake .eb).state = .applied → s.reading .eb ≠ .released →
               ∀ w, warmTargetOf m = some w →
               changed m .warming { s.heard with
                 lmu := { s.lmu with
                   mode := .warming, variant := none, target := some w, warmBack := both
                   warmTimer := s.line.map (fun p => p.tWarm * 1000) }
                 bsq := { s.bsq with
                   recs := s.bsq.recs.set .eb { cmd := .release, state := .lifting, timer := s.line.map LineFields.tEbResp } } }) ∧
             (s.modeReasons c = [] → m = .parked → awake → s.bsq.stop = none → s.hac.state = .held → s.allSecured = true →
               s.noneOpen → (s.brake .sb).cmd = .apply → (s.brake .eb).cmd = .release → (s.brake .eb).state = .released →
               s.reading .eb ≠ .applied →
               changed m .parked { s.heard with
                 lmu := { s.lmu with mode := .parked, variant := some both, target := none, warmTimer := none }
                 osp := { s.osp with vPerm := 0, binding := none, level := .none, fresh := true, last := none }
                 bsq := { s.bsq with
                   recs := s.bsq.recs.set .eb { cmd := .apply, state := .setting, timer := s.line.map LineFields.tEbResp } } }))))) ∧
     (s.isRunning → s.lmu.mode = .warming → s.lmu.warmTimer.isSome = true → s.hac.state = .held → s.bsq.stop = none →
       s.bsq.test = none → s.windowsBusy = false → awake → s.glm.slots.s1 = none → s.glm.slots.s2 = none →
       (s.brake .sb).cmd = .apply → (s.brake .eb).cmd = .release → (s.brake .eb).state = .lifting → s.reading .eb ≠ .applied →
       let v := s.lmu.warmBack
       let quiet : Prop := v.keepLinks = false ∧ v.keepLoop = false
       ∃ t, exec .warmingTimeout s = .next t ∧
         t.lmu = { s.lmu with
           mode := .parked, variant := some v, target := none, warmTimer := none
           supTimer := match s.lmu.supTimer with
             | .running n => if quiet then .stopped else .running n
             | x => x
           suspended := match s.lmu.supTimer with
             | .running _ => if quiet then true else s.lmu.suspended
             | _ => s.lmu.suspended } ∧
         t.brake .eb = { cmd := .apply, state := .setting, timer := s.line.map LineFields.tEbResp } ∧
         t.brake .sb = s.brake .sb ∧ t.osp.vPerm = 0 ∧ t.osp.level = .none ∧ t.osp.binding = none ∧ t.hac.state = .held ∧
         (v.keepLinks = true → t.clu = s.clu ∧ t.dru = s.dru ∧ t.hac = s.hac ∧ t.ptr = s.ptr) ∧
         (v.keepLinks = false → ∀ c, (t.car c).running = false ∧ (t.car c).freshness = .never ∧ (t.car c).alarm = (s.car c).alarm) ∧
         (v.keepLoop = true → t.glm = s.glm ∧ t.ptb = s.ptb ∧ t.tally = s.tally) ∧ (v.keepLoop = false → t.glm.running = false))) ∧
  (∀ (s : State) (w : WarmTarget), s.isRunning → s.lmu.mode = .warming → s.lmu.target = some w → s.lmu.variant = none →
    (s.brake .eb).state = .lifting → s.reading .eb ≠ .released → s.bothFresh = true → s.hac.state = .held → s.bsq.stop = none →
    s.bsq.test = none → (s.brake .sb).cmd = .apply →
    let forced := w = .service ∧ s.lmu.health.forcing.any = true
    let after : Mode := if forced then .reduced else w.mode
    exec (.brakeContactChange .eb false true) s = .next (post (.mode
        { event := .change, before := .warming, after := after, cause := some (if forced then .forced else .warmed), variant := none
          target := none, unmet := none, counters := if forced then some s.lmu.health.forcing else none })
      { s with
        overrun := false, lmu := { s.lmu with mode := after, variant := none, target := none, warmTimer := none }
        bsq := { s.bsq with
          recs := s.bsq.recs.set .eb { s.brake .eb with state := .released, timer := none }
          contacts := s.bsq.contacts.set .eb { applied := false, released := true } } }))

/-- SUPERVISE with the expected code flips it, clears the lost flag and starts the timer afresh (R176); a wrong code is refused with
the expected one and, where the lost flag is clear, is a supervision expiry: the lost flag set and the timer stopped (R177), as at
the timer's own expiry; on a moving line it orders a CONTROLLED stop with cause SUPERVISION, which a stop in progress absorbs (R74),
and it aborts a running brake test (R86). That a correct SUPERVISE before the parameters are loaded leaves the timer not started is
assumption log 17. -/
def Obligations.SupervisionHeld : Prop :=
  ∀ (s : State),
    let lostState (v : State) : State := { v with lmu := { s.lmu with lost := true, supTimer := .stopped, suspended := false } }
    (∀ (tag : Byte), s.listening → s.lmu.mode ≠ .parked →
      let code := if s.lmu.expected = .c3C then 0x3C else 0xC3
      ∃ u : State, exec (.supervise tag code) s =
          .next (u.replied tag .supervise (.accepted (.supervised s.lmu.expected.other s.lmu.lost))) ∧
        State.sameBut { s.heard with lmu := { s.lmu with
          expected := s.lmu.expected.other, lost := false, suspended := false
          supTimer := match s.line with
            | some p => .running p.tSup
            | none => .notStarted } } u) ∧
    (∀ (tag : Byte) (code : Nat), s.listening → code ≠ s.lmu.expected.value → s.lmu.lost = true →
      exec (.supervise tag code) s = .next (s.heard.replied tag .supervise (.refused .badCode (.code s.lmu.expected)))) ∧
    (∀ (tag : Byte) (code : Nat), s.listening → code ≠ s.lmu.expected.value → s.lmu.lost = false → s.hac.state = .held →
      s.noneOpen → s.bsq.test = none →
      ∃ u : State, exec (.supervise tag code) s = .next (u.replied tag .supervise (.refused .badCode (.code s.lmu.expected))) ∧
        (lostState s.heard).sameBut u) ∧
    (∀ n, s.isRunning → s.lmu.supTimer = .running n → s.hac.state = .held → s.noneOpen → s.bsq.test = none →
      ∃ t, exec .supervisionExpiry s = .next t ∧ (lostState { s with overrun := false }).sameBut t) ∧
    (s.hac.state ≠ .held → s.noneOpen → s.bsq.test = none →
      let stop : StopRecord :=
        { kind := .controlled, cause := .supervision, x := s.ptr.x, vMeas := s.ptr.vMeas, check := .absent }
      let ordered (v : State) : State := { lostState v with
        hac := if s.hac.state = .berthing then s.hac else { s.hac with ramp := true }
        bsq := { s.bsq with stop := some stop } }
      let expires (after : State → State) : Prop :=
        (∀ n, s.isRunning → s.lmu.supTimer = .running n →
          ∃ t, exec .supervisionExpiry s = .next t ∧ (after { s with overrun := false }).sameBut t) ∧
        (∀ (tag : Byte) (code : Nat), s.listening → code ≠ s.lmu.expected.value → s.lmu.lost = false →
          ∃ u : State, exec (.supervise tag code) s = .next (u.replied tag .supervise (.refused .badCode (.code s.lmu.expected))) ∧
            (after s.heard).sameBut u)
      (s.bsq.stop.isSome = true → expires lostState) ∧
      (s.bsq.stop = none → s.ptr.standstill = false → (s.brake .sb).state ≠ .lifting →
        s.hac.state = .berthing ∨ (s.hac.state.drives = true ∧ s.hac.vRef ≠ 0) → expires ordered)) ∧
    (∀ n x, s.isRunning → s.lmu.supTimer = .running n → s.hac.state = .held → s.noneOpen → s.bsq.test = some x → s.lmu.mode ≠ .warming →
      ∃ t, exec .supervisionExpiry s = .next t ∧ t.bsq.test = none ∧ t.bsq.torqueLine = false ∧ (∀ b, (t.brake b).cmd = .apply) ∧
        t.lmu = (lostState s).lmu ∧ t.hac = s.hac ∧ t.ptr = s.ptr ∧ t.osp = s.osp ∧ t.clu = s.clu ∧ t.dru = s.dru ∧ t.glm = s.glm ∧
        t.tally = s.tally ∧ t.ptb = s.ptb)

/-- HEALTH_SET writes count and exponent together, an exponent above 15 taken as 15, and answers whether the counter is over
threshold (R180); an unknown name is a bad field. In SERVICE a crossing of POS, LINK_A or LINK_B into over threshold, by HEALTH_SET
or (a link counter, at a discarded frame) by an increment, changes the mode to REDUCED, and a write without one changes no mode
(R175). RESTART in INIT or PARKED is accepted, and requests that arrive after it are held without answer (R182, R189). -/
def Obligations.HealthSetAndRestart : Prop :=
  ∀ (tag : Byte) (s : State), s.listening →
    (∀ counter count exponent, 4 < counter →
      exec (.healthSet tag counter count exponent) s = .next (s.heard.replied tag .healthSet (.refused .badField (.field 0)))) ∧
    (∀ counter n count exponent, counterOf? counter = some n → count ≤ 65535 → exponent ≤ 255 →
      s.lmu.mode ≠ .service ∨ n.forces = false →
      let c : Counter := { count := count, exp := min 15 exponent }
      ∃ u : State, exec (.healthSet tag counter count exponent) s =
          .next (u.replied tag .healthSet (.accepted (.healthSet count (min 15 exponent) (decide (2 ^ min 15 exponent ≤ count))))) ∧
        State.sameBut { s.heard with lmu := { s.lmu with health := s.lmu.health.set n c } } u) ∧
    (∀ counter n count exponent, counterOf? counter = some n → count ≤ 65535 → exponent ≤ 255 →
      s.lmu.mode = .service → n.forces = true →
      let c : Counter := { count := count, exp := min 15 exponent }
      let now := (s.lmu.health.get n).isOver
      let written (m : LineMode) : Prop := ∃ u : State, exec (.healthSet tag counter count exponent) s =
          .next (u.replied tag .healthSet (.accepted (.healthSet count (min 15 exponent) c.isOver))) ∧
        State.sameBut { s.heard with lmu := { m with health := s.lmu.health.set n c } } u
      (now = true ∨ c.isOver = false → written s.lmu) ∧
      (now = false → c.isOver = true → written { s.lmu with mode := .reduced, variant := none, target := none, warmTimer := none })) ∧
    (∀ (c : Car) (bytes : List Byte), statusOf? c bytes = none → (s.car c).running = true → s.lmu.mode = .service →
      let n : CounterName := if c = .a then .linkA else .linkB
      let old := s.lmu.health.get n
      let r : CarRec := { s.car c with
        discards := min 255 ((s.car c).discards + 1), discarded := min 65535 ((s.car c).discarded + 1) }
      old.count + 1 = 2 ^ old.exp → old.count < 65535 →
      ∃ t, exec (.carStatusFrame c bytes) s = .next t ∧ State.sameBut { s with
        overrun := false
        clu := { s.clu with recs := s.clu.recs.set c r }
        lmu := { s.lmu with
          mode := .reduced, variant := none, target := none, warmTimer := none
          health := s.lmu.health.set n { old with count := old.count + 1 } } } t) ∧
    (s.lmu.mode = .init ∨ s.lmu.mode = .parked →
      exec (.restart tag) s = .next (State.replied { s.heard with slp := { s.slp.received with restarting := true } } tag .restart
        (.accepted .none))) ∧
    (∀ (kind : Byte) (payload : List Byte) (v : State), v.isRunning → v.slp.restarting = true → v.slp.places < 4 →
      payload.length ≤ 240 →
      exec (.supervisoryFrame kind tag payload (frameCheck kind tag payload)) v = .next { v with
        overrun := false
        slp := { v.slp.received with unhandled := v.slp.unhandled ++ [{ tag := tag, kind := kind }] } })

/-! ## The Supervisory Link Port -/

/-- REPORT_MASK_SET masks each maskable class named and REPORT_MASK_CLEAR unmasks it; unmaskable classes and positions without a class
are ignored; both answer with the mask as it then stands (R193). -/
def Obligations.MaskRequestsAct : Prop :=
  ∀ (tag : Byte) (classes : Nat) (s : State), s.listening →
    (∃ m : ReportMask, exec (.reportMaskSet tag classes) s = .next (State.replied
        { s.heard with slp := { s.slp.received with mask := m } } tag .reportMaskSet (.accepted (.mask m))) ∧
      ∀ i, i < 16 → m.getLsbD i = (s.slp.mask.getLsbD i || (classes.testBit i && decide (6 ≤ i ∧ i ≤ 14)))) ∧
    (∃ m : ReportMask, exec (.reportMaskClear tag classes) s = .next (State.replied
        { s.heard with slp := { s.slp.received with mask := m } } tag .reportMaskClear (.accepted (.mask m))) ∧
      ∀ i, i < 16 → m.getLsbD i = (s.slp.mask.getLsbD i && !(classes.testBit i && decide (6 ≤ i ∧ i ≤ 14))))

/-- The receiver and the transmitter (R184, R185, R188, R194): a byte that is no sync is skipped and a sync begins a frame; a gap
abandons it; a bad length or check is counted in FRAMES; a frame that meets four places taken is refused OVERLOAD while the overload
list has room; and the end of a transmission begins the oldest reply, else the oldest report with the lost count. A gap while hunting and an end of
transmission while idle have no effect (assumption log 7, the model's choice); a byte and a discard act in any framing state
(assumption log 23). -/
def Obligations.LinkEventsAct : Prop :=
  ∀ s : State, s.isRunning →
    let n := s.lmu.health.frames
    let counted (l : Link) (t : State) : Prop := t.slp.totals = l.totals ∧ t.slp.receiver = .hunting ∧ t.slp.gap = none ∧
      t = { s with overrun := false, slp := t.slp, lmu := { s.lmu with
        health := s.lmu.health.set .frames { n with count := min 65535 (n.count + 1) } } }
    (∀ b, s.slp.receiver = .hunting → b ≠ 0xA7 → exec (.skippedByte b) s = .next { s with
      overrun := false
      slp := { s.slp with totals := { s.slp.totals with skipped := min 65535 (s.slp.totals.skipped + 1) } } }) ∧
    (s.slp.receiver = .hunting → exec (.skippedByte 0xA7) s = .next { s with
      overrun := false, slp := { s.slp with receiver := .inFrame [], gap := some 20 } }) ∧
    (∀ l, s.slp.receiver = .inFrame l → exec .frameGapTimeout s = .next { s with
      overrun := false
      slp := { s.slp with
        receiver := .hunting, gap := none
        totals := { s.slp.totals with abandoned := min 65535 (s.slp.totals.abandoned + 1) } } }) ∧
    (s.slp.receiver = .hunting → exec .frameGapTimeout s = .next { s with overrun := false }) ∧
    (∀ len : Byte, 240 < len.toNat → s.slp.mask.getLsbD 12 = true →
      ∃ t, exec (.badLengthDiscard len) s = .next t ∧ counted { s.slp with
        totals := { s.slp.totals with lengthDiscards := min 65535 (s.slp.totals.lengthDiscards + 1) } } t) ∧
    (∀ kind tag payload check, payload.length ≤ 240 → check ≠ frameCheck kind tag payload → s.slp.mask.getLsbD 12 = true →
      ∃ t, exec (.supervisoryFrame kind tag payload check) s = .next t ∧ counted { s.slp with
        totals := { s.slp.totals with checkDiscards := min 65535 (s.slp.totals.checkDiscards + 1) } } t) ∧
    (∀ kind tag payload, payload.length ≤ 240 → s.slp.restarting = false → s.slp.places = 4 → s.slp.overloads < 8 →
      s.slp.sending.isSome = true →
      ∃ t, exec (.supervisoryFrame kind tag payload (frameCheck kind tag payload)) s = .next t ∧
        t = { s with overrun := false, slp := t.slp } ∧
        t.slp.waiting = s.slp.waiting ++
          [{ overload := true, reply := { tag := tag, kind := kind, answer := .refused .overload .empty } }] ∧
        t.slp.totals.overloads = min 65535 (s.slp.totals.overloads + 1)) ∧
    (∀ f, s.slp.sending = some f → f.isRestart = false →
      ∃ t, exec .transmitEnd s = .next t ∧ t = { s with overrun := false, slp := t.slp } ∧
        (∀ w rest, s.slp.waiting = w :: rest →
          t.slp.sending = some (.reply w.reply) ∧ t.slp.waiting = rest ∧ t.slp.queue = s.slp.queue) ∧
        (∀ r rest, s.slp.waiting = [] → s.slp.queue = r :: rest →
          t.slp.sending = some (.report s.slp.lost r) ∧ t.slp.queue = rest ∧ t.slp.lost = 0) ∧
        (s.slp.waiting = [] → s.slp.queue = [] → t.slp.sending = none)) ∧
    (s.slp.sending = none → exec .transmitEnd s = .next { s with overrun := false })

/-- A posted report while the transmitter sends (R190, R191): dropped where its class is masked; added to the queue where it has room; at
32 reports a maskable one is lost, and an unmaskable one takes the place of the oldest maskable, or of the oldest where none is, each
adding 1 to the lost count up to 255. -/
def Obligations.PostedReportsQueue : Prop :=
  ∀ (r : Report) (s : State), s.slp.sending.isSome = true →
    let masked : Prop := r.cls.maskable = true ∧ s.slp.mask.getLsbD r.cls.index = true
    let losing : Link := { s.slp with
      lost := min 255 (s.slp.lost + 1)
      totals := { s.slp.totals with reportsLost := min 65535 (s.slp.totals.reportsLost + 1) } }
    (masked → post r s = s) ∧
    (¬masked → s.slp.queue.length < 32 → post r s = { s with slp := { s.slp with queue := s.slp.queue ++ [r] } }) ∧
    (¬masked → 32 ≤ s.slp.queue.length → r.cls.maskable = true → post r s = { s with slp := losing }) ∧
    (∀ before x after, ¬masked → 32 ≤ s.slp.queue.length → r.cls.maskable = false → s.slp.queue = before ++ x :: after →
      (∀ y ∈ before, y.cls.maskable = false) → x.cls.maskable = true →
      post r s = { s with slp := { losing with queue := before ++ after ++ [r] } }) ∧
    (¬masked → 32 ≤ s.slp.queue.length → r.cls.maskable = false → (∀ y ∈ s.slp.queue, y.cls.maskable = false) →
      post r s = { s with slp := { losing with queue := s.slp.queue.tail ++ [r] } })

end Slice0
end

