-- ==== Sys2Proof/Laws/State.lean ====
section
/-! SUPPORT. What each named update of the state leaves and what it changes, one lemma for each field, so that no later proof unfolds
a record update. -/

namespace Sys2Proof.Machine

/-! ## Posting a report changes the link alone -/
@[simp] theorem post_ptr (r : Report) (s : State) : (post r s).ptr = s.ptr := by unfold post; split <;> rfl
@[simp] theorem post_hac (r : Report) (s : State) : (post r s).hac = s.hac := by unfold post; split <;> rfl
@[simp] theorem post_osp (r : Report) (s : State) : (post r s).osp = s.osp := by unfold post; split <;> rfl
@[simp] theorem post_bsq (r : Report) (s : State) : (post r s).bsq = s.bsq := by unfold post; split <;> rfl
@[simp] theorem post_clu (r : Report) (s : State) : (post r s).clu = s.clu := by unfold post; split <;> rfl
@[simp] theorem post_dru (r : Report) (s : State) : (post r s).dru = s.dru := by unfold post; split <;> rfl
@[simp] theorem post_ptb (r : Report) (s : State) : (post r s).ptb = s.ptb := by unfold post; split <;> rfl
@[simp] theorem post_glm (r : Report) (s : State) : (post r s).glm = s.glm := by unfold post; split <;> rfl
@[simp] theorem post_tally (r : Report) (s : State) : (post r s).tally = s.tally := by unfold post; split <;> rfl
@[simp] theorem post_lmu (r : Report) (s : State) : (post r s).lmu = s.lmu := by unfold post; split <;> rfl
@[simp] theorem post_line (r : Report) (s : State) : (post r s).line = s.line := by unfold post; split <;> rfl
@[simp] theorem post_segs (r : Report) (s : State) : (post r s).segs = s.segs := by unfold post; split <;> rfl
@[simp] theorem post_stops (r : Report) (s : State) : (post r s).stops = s.stops := by unfold post; split <;> rfl
@[simp] theorem post_markers (r : Report) (s : State) : (post r s).markers = s.markers := by unfold post; split <;> rfl
@[simp] theorem post_inReset (r : Report) (s : State) : (post r s).inReset = s.inReset := by unfold post; split <;> rfl
@[simp] theorem post_overrun (r : Report) (s : State) : (post r s).overrun = s.overrun := by unfold post; split <;> rfl
@[simp] theorem post_pending (r : Report) (s : State) : (post r s).pending = s.pending := by unfold post; split <;> rfl

/-! ## A door-side record -/
@[simp] theorem setSide_ptr (s : State) (c : Car) (d : Side) (r : DoorSide) : (s.setSide c d r).ptr = s.ptr := rfl
@[simp] theorem setSide_hac (s : State) (c : Car) (d : Side) (r : DoorSide) : (s.setSide c d r).hac = s.hac := rfl
@[simp] theorem setSide_osp (s : State) (c : Car) (d : Side) (r : DoorSide) : (s.setSide c d r).osp = s.osp := rfl
@[simp] theorem setSide_bsq (s : State) (c : Car) (d : Side) (r : DoorSide) : (s.setSide c d r).bsq = s.bsq := rfl
@[simp] theorem setSide_clu (s : State) (c : Car) (d : Side) (r : DoorSide) : (s.setSide c d r).clu = s.clu := rfl
@[simp] theorem setSide_dru (s : State) (c : Car) (d : Side) (r : DoorSide) : (s.setSide c d r).dru = { s.dru with sides := s.dru.sides.set c ((s.dru.sides.get c).set d r) } := rfl
@[simp] theorem setSide_ptb (s : State) (c : Car) (d : Side) (r : DoorSide) : (s.setSide c d r).ptb = s.ptb := rfl
@[simp] theorem setSide_glm (s : State) (c : Car) (d : Side) (r : DoorSide) : (s.setSide c d r).glm = s.glm := rfl
@[simp] theorem setSide_tally (s : State) (c : Car) (d : Side) (r : DoorSide) : (s.setSide c d r).tally = s.tally := rfl
@[simp] theorem setSide_lmu (s : State) (c : Car) (d : Side) (r : DoorSide) : (s.setSide c d r).lmu = s.lmu := rfl
@[simp] theorem setSide_slp (s : State) (c : Car) (d : Side) (r : DoorSide) : (s.setSide c d r).slp = s.slp := rfl
@[simp] theorem setSide_line (s : State) (c : Car) (d : Side) (r : DoorSide) : (s.setSide c d r).line = s.line := rfl
@[simp] theorem setSide_segs (s : State) (c : Car) (d : Side) (r : DoorSide) : (s.setSide c d r).segs = s.segs := rfl
@[simp] theorem setSide_stops (s : State) (c : Car) (d : Side) (r : DoorSide) : (s.setSide c d r).stops = s.stops := rfl
@[simp] theorem setSide_markers (s : State) (c : Car) (d : Side) (r : DoorSide) : (s.setSide c d r).markers = s.markers := rfl
@[simp] theorem setSide_inReset (s : State) (c : Car) (d : Side) (r : DoorSide) : (s.setSide c d r).inReset = s.inReset := rfl
@[simp] theorem setSide_overrun (s : State) (c : Car) (d : Side) (r : DoorSide) : (s.setSide c d r).overrun = s.overrun := rfl
@[simp] theorem setSide_pending (s : State) (c : Car) (d : Side) (r : DoorSide) : (s.setSide c d r).pending = s.pending := rfl

/-! ## A car record -/
@[simp] theorem setCar_ptr (s : State) (c : Car) (r : CarRec) : (s.setCar c r).ptr = s.ptr := rfl
@[simp] theorem setCar_hac (s : State) (c : Car) (r : CarRec) : (s.setCar c r).hac = s.hac := rfl
@[simp] theorem setCar_osp (s : State) (c : Car) (r : CarRec) : (s.setCar c r).osp = s.osp := rfl
@[simp] theorem setCar_bsq (s : State) (c : Car) (r : CarRec) : (s.setCar c r).bsq = s.bsq := rfl
@[simp] theorem setCar_clu (s : State) (c : Car) (r : CarRec) : (s.setCar c r).clu = { s.clu with recs := s.clu.recs.set c r } := rfl
@[simp] theorem setCar_dru (s : State) (c : Car) (r : CarRec) : (s.setCar c r).dru = s.dru := rfl
@[simp] theorem setCar_ptb (s : State) (c : Car) (r : CarRec) : (s.setCar c r).ptb = s.ptb := rfl
@[simp] theorem setCar_glm (s : State) (c : Car) (r : CarRec) : (s.setCar c r).glm = s.glm := rfl
@[simp] theorem setCar_tally (s : State) (c : Car) (r : CarRec) : (s.setCar c r).tally = s.tally := rfl
@[simp] theorem setCar_lmu (s : State) (c : Car) (r : CarRec) : (s.setCar c r).lmu = s.lmu := rfl
@[simp] theorem setCar_slp (s : State) (c : Car) (r : CarRec) : (s.setCar c r).slp = s.slp := rfl
@[simp] theorem setCar_line (s : State) (c : Car) (r : CarRec) : (s.setCar c r).line = s.line := rfl
@[simp] theorem setCar_segs (s : State) (c : Car) (r : CarRec) : (s.setCar c r).segs = s.segs := rfl
@[simp] theorem setCar_stops (s : State) (c : Car) (r : CarRec) : (s.setCar c r).stops = s.stops := rfl
@[simp] theorem setCar_markers (s : State) (c : Car) (r : CarRec) : (s.setCar c r).markers = s.markers := rfl
@[simp] theorem setCar_inReset (s : State) (c : Car) (r : CarRec) : (s.setCar c r).inReset = s.inReset := rfl
@[simp] theorem setCar_overrun (s : State) (c : Car) (r : CarRec) : (s.setCar c r).overrun = s.overrun := rfl
@[simp] theorem setCar_pending (s : State) (c : Car) (r : CarRec) : (s.setCar c r).pending = s.pending := rfl

/-! ## A brake record -/
@[simp] theorem setBrake_ptr (s : State) (b : BrakeId) (r : BrakeRec) : (s.setBrake b r).ptr = s.ptr := rfl
@[simp] theorem setBrake_hac (s : State) (b : BrakeId) (r : BrakeRec) : (s.setBrake b r).hac = s.hac := rfl
@[simp] theorem setBrake_osp (s : State) (b : BrakeId) (r : BrakeRec) : (s.setBrake b r).osp = s.osp := rfl
@[simp] theorem setBrake_bsq (s : State) (b : BrakeId) (r : BrakeRec) : (s.setBrake b r).bsq = { s.bsq with recs := s.bsq.recs.set b r } := rfl
@[simp] theorem setBrake_clu (s : State) (b : BrakeId) (r : BrakeRec) : (s.setBrake b r).clu = s.clu := rfl
@[simp] theorem setBrake_dru (s : State) (b : BrakeId) (r : BrakeRec) : (s.setBrake b r).dru = s.dru := rfl
@[simp] theorem setBrake_ptb (s : State) (b : BrakeId) (r : BrakeRec) : (s.setBrake b r).ptb = s.ptb := rfl
@[simp] theorem setBrake_glm (s : State) (b : BrakeId) (r : BrakeRec) : (s.setBrake b r).glm = s.glm := rfl
@[simp] theorem setBrake_tally (s : State) (b : BrakeId) (r : BrakeRec) : (s.setBrake b r).tally = s.tally := rfl
@[simp] theorem setBrake_lmu (s : State) (b : BrakeId) (r : BrakeRec) : (s.setBrake b r).lmu = s.lmu := rfl
@[simp] theorem setBrake_slp (s : State) (b : BrakeId) (r : BrakeRec) : (s.setBrake b r).slp = s.slp := rfl
@[simp] theorem setBrake_line (s : State) (b : BrakeId) (r : BrakeRec) : (s.setBrake b r).line = s.line := rfl
@[simp] theorem setBrake_segs (s : State) (b : BrakeId) (r : BrakeRec) : (s.setBrake b r).segs = s.segs := rfl
@[simp] theorem setBrake_stops (s : State) (b : BrakeId) (r : BrakeRec) : (s.setBrake b r).stops = s.stops := rfl
@[simp] theorem setBrake_markers (s : State) (b : BrakeId) (r : BrakeRec) : (s.setBrake b r).markers = s.markers := rfl
@[simp] theorem setBrake_inReset (s : State) (b : BrakeId) (r : BrakeRec) : (s.setBrake b r).inReset = s.inReset := rfl
@[simp] theorem setBrake_overrun (s : State) (b : BrakeId) (r : BrakeRec) : (s.setBrake b r).overrun = s.overrun := rfl
@[simp] theorem setBrake_pending (s : State) (b : BrakeId) (r : BrakeRec) : (s.setBrake b r).pending = s.pending := rfl

/-! ## A tally -/
@[simp] theorem setTally_ptr (s : State) (c : Car) (t : Tally) : (s.setTally c t).ptr = s.ptr := rfl
@[simp] theorem setTally_hac (s : State) (c : Car) (t : Tally) : (s.setTally c t).hac = s.hac := rfl
@[simp] theorem setTally_osp (s : State) (c : Car) (t : Tally) : (s.setTally c t).osp = s.osp := rfl
@[simp] theorem setTally_bsq (s : State) (c : Car) (t : Tally) : (s.setTally c t).bsq = s.bsq := rfl
@[simp] theorem setTally_clu (s : State) (c : Car) (t : Tally) : (s.setTally c t).clu = s.clu := rfl
@[simp] theorem setTally_dru (s : State) (c : Car) (t : Tally) : (s.setTally c t).dru = s.dru := rfl
@[simp] theorem setTally_ptb (s : State) (c : Car) (t : Tally) : (s.setTally c t).ptb = s.ptb := rfl
@[simp] theorem setTally_glm (s : State) (c : Car) (t : Tally) : (s.setTally c t).glm = s.glm := rfl
@[simp] theorem setTally_tally (s : State) (c : Car) (t : Tally) : (s.setTally c t).tally = s.tally.set c t := rfl
@[simp] theorem setTally_lmu (s : State) (c : Car) (t : Tally) : (s.setTally c t).lmu = s.lmu := rfl
@[simp] theorem setTally_slp (s : State) (c : Car) (t : Tally) : (s.setTally c t).slp = s.slp := rfl
@[simp] theorem setTally_line (s : State) (c : Car) (t : Tally) : (s.setTally c t).line = s.line := rfl
@[simp] theorem setTally_segs (s : State) (c : Car) (t : Tally) : (s.setTally c t).segs = s.segs := rfl
@[simp] theorem setTally_stops (s : State) (c : Car) (t : Tally) : (s.setTally c t).stops = s.stops := rfl
@[simp] theorem setTally_markers (s : State) (c : Car) (t : Tally) : (s.setTally c t).markers = s.markers := rfl
@[simp] theorem setTally_inReset (s : State) (c : Car) (t : Tally) : (s.setTally c t).inReset = s.inReset := rfl
@[simp] theorem setTally_overrun (s : State) (c : Car) (t : Tally) : (s.setTally c t).overrun = s.overrun := rfl
@[simp] theorem setTally_pending (s : State) (c : Car) (t : Tally) : (s.setTally c t).pending = s.pending := rfl

/-! ## A gate record -/
@[simp] theorem setGate_ptr (s : State) (g : GateRec) : (s.setGate g).ptr = s.ptr := rfl
@[simp] theorem setGate_hac (s : State) (g : GateRec) : (s.setGate g).hac = s.hac := rfl
@[simp] theorem setGate_osp (s : State) (g : GateRec) : (s.setGate g).osp = s.osp := rfl
@[simp] theorem setGate_bsq (s : State) (g : GateRec) : (s.setGate g).bsq = s.bsq := rfl
@[simp] theorem setGate_clu (s : State) (g : GateRec) : (s.setGate g).clu = s.clu := rfl
@[simp] theorem setGate_dru (s : State) (g : GateRec) : (s.setGate g).dru = s.dru := rfl
@[simp] theorem setGate_ptb (s : State) (g : GateRec) : (s.setGate g).ptb = s.ptb := rfl
@[simp] theorem setGate_tally (s : State) (g : GateRec) : (s.setGate g).tally = s.tally := rfl
@[simp] theorem setGate_lmu (s : State) (g : GateRec) : (s.setGate g).lmu = s.lmu := rfl
@[simp] theorem setGate_slp (s : State) (g : GateRec) : (s.setGate g).slp = s.slp := rfl
@[simp] theorem setGate_line (s : State) (g : GateRec) : (s.setGate g).line = s.line := rfl
@[simp] theorem setGate_segs (s : State) (g : GateRec) : (s.setGate g).segs = s.segs := rfl
@[simp] theorem setGate_stops (s : State) (g : GateRec) : (s.setGate g).stops = s.stops := rfl
@[simp] theorem setGate_markers (s : State) (g : GateRec) : (s.setGate g).markers = s.markers := rfl
@[simp] theorem setGate_inReset (s : State) (g : GateRec) : (s.setGate g).inReset = s.inReset := rfl
@[simp] theorem setGate_overrun (s : State) (g : GateRec) : (s.setGate g).overrun = s.overrun := rfl
@[simp] theorem setGate_pending (s : State) (g : GateRec) : (s.setGate g).pending = s.pending := rfl

/-! ## The Pass Table -/
@[simp] theorem setTable_ptr (t : PassTable) (s : State) : (setTable t s).ptr = s.ptr := rfl
@[simp] theorem setTable_hac (t : PassTable) (s : State) : (setTable t s).hac = s.hac := rfl
@[simp] theorem setTable_osp (t : PassTable) (s : State) : (setTable t s).osp = s.osp := rfl
@[simp] theorem setTable_bsq (t : PassTable) (s : State) : (setTable t s).bsq = s.bsq := rfl
@[simp] theorem setTable_clu (t : PassTable) (s : State) : (setTable t s).clu = s.clu := rfl
@[simp] theorem setTable_dru (t : PassTable) (s : State) : (setTable t s).dru = s.dru := rfl
@[simp] theorem setTable_ptb (t : PassTable) (s : State) : (setTable t s).ptb = t := rfl
@[simp] theorem setTable_glm (t : PassTable) (s : State) : (setTable t s).glm = s.glm := rfl
@[simp] theorem setTable_tally (t : PassTable) (s : State) : (setTable t s).tally = s.tally := rfl
@[simp] theorem setTable_lmu (t : PassTable) (s : State) : (setTable t s).lmu = s.lmu := rfl
@[simp] theorem setTable_slp (t : PassTable) (s : State) : (setTable t s).slp = s.slp := rfl
@[simp] theorem setTable_line (t : PassTable) (s : State) : (setTable t s).line = s.line := rfl
@[simp] theorem setTable_segs (t : PassTable) (s : State) : (setTable t s).segs = s.segs := rfl
@[simp] theorem setTable_stops (t : PassTable) (s : State) : (setTable t s).stops = s.stops := rfl
@[simp] theorem setTable_markers (t : PassTable) (s : State) : (setTable t s).markers = s.markers := rfl
@[simp] theorem setTable_inReset (t : PassTable) (s : State) : (setTable t s).inReset = s.inReset := rfl
@[simp] theorem setTable_overrun (t : PassTable) (s : State) : (setTable t s).overrun = s.overrun := rfl
@[simp] theorem setTable_pending (t : PassTable) (s : State) : (setTable t s).pending = s.pending := rfl

/-! ## The TSR list -/
@[simp] theorem setTsrs_ptr (l : List Tsr) (s : State) : (setTsrs l s).ptr = s.ptr := rfl
@[simp] theorem setTsrs_hac (l : List Tsr) (s : State) : (setTsrs l s).hac = s.hac := rfl
@[simp] theorem setTsrs_osp (l : List Tsr) (s : State) : (setTsrs l s).osp = { s.osp with tsrs := l } := rfl
@[simp] theorem setTsrs_bsq (l : List Tsr) (s : State) : (setTsrs l s).bsq = s.bsq := rfl
@[simp] theorem setTsrs_clu (l : List Tsr) (s : State) : (setTsrs l s).clu = s.clu := rfl
@[simp] theorem setTsrs_dru (l : List Tsr) (s : State) : (setTsrs l s).dru = s.dru := rfl
@[simp] theorem setTsrs_ptb (l : List Tsr) (s : State) : (setTsrs l s).ptb = s.ptb := rfl
@[simp] theorem setTsrs_glm (l : List Tsr) (s : State) : (setTsrs l s).glm = s.glm := rfl
@[simp] theorem setTsrs_tally (l : List Tsr) (s : State) : (setTsrs l s).tally = s.tally := rfl
@[simp] theorem setTsrs_lmu (l : List Tsr) (s : State) : (setTsrs l s).lmu = s.lmu := rfl
@[simp] theorem setTsrs_slp (l : List Tsr) (s : State) : (setTsrs l s).slp = s.slp := rfl
@[simp] theorem setTsrs_line (l : List Tsr) (s : State) : (setTsrs l s).line = s.line := rfl
@[simp] theorem setTsrs_segs (l : List Tsr) (s : State) : (setTsrs l s).segs = s.segs := rfl
@[simp] theorem setTsrs_stops (l : List Tsr) (s : State) : (setTsrs l s).stops = s.stops := rfl
@[simp] theorem setTsrs_markers (l : List Tsr) (s : State) : (setTsrs l s).markers = s.markers := rfl
@[simp] theorem setTsrs_inReset (l : List Tsr) (s : State) : (setTsrs l s).inReset = s.inReset := rfl
@[simp] theorem setTsrs_overrun (l : List Tsr) (s : State) : (setTsrs l s).overrun = s.overrun := rfl
@[simp] theorem setTsrs_pending (l : List Tsr) (s : State) : (setTsrs l s).pending = s.pending := rfl

/-! ## The alarm route -/
@[simp] theorem setRoute_ptr (r : AlarmRoute) (s : State) : (setRoute r s).ptr = s.ptr := rfl
@[simp] theorem setRoute_hac (r : AlarmRoute) (s : State) : (setRoute r s).hac = s.hac := rfl
@[simp] theorem setRoute_osp (r : AlarmRoute) (s : State) : (setRoute r s).osp = s.osp := rfl
@[simp] theorem setRoute_bsq (r : AlarmRoute) (s : State) : (setRoute r s).bsq = s.bsq := rfl
@[simp] theorem setRoute_clu (r : AlarmRoute) (s : State) : (setRoute r s).clu = { s.clu with route := r } := rfl
@[simp] theorem setRoute_dru (r : AlarmRoute) (s : State) : (setRoute r s).dru = s.dru := rfl
@[simp] theorem setRoute_ptb (r : AlarmRoute) (s : State) : (setRoute r s).ptb = s.ptb := rfl
@[simp] theorem setRoute_glm (r : AlarmRoute) (s : State) : (setRoute r s).glm = s.glm := rfl
@[simp] theorem setRoute_tally (r : AlarmRoute) (s : State) : (setRoute r s).tally = s.tally := rfl
@[simp] theorem setRoute_lmu (r : AlarmRoute) (s : State) : (setRoute r s).lmu = s.lmu := rfl
@[simp] theorem setRoute_slp (r : AlarmRoute) (s : State) : (setRoute r s).slp = s.slp := rfl
@[simp] theorem setRoute_line (r : AlarmRoute) (s : State) : (setRoute r s).line = s.line := rfl
@[simp] theorem setRoute_segs (r : AlarmRoute) (s : State) : (setRoute r s).segs = s.segs := rfl
@[simp] theorem setRoute_stops (r : AlarmRoute) (s : State) : (setRoute r s).stops = s.stops := rfl
@[simp] theorem setRoute_markers (r : AlarmRoute) (s : State) : (setRoute r s).markers = s.markers := rfl
@[simp] theorem setRoute_inReset (r : AlarmRoute) (s : State) : (setRoute r s).inReset = s.inReset := rfl
@[simp] theorem setRoute_overrun (r : AlarmRoute) (s : State) : (setRoute r s).overrun = s.overrun := rfl
@[simp] theorem setRoute_pending (r : AlarmRoute) (s : State) : (setRoute r s).pending = s.pending := rfl

/-! ## The report mask -/
@[simp] theorem setMask_ptr (m : ReportMask) (s : State) : (setMask m s).ptr = s.ptr := rfl
@[simp] theorem setMask_hac (m : ReportMask) (s : State) : (setMask m s).hac = s.hac := rfl
@[simp] theorem setMask_osp (m : ReportMask) (s : State) : (setMask m s).osp = s.osp := rfl
@[simp] theorem setMask_bsq (m : ReportMask) (s : State) : (setMask m s).bsq = s.bsq := rfl
@[simp] theorem setMask_clu (m : ReportMask) (s : State) : (setMask m s).clu = s.clu := rfl
@[simp] theorem setMask_dru (m : ReportMask) (s : State) : (setMask m s).dru = s.dru := rfl
@[simp] theorem setMask_ptb (m : ReportMask) (s : State) : (setMask m s).ptb = s.ptb := rfl
@[simp] theorem setMask_glm (m : ReportMask) (s : State) : (setMask m s).glm = s.glm := rfl
@[simp] theorem setMask_tally (m : ReportMask) (s : State) : (setMask m s).tally = s.tally := rfl
@[simp] theorem setMask_lmu (m : ReportMask) (s : State) : (setMask m s).lmu = s.lmu := rfl
@[simp] theorem setMask_slp (m : ReportMask) (s : State) : (setMask m s).slp = { s.slp with mask := m } := rfl
@[simp] theorem setMask_line (m : ReportMask) (s : State) : (setMask m s).line = s.line := rfl
@[simp] theorem setMask_segs (m : ReportMask) (s : State) : (setMask m s).segs = s.segs := rfl
@[simp] theorem setMask_stops (m : ReportMask) (s : State) : (setMask m s).stops = s.stops := rfl
@[simp] theorem setMask_markers (m : ReportMask) (s : State) : (setMask m s).markers = s.markers := rfl
@[simp] theorem setMask_inReset (m : ReportMask) (s : State) : (setMask m s).inReset = s.inReset := rfl
@[simp] theorem setMask_overrun (m : ReportMask) (s : State) : (setMask m s).overrun = s.overrun := rfl
@[simp] theorem setMask_pending (m : ReportMask) (s : State) : (setMask m s).pending = s.pending := rfl

/-! ## The receiver -/
@[simp] theorem setReceiver_ptr (r : Receiver) (g : Timer) (s : State) : (setReceiver r g s).ptr = s.ptr := rfl
@[simp] theorem setReceiver_hac (r : Receiver) (g : Timer) (s : State) : (setReceiver r g s).hac = s.hac := rfl
@[simp] theorem setReceiver_osp (r : Receiver) (g : Timer) (s : State) : (setReceiver r g s).osp = s.osp := rfl
@[simp] theorem setReceiver_bsq (r : Receiver) (g : Timer) (s : State) : (setReceiver r g s).bsq = s.bsq := rfl
@[simp] theorem setReceiver_clu (r : Receiver) (g : Timer) (s : State) : (setReceiver r g s).clu = s.clu := rfl
@[simp] theorem setReceiver_dru (r : Receiver) (g : Timer) (s : State) : (setReceiver r g s).dru = s.dru := rfl
@[simp] theorem setReceiver_ptb (r : Receiver) (g : Timer) (s : State) : (setReceiver r g s).ptb = s.ptb := rfl
@[simp] theorem setReceiver_glm (r : Receiver) (g : Timer) (s : State) : (setReceiver r g s).glm = s.glm := rfl
@[simp] theorem setReceiver_tally (r : Receiver) (g : Timer) (s : State) : (setReceiver r g s).tally = s.tally := rfl
@[simp] theorem setReceiver_lmu (r : Receiver) (g : Timer) (s : State) : (setReceiver r g s).lmu = s.lmu := rfl
@[simp] theorem setReceiver_slp (r : Receiver) (g : Timer) (s : State) : (setReceiver r g s).slp = { s.slp with receiver := r, gap := g } := rfl
@[simp] theorem setReceiver_line (r : Receiver) (g : Timer) (s : State) : (setReceiver r g s).line = s.line := rfl
@[simp] theorem setReceiver_segs (r : Receiver) (g : Timer) (s : State) : (setReceiver r g s).segs = s.segs := rfl
@[simp] theorem setReceiver_stops (r : Receiver) (g : Timer) (s : State) : (setReceiver r g s).stops = s.stops := rfl
@[simp] theorem setReceiver_markers (r : Receiver) (g : Timer) (s : State) : (setReceiver r g s).markers = s.markers := rfl
@[simp] theorem setReceiver_inReset (r : Receiver) (g : Timer) (s : State) : (setReceiver r g s).inReset = s.inReset := rfl
@[simp] theorem setReceiver_overrun (r : Receiver) (g : Timer) (s : State) : (setReceiver r g s).overrun = s.overrun := rfl
@[simp] theorem setReceiver_pending (r : Receiver) (g : Timer) (s : State) : (setReceiver r g s).pending = s.pending := rfl

/-! ## A brake test -/
@[simp] theorem setTest_ptr (t : Option BrakeTest) (q : Bool) (s : State) : (setTest t q s).ptr = s.ptr := rfl
@[simp] theorem setTest_hac (t : Option BrakeTest) (q : Bool) (s : State) : (setTest t q s).hac = s.hac := rfl
@[simp] theorem setTest_osp (t : Option BrakeTest) (q : Bool) (s : State) : (setTest t q s).osp = s.osp := rfl
@[simp] theorem setTest_bsq (t : Option BrakeTest) (q : Bool) (s : State) : (setTest t q s).bsq = { s.bsq with test := t, torqueLine := q } := rfl
@[simp] theorem setTest_clu (t : Option BrakeTest) (q : Bool) (s : State) : (setTest t q s).clu = s.clu := rfl
@[simp] theorem setTest_dru (t : Option BrakeTest) (q : Bool) (s : State) : (setTest t q s).dru = s.dru := rfl
@[simp] theorem setTest_ptb (t : Option BrakeTest) (q : Bool) (s : State) : (setTest t q s).ptb = s.ptb := rfl
@[simp] theorem setTest_glm (t : Option BrakeTest) (q : Bool) (s : State) : (setTest t q s).glm = s.glm := rfl
@[simp] theorem setTest_tally (t : Option BrakeTest) (q : Bool) (s : State) : (setTest t q s).tally = s.tally := rfl
@[simp] theorem setTest_lmu (t : Option BrakeTest) (q : Bool) (s : State) : (setTest t q s).lmu = s.lmu := rfl
@[simp] theorem setTest_slp (t : Option BrakeTest) (q : Bool) (s : State) : (setTest t q s).slp = s.slp := rfl
@[simp] theorem setTest_line (t : Option BrakeTest) (q : Bool) (s : State) : (setTest t q s).line = s.line := rfl
@[simp] theorem setTest_segs (t : Option BrakeTest) (q : Bool) (s : State) : (setTest t q s).segs = s.segs := rfl
@[simp] theorem setTest_stops (t : Option BrakeTest) (q : Bool) (s : State) : (setTest t q s).stops = s.stops := rfl
@[simp] theorem setTest_markers (t : Option BrakeTest) (q : Bool) (s : State) : (setTest t q s).markers = s.markers := rfl
@[simp] theorem setTest_inReset (t : Option BrakeTest) (q : Bool) (s : State) : (setTest t q s).inReset = s.inReset := rfl
@[simp] theorem setTest_overrun (t : Option BrakeTest) (q : Bool) (s : State) : (setTest t q s).overrun = s.overrun := rfl
@[simp] theorem setTest_pending (t : Option BrakeTest) (q : Bool) (s : State) : (setTest t q s).pending = s.pending := rfl

/-! ## The state in which a request is handled -/
@[simp] theorem heard_ptr (s : State) : (s.heard).ptr = s.ptr := rfl
@[simp] theorem heard_hac (s : State) : (s.heard).hac = s.hac := rfl
@[simp] theorem heard_osp (s : State) : (s.heard).osp = s.osp := rfl
@[simp] theorem heard_bsq (s : State) : (s.heard).bsq = s.bsq := rfl
@[simp] theorem heard_clu (s : State) : (s.heard).clu = s.clu := rfl
@[simp] theorem heard_dru (s : State) : (s.heard).dru = s.dru := rfl
@[simp] theorem heard_ptb (s : State) : (s.heard).ptb = s.ptb := rfl
@[simp] theorem heard_glm (s : State) : (s.heard).glm = s.glm := rfl
@[simp] theorem heard_tally (s : State) : (s.heard).tally = s.tally := rfl
@[simp] theorem heard_lmu (s : State) : (s.heard).lmu = s.lmu := rfl
@[simp] theorem heard_line (s : State) : (s.heard).line = s.line := rfl
@[simp] theorem heard_segs (s : State) : (s.heard).segs = s.segs := rfl
@[simp] theorem heard_stops (s : State) : (s.heard).stops = s.stops := rfl
@[simp] theorem heard_markers (s : State) : (s.heard).markers = s.markers := rfl
@[simp] theorem heard_inReset (s : State) : (s.heard).inReset = s.inReset := rfl
@[simp] theorem heard_pending (s : State) : (s.heard).pending = s.pending := rfl
@[simp] theorem heard_overrun (s : State) : s.heard.overrun = false := rfl
@[simp] theorem heard_slp (s : State) : s.heard.slp = s.slp.received := rfl

/-! ## A reply -/
@[simp] theorem replied_ptr (s : State) (tag : Byte) (kind : ReqKind) (a : Answer) : (s.replied tag kind a).ptr = s.ptr := rfl
@[simp] theorem replied_hac (s : State) (tag : Byte) (kind : ReqKind) (a : Answer) : (s.replied tag kind a).hac = s.hac := rfl
@[simp] theorem replied_osp (s : State) (tag : Byte) (kind : ReqKind) (a : Answer) : (s.replied tag kind a).osp = s.osp := rfl
@[simp] theorem replied_bsq (s : State) (tag : Byte) (kind : ReqKind) (a : Answer) : (s.replied tag kind a).bsq = s.bsq := rfl
@[simp] theorem replied_clu (s : State) (tag : Byte) (kind : ReqKind) (a : Answer) : (s.replied tag kind a).clu = s.clu := rfl
@[simp] theorem replied_dru (s : State) (tag : Byte) (kind : ReqKind) (a : Answer) : (s.replied tag kind a).dru = s.dru := rfl
@[simp] theorem replied_ptb (s : State) (tag : Byte) (kind : ReqKind) (a : Answer) : (s.replied tag kind a).ptb = s.ptb := rfl
@[simp] theorem replied_glm (s : State) (tag : Byte) (kind : ReqKind) (a : Answer) : (s.replied tag kind a).glm = s.glm := rfl
@[simp] theorem replied_tally (s : State) (tag : Byte) (kind : ReqKind) (a : Answer) : (s.replied tag kind a).tally = s.tally := rfl
@[simp] theorem replied_lmu (s : State) (tag : Byte) (kind : ReqKind) (a : Answer) : (s.replied tag kind a).lmu = s.lmu := rfl
@[simp] theorem replied_slp (s : State) (tag : Byte) (kind : ReqKind) (a : Answer) : (s.replied tag kind a).slp = s.slp.answer false { tag := tag, kind := kind.code, answer := a } := rfl
@[simp] theorem replied_line (s : State) (tag : Byte) (kind : ReqKind) (a : Answer) : (s.replied tag kind a).line = s.line := rfl
@[simp] theorem replied_segs (s : State) (tag : Byte) (kind : ReqKind) (a : Answer) : (s.replied tag kind a).segs = s.segs := rfl
@[simp] theorem replied_stops (s : State) (tag : Byte) (kind : ReqKind) (a : Answer) : (s.replied tag kind a).stops = s.stops := rfl
@[simp] theorem replied_markers (s : State) (tag : Byte) (kind : ReqKind) (a : Answer) : (s.replied tag kind a).markers = s.markers := rfl
@[simp] theorem replied_inReset (s : State) (tag : Byte) (kind : ReqKind) (a : Answer) : (s.replied tag kind a).inReset = s.inReset := rfl
@[simp] theorem replied_overrun (s : State) (tag : Byte) (kind : ReqKind) (a : Answer) : (s.replied tag kind a).overrun = s.overrun := rfl
@[simp] theorem replied_pending (s : State) (tag : Byte) (kind : ReqKind) (a : Answer) : (s.replied tag kind a).pending = s.pending := rfl

/-! ## What was written is read back, and nothing beside it changes -/

@[simp] theorem PerCar.get_set {α : Type} (p : PerCar α) (c : Car) (v : α) : (p.set c v).get c = v := by cases c <;> rfl

theorem PerCar.get_set_other {α : Type} (p : PerCar α) {c e : Car} (v : α) (h : e ≠ c) : (p.set c v).get e = p.get e := by
  cases c <;> cases e <;> first | rfl | exact absurd rfl h

@[simp] theorem PerSide.get_set {α : Type} (p : PerSide α) (d : Side) (v : α) : (p.set d v).get d = v := by cases d <;> rfl

theorem PerSide.get_set_other {α : Type} (p : PerSide α) {d e : Side} (v : α) (h : e ≠ d) : (p.set d v).get e = p.get e := by
  cases d <;> cases e <;> first | rfl | exact absurd rfl h

@[simp] theorem PerBrake.get_set {α : Type} (p : PerBrake α) (b : BrakeId) (v : α) : (p.set b v).get b = v := by
  cases b <;> rfl

theorem PerBrake.get_set_other {α : Type} (p : PerBrake α) {b e : BrakeId} (v : α) (h : e ≠ b) :
    (p.set b v).get e = p.get e := by
  cases b <;> cases e <;> first | rfl | exact absurd rfl h

@[simp] theorem PerGroup.get_set {α : Type} (p : PerGroup α) (g : Group) (v : α) : (p.set g v).get g = v := by cases g <;> rfl

theorem PerGroup.get_set_other {α : Type} (p : PerGroup α) {g e : Group} (v : α) (h : e ≠ g) :
    (p.set g v).get e = p.get e := by
  cases g <;> cases e <;> first | rfl | exact absurd rfl h

@[simp] theorem side_setSide (s : State) (c : Car) (d : Side) (r : DoorSide) : (s.setSide c d r).side c d = r := by
  cases c <;> cases d <;> rfl

/-- A door side that is written leaves the other three. -/
theorem side_setSide_other (s : State) {c e : Car} {d x : Side} (r : DoorSide) (h : (e, x) ≠ (c, d)) :
    (s.setSide c d r).side e x = s.side e x := by
  cases c <;> cases d <;> cases e <;> cases x <;> first | rfl | exact absurd rfl h

@[simp] theorem car_setCar (s : State) (c : Car) (r : CarRec) : (s.setCar c r).car c = r := by cases c <;> rfl

theorem car_setCar_other (s : State) {c e : Car} (r : CarRec) (h : e ≠ c) : (s.setCar c r).car e = s.car e := by
  cases c <;> cases e <;> first | rfl | exact absurd rfl h

@[simp] theorem brake_setBrake (s : State) (b : BrakeId) (r : BrakeRec) : (s.setBrake b r).brake b = r := by cases b <;> rfl

theorem brake_setBrake_other (s : State) {b e : BrakeId} (r : BrakeRec) (h : e ≠ b) :
    (s.setBrake b r).brake e = s.brake e := by
  cases b <;> cases e <;> first | rfl | exact absurd rfl h

@[simp] theorem tallyOf_setTally (s : State) (c : Car) (t : Tally) : (s.setTally c t).tallyOf c = t := by cases c <;> rfl

theorem tallyOf_setTally_other (s : State) {c e : Car} (t : Tally) (h : e ≠ c) : (s.setTally c t).tallyOf e = s.tallyOf e := by
  cases c <;> cases e <;> first | rfl | exact absurd rfl h

end Sys2Proof.Machine
end

