-- ==== Sys2Proof/Laws/Run.lean ====
section
/-! SUPPORT. What the operations within one step can do, said once: Run, a chain of changes of single blocks, each with the laws it
keeps, and the three places where a law is broken and made good before the operation ends. -/

namespace Sys2Proof.Machine

/-- The fields of the link that decide its bounds stand as they were. -/
structure Link.Alike (l m : Link) : Prop where
  waiting : m.waiting = l.waiting
  unhandled : m.unhandled = l.unhandled
  queue : m.queue = l.queue
  lost : m.lost = l.lost
  sending : m.sending = l.sending

/-- What the operations within one step can do to the state. -/
inductive Run : State → State → Prop
  | refl (s : State) : Run s s
  | trans {s t u : State} : Run s t → Run t u → Run s u
  | track (s : State) (p : Tracker) : Run s { s with ptr := p }
  | haul (s : State) (h : Haulage) (o : Supervisor) (law : s.haulageLaw → State.haulageLaw { s with hac := h, osp := o })
      (plan : s.hac.planLaw → h.planLaw) (tsrs : tsrLaw s.osp.tsrs → tsrLaw o.tsrs) : Run s { s with hac := h, osp := o }
  | brakes (s : State) (b : Brakes) (lock : s.interlocked → State.interlocked { s with bsq := b })
      (latch : s.latchHolds → State.latchHolds { s with bsq := b }) : Run s { s with bsq := b }
  | cars (s : State) (c : CarLinks) (lock : s.interlocked → State.interlocked { s with clu := c })
      (route : s.clu.route.law → c.route.law) : Run s { s with clu := c }
  | doors (s : State) (d : Doors) (lock : s.interlocked → State.interlocked { s with dru := d })
      (law : s.haulageLaw → State.haulageLaw { s with dru := d }) : Run s { s with dru := d }
  | gates (s : State) (l : GateLoop) (law : s.glm.law → l.law) : Run s { s with glm := l }
  | tally (s : State) (t : PerCar Tally) (law : s.tallyLaw → State.tallyLaw { s with tally := t }) : Run s { s with tally := t }
  | pass (s : State) (t : PassTable) (law : s.ptb.law → t.law) : Run s { s with ptb := t }
  | mode (s : State) (l : LineMode) (law : s.lmu.law → l.law) (force : s.unforced → State.unforced { s with lmu := l })
      (haul : s.haulageLaw → State.haulageLaw { s with lmu := l }) : Run s { s with lmu := l }
  | config (s : State) (line : Option LineFields) (segs : List Segment) (stops : List StopRec) (markers : List Marker)
      (law : s.configLaw → State.configLaw { s with line := line, segs := segs, stops := stops, markers := markers }) :
      Run s { s with line := line, segs := segs, stops := stops, markers := markers }
  | post (s : State) (r : Report) : Run s (post r s)
  | port (s : State) (l : Link) (alike : s.slp.Alike l) : Run s { s with slp := l }
  | overrun (s : State) : Run s { s with overrun := true }
  | side (s t : State) (d : Doors) (inner : Run { s with dru := d } t)
      (lock : s.interlocked → t.interlocked ∨ t.overrun = true) (law : s.haulageLaw → t.haulageLaw) : Run s t
  | fresh (s t : State) (c : CarLinks) (route : c.route = s.clu.route) (inner : Run { s with clu := c } t)
      (lock : s.interlocked → t.interlocked ∨ t.overrun = true) : Run s t
  | health (s t : State) (h : Health) (inner : Run { s with lmu := { s.lmu with health := h } } t)
      (force : s.unforced → t.unforced ∨ t.overrun = true) : Run s t

/-! ## What a run keeps -/

/-- A post changes the link alone. -/
theorem post_eq (r : Report) (s : State) : post r s = { s with slp := (post r s).slp } := by
  unfold post; split <;> rfl

/-- A mark that hand-overs went too deep stays. -/
theorem Run.overrun_stays {s t : State} (h : Run s t) : s.overrun = true → t.overrun = true := by
  induction h with
  | trans _ _ ih1 ih2 => exact fun h => ih2 (ih1 h)
  | post s r => intro h; rw [post_overrun]; exact h
  | side _ _ _ _ _ _ ih => exact ih
  | fresh _ _ _ _ _ _ ih => exact ih
  | health _ _ _ _ _ ih => exact ih
  | overrun => intro _; rfl
  | _ => exact id

/-- A run keeps the queue of waiting commands. -/
theorem Run.pending {s t : State} (h : Run s t) : t.pending = s.pending := by
  induction h with
  | trans _ _ ih1 ih2 => rw [ih2, ih1]
  | post s r => rw [post_eq]
  | side _ _ _ _ _ _ ih => exact ih
  | fresh _ _ _ _ _ _ ih => exact ih
  | health _ _ _ _ _ ih => exact ih
  | _ => rfl

/-- A run does not touch the external reset line. -/
theorem Run.inReset {s t : State} (h : Run s t) : t.inReset = s.inReset := by
  induction h with
  | trans _ _ ih1 ih2 => rw [ih2, ih1]
  | post s r => rw [post_eq]
  | side _ _ _ _ _ _ ih => exact ih
  | fresh _ _ _ _ _ _ ih => exact ih
  | health _ _ _ _ _ ih => exact ih
  | _ => rfl

/-- A run keeps the interlock law, or went too deep. -/
theorem Run.interlocked {s t : State} (h : Run s t) : s.interlocked ∨ s.overrun = true → t.interlocked ∨ t.overrun = true := by
  induction h with
  | refl => exact id
  | trans _ _ ih1 ih2 => exact fun h => ih2 (ih1 h)
  | brakes _ _ lock _ => exact fun h => h.imp_left lock
  | cars _ _ lock _ => exact fun h => h.imp_left lock
  | doors _ _ lock _ => exact fun h => h.imp_left lock
  | post s r => intro h; rw [post_eq]; exact h
  | overrun => exact fun _ => .inr rfl
  | side _ _ _ inner lock _ _ => exact fun h => h.elim lock (fun o => .inr (inner.overrun_stays o))
  | fresh _ _ _ _ inner lock _ => exact fun h => h.elim lock (fun o => .inr (inner.overrun_stays o))
  | health _ _ _ _ _ ih => exact ih
  | _ => exact id

/-- A run keeps the law that a crossing forces the line out of SERVICE, or went too deep. -/
theorem Run.unforced {s t : State} (h : Run s t) : s.unforced ∨ s.overrun = true → t.unforced ∨ t.overrun = true := by
  induction h with
  | refl => exact id
  | trans _ _ ih1 ih2 => exact fun h => ih2 (ih1 h)
  | mode _ _ _ force _ => exact fun h => h.imp_left force
  | post s r => intro h; rw [post_eq]; exact h
  | overrun => exact fun _ => .inr rfl
  | side _ _ _ _ _ _ ih => exact ih
  | fresh _ _ _ _ _ _ ih => exact ih
  | health _ _ _ inner force _ => exact fun h => h.elim force (fun o => .inr (inner.overrun_stays o))
  | _ => exact id

/-- A run keeps the haulage law. -/
theorem Run.haulageLaw {s t : State} (h : Run s t) : s.haulageLaw → t.haulageLaw := by
  induction h with
  | refl => exact id
  | trans _ _ ih1 ih2 => exact fun h => ih2 (ih1 h)
  | haul _ _ _ law _ _ => exact law
  | doors _ _ _ law => exact law
  | mode _ _ _ _ haul => exact haul
  | post s r => intro h; rw [post_eq]; exact h
  | side _ _ _ _ _ law _ => exact law
  | fresh _ _ _ _ _ _ ih => exact ih
  | health _ _ _ _ _ ih => exact ih
  | _ => exact id

end Sys2Proof.Machine
end

