-- ==== Sys2Proof/Laws/Link.lean ====
section
/-! SUPPORT. The Supervisory Link Port's operations and its bounds (chapter 10): posting, the transmitter, replies and overload. -/

namespace Sys2Proof.Machine

/-- The bounds of the link apart from the transmitter being busy while something waits. -/
abbrev Link.bounds (l : Link) : Prop :=
  l.places ≤ Config.bufferPlaces ∧ l.overloads ≤ Config.overloadPlaces ∧ l.queue.length ≤ Config.queuePlaces ∧ l.lost ≤ 255

theorem Link.law_bounds {l : Link} (h : l.law) : l.bounds := ⟨h.1, h.2.1, h.2.2.1, h.2.2.2.1⟩

/-! ## The transmitter (R192, R194) -/

/-- An idle transmitter has nothing waiting. -/
theorem transmit_idle (l : Link) (h : l.transmit.sending = none) : l.transmit.waiting = [] ∧ l.transmit.queue = [] := by
  unfold Link.transmit at h ⊢
  split
  · rename_i e; rw [e] at h; simp only at h; rw [e] at h; cases h
  · rename_i e
    rw [e] at h
    split
    · rename_i w; rw [w] at h; cases h
    · rename_i w
      rw [w] at h
      split
      · rename_i q; simp only [q] at h; cases h
      · rename_i q; exact ⟨w, q⟩

/-- The transmitter frees places and entries and never fills one. -/
theorem transmit_le (l : Link) : l.transmit.places ≤ l.places ∧ l.transmit.overloads ≤ l.overloads
    ∧ l.transmit.queue.length ≤ l.queue.length ∧ (l.lost ≤ 255 → l.transmit.lost ≤ 255) ∧ l.transmit.unhandled = l.unhandled := by
  unfold Link.transmit
  split
  · exact ⟨Nat.le_refl _, Nat.le_refl _, Nat.le_refl _, id, rfl⟩
  · split
    · rename_i w rest e
      refine ⟨?_, ?_, Nat.le_refl _, id, rfl⟩
      · simp only [Link.places, e, List.filter_cons]
        split <;> simp
      · simp only [Link.overloads, e, List.filter_cons]
        split <;> simp
    · split
      · rename_i q rest e
        refine ⟨Nat.le_refl _, Nat.le_refl _, ?_, fun _ => Nat.zero_le _, rfl⟩
        simp [e]
      · exact ⟨Nat.le_refl _, Nat.le_refl _, Nat.le_refl _, id, rfl⟩

theorem transmit_law {l : Link} (h : l.bounds) : l.transmit.law := by
  obtain ⟨h1, h2, h3, h4, _⟩ := transmit_le l
  exact ⟨Nat.le_trans h1 h.1, Nat.le_trans h2 h.2.1, Nat.le_trans h3 h.2.2.1, h4 h.2.2.2, transmit_idle l⟩

/-! ## The report queue (R190, R191) -/

theorem length_evictFrom (q : List Report) : (evictFrom q).length = q.length - 1 := by
  unfold evictFrom
  split
  · rename_i a
    obtain ⟨r, hr, m⟩ := List.any_eq_true.1 a
    exact List.length_eraseP_of_mem hr m
  · exact List.length_tail

/-- A report that meets the queue leaves the places and the overload list and keeps the bounds. -/
theorem enqueue_spec (l : Link) (r : Report) : (l.enqueue r).places = l.places ∧ (l.enqueue r).overloads = l.overloads
    ∧ (l.queue.length ≤ Config.queuePlaces → (l.enqueue r).queue.length ≤ Config.queuePlaces)
    ∧ (l.lost ≤ 255 → (l.enqueue r).lost ≤ 255) ∧ (l.enqueue r).unhandled = l.unhandled := by
  unfold Link.enqueue
  split
  · rename_i room
    refine ⟨rfl, rfl, fun _ => ?_, id, rfl⟩
    show (l.queue ++ [r]).length ≤ _
    rw [List.length_append]
    exact room
  · split
    · exact ⟨rfl, rfl, id, fun _ => Nat.min_le_left _ _, rfl⟩
    · rename_i full _
      refine ⟨rfl, rfl, fun h => ?_, fun _ => Nat.min_le_left _ _, rfl⟩
      show (evictFrom l.queue ++ [r]).length ≤ _
      have n : l.queue ≠ [] := by
        intro e
        rw [e] at full
        exact full (by decide)
      rw [List.length_append, length_evictFrom, List.length_singleton]
      have := List.length_pos_of_ne_nil n
      omega

theorem enqueue_bounds {l : Link} (h : l.bounds) (r : Report) : (l.enqueue r).bounds := by
  obtain ⟨h1, h2, h3, h4, _⟩ := enqueue_spec l r
  exact ⟨h1 ▸ h.1, h2 ▸ h.2.1, h3 h.2.2.1, h4 h.2.2.2⟩

/-- Posting a report keeps the bounds of the link, takes no place and leaves the frames held unhandled. -/
theorem post_link (r : Report) (s : State) : (s.slp.law → (post r s).slp.law) ∧ (post r s).slp.places ≤ s.slp.places
    ∧ (post r s).slp.overloads ≤ s.slp.overloads := by
  unfold post
  split
  · exact ⟨id, Nat.le_refl _, Nat.le_refl _⟩
  · obtain ⟨e1, e2, _⟩ := enqueue_spec s.slp r
    obtain ⟨t1, t2, _⟩ := transmit_le (s.slp.enqueue r)
    exact ⟨fun h => transmit_law (enqueue_bounds (Link.law_bounds h) r), e1 ▸ t1, e2 ▸ t2⟩

/-- A run keeps the bounds of the link and takes no place. -/
theorem Run.link {s t : State} (h : Run s t) : (s.slp.law → t.slp.law) ∧ t.slp.places ≤ s.slp.places
    ∧ t.slp.overloads ≤ s.slp.overloads := by
  induction h with
  | trans _ _ ih1 ih2 => exact ⟨fun h => ih2.1 (ih1.1 h), Nat.le_trans ih2.2.1 ih1.2.1, Nat.le_trans ih2.2.2 ih1.2.2⟩
  | post s r => exact post_link r s
  | port s l a =>
    refine ⟨?_, ?_, ?_⟩
    · simp only [Link.law, Link.places, Link.overloads, a.waiting, a.unhandled, a.queue, a.lost, a.sending]
      exact id
    · simp only [Link.places, a.waiting, a.unhandled]
      exact Nat.le_refl _
    · simp only [Link.overloads, a.waiting]
      exact Nat.le_refl _
  | side _ _ _ _ _ _ ih => exact ih
  | fresh _ _ _ _ _ _ ih => exact ih
  | health _ _ _ _ _ ih => exact ih
  | _ => exact ⟨id, Nat.le_refl _, Nat.le_refl _⟩

/-! ## Replies, overload and the hold after RESTART (R187, R188, R189) -/

theorem answer_law {l : Link} (h : l.law) (r : Reply) (room : l.places < Config.bufferPlaces) : (l.answer false r).law := by
  refine transmit_law ⟨?_, ?_, h.2.2.1, h.2.2.2.1⟩
  · simp only [Link.places, List.filter_append, List.length_append] at room ⊢
    simp
    omega
  · have := h.2.1
    simp only [Link.overloads, List.filter_append, List.length_append] at this ⊢
    simpa using this

theorem refuseOverload_law {l : Link} (h : l.law) (tag kind : Byte) : (l.refuseOverload tag kind).law := by
  unfold Link.refuseOverload
  split
  · rename_i room
    refine transmit_law ⟨?_, ?_, h.2.2.1, h.2.2.2.1⟩
    · have := h.1
      simp only [Link.places, Link.count, List.filter_append, List.length_append] at this ⊢
      simpa using this
    · simp only [Link.overloads, Link.count, List.filter_append, List.length_append] at room ⊢
      simp
      omega
  · exact h

theorem holdFrame_law {l : Link} (h : l.law) (tag kind : Byte) : (l.holdFrame tag kind).law := by
  unfold Link.holdFrame
  split
  · rename_i room
    refine ⟨?_, h.2⟩
    simp only [Link.places, List.length_append, List.length_singleton] at room ⊢
    omega
  · exact h

end Sys2Proof.Machine
end

