-- ==== Sys2Proof/Laws/Fields.lean ====
section
/-! SUPPORT. What the examination of a request's fields secures: the loads, the plan, the TSR list and the gate list (R3, R5, R6, R7,
R27, R65, R142). -/

namespace Sys2Proof.Machine

theorem firstFault_none {l : List FieldCheck} : firstFault l = none ↔ ∀ c ∈ l, c.good = true := by
  unfold firstFault
  rw [Option.map_eq_none_iff, List.find?_eq_none]
  simp

theorem range_good {v lo hi o : Nat} (h : (FieldCheck.range v lo hi o).good = true) : lo ≤ v ∧ v ≤ hi := by
  simpa [FieldCheck.range] using h

/-- Every record of a list is examined. -/
theorem mem_recordChecks {α : Type} (checks : α → Nat → List FieldCheck) (size : Nat) (l : List α) (o : Nat) {x : α}
    (h : x ∈ l) : ∃ p, ∀ c ∈ checks x p, c ∈ recordChecks checks size l o := by
  induction l generalizing o with
  | nil => cases h
  | cons a l ih =>
    rcases List.mem_cons.1 h with rfl | h
    · exact ⟨o, fun c hc => List.mem_append_left _ hc⟩
    · obtain ⟨p, hp⟩ := ih (o + size) h
      exact ⟨p, fun c hc => List.mem_append_right _ (hp c hc)⟩

theorem length_repeatChecks (seen l : List Nat) : (repeatChecks seen l).length = l.length := by
  induction l generalizing seen with
  | nil => rfl
  | cons a l ih => simp [repeatChecks, ih]

/-- Where no value repeats an earlier one, all are distinct. -/
theorem repeatChecks_nodup (seen l : List Nat) (h : ∀ b ∈ repeatChecks seen l, b = false) :
    l.Nodup ∧ ∀ v ∈ l, v ∉ seen := by
  induction l generalizing seen with
  | nil => exact ⟨List.nodup_nil, fun v hv => by cases hv⟩
  | cons a l ih =>
    have h1 := h _ (List.mem_cons_self)
    obtain ⟨n, m⟩ := ih (a :: seen) (fun b hb => h b (List.mem_cons_of_mem _ hb))
    refine ⟨List.nodup_cons.2 ⟨fun x => m a x List.mem_cons_self, n⟩, ?_⟩
    intro v hv
    rcases List.mem_cons.1 hv with rfl | hv
    · simpa using h1
    · exact fun x => m v hv (List.mem_cons_of_mem _ x)

/-- A list of records whose repeated keys are all examined and good has distinct keys. -/
theorem distinct_of_checks {α : Type} (key : α → Nat) (checks : α × Bool → Nat → List FieldCheck) (size o : Nat) (l : List α)
    (first : ∀ x p, ∃ c ∈ checks x p, c.good = true → x.2 = false)
    (h : ∀ c ∈ recordChecks checks size (l.zip (repeatChecks [] (l.map key))) o, c.good = true) : (l.map key).Nodup := by
  refine (repeatChecks_nodup [] _ ?_).1
  intro b hb
  have e : (l.zip (repeatChecks [] (l.map key))).map Prod.snd = repeatChecks [] (l.map key) :=
    List.map_snd_zip (by rw [length_repeatChecks, List.length_map])
  rw [← e] at hb
  obtain ⟨x, hx, rfl⟩ := List.mem_map.1 hb
  obtain ⟨p, hp⟩ := mem_recordChecks checks size _ o hx
  obtain ⟨c, hc, good⟩ := first x p
  exact good (h c (hp c hc))

/-! ## The track tables -/

theorem mem_insertSegment (g : Segment) (l : List Segment) (x : Segment) : x ∈ insertSegment g l ↔ x = g ∨ x ∈ l := by
  induction l with
  | nil => simp [insertSegment]
  | cons a l ih =>
    simp only [insertSegment]
    split
    · simp
    · simp only [List.mem_cons, ih]
      tauto

theorem insertSegment_sorted (g : Segment) (l : List Segment) (h : l.Pairwise (fun a b => a.start ≤ b.start)) :
    (insertSegment g l).Pairwise (fun a b => a.start ≤ b.start) := by
  induction l with
  | nil => exact List.pairwise_singleton _ _
  | cons a l ih =>
    obtain ⟨h1, h2⟩ := List.pairwise_cons.1 h
    simp only [insertSegment]
    split
    · rename_i lt
      refine List.pairwise_cons.2 ⟨?_, h⟩
      intro x hx
      rcases List.mem_cons.1 hx with rfl | hx
      · omega
      · have := h1 x hx; omega
    · refine List.pairwise_cons.2 ⟨?_, ih h2⟩
      intro x hx
      rcases (mem_insertSegment g l x).1 hx with rfl | hx
      · omega
      · exact h1 x hx

theorem length_insertSegment (g : Segment) (l : List Segment) : (insertSegment g l).length = l.length + 1 := by
  induction l with
  | nil => rfl
  | cons a l ih =>
    simp only [insertSegment]
    split
    · rfl
    · simp [ih]

/-- The stored segments stand in ascending order of start, as many as were carried (R5). -/
theorem sortSegments_spec (l : List Segment) :
    (sortSegments l).Pairwise (fun a b => a.start ≤ b.start) ∧ (sortSegments l).length = l.length := by
  unfold sortSegments
  suffices ∀ acc : List Segment, acc.Pairwise (fun a b => a.start ≤ b.start) →
      (l.foldl (fun acc g => insertSegment g acc) acc).Pairwise (fun a b => a.start ≤ b.start)
        ∧ (l.foldl (fun acc g => insertSegment g acc) acc).length = acc.length + l.length from by
    simpa using this [] List.Pairwise.nil
  induction l with
  | nil => exact fun acc h => ⟨h, rfl⟩
  | cons a l ih =>
    intro acc h
    obtain ⟨h1, h2⟩ := ih _ (insertSegment_sorted a acc h)
    refine ⟨h1, ?_⟩
    rw [List.foldl_cons, h2, length_insertSegment, List.length_cons]
    omega

theorem segmentsFault_none {l : List SegmentFields} (h : segmentsFault l = none) : l.length ≤ 32 :=
  (range_good (firstFault_none.1 h _ List.mem_cons_self)).2

theorem stopsFault_none {l : List StopFields} (h : stopsFault l = none) :
    l.length ≤ 6 ∧ ((l.map stopOf).map StopRec.index).Nodup := by
  have g := firstFault_none.1 h
  refine ⟨(range_good (g _ List.mem_cons_self)).2, ?_⟩
  rw [List.map_map]
  refine distinct_of_checks StopFields.index stopChecks 11 1 l ?_ (fun c hc => g c (List.mem_cons_of_mem _ hc))
  exact fun x p => ⟨_, List.mem_append_left _ (List.mem_append_left _ List.mem_cons_self), fun e => by simp_all⟩

theorem markersFault_none {l : List MarkerFields} (h : markersFault l = none) :
    l.length ≤ 16 ∧ ((l.map markerOf).map Marker.id).Nodup := by
  have g := firstFault_none.1 h
  refine ⟨(range_good (g _ List.mem_cons_self)).2, ?_⟩
  rw [List.map_map]
  refine distinct_of_checks MarkerFields.id markerChecks 6 1 l ?_ (fun c hc => g c (List.mem_cons_of_mem _ hc))
  exact fun x p => ⟨_, List.mem_cons_self, fun e => by simp_all⟩

/-! ## The gate list -/

theorem gatesFault_none {l : List GateFields} (h : gatesFault l = none) :
    l.length ≤ 16 ∧ (l.map GateFields.address).Nodup := by
  have g := firstFault_none.1 h
  refine ⟨(range_good (g _ List.mem_cons_self)).2, ?_⟩
  refine distinct_of_checks GateFields.address gateChecks 2 1 l ?_ (fun c hc => g c (List.mem_cons_of_mem _ hc))
  exact fun x p => ⟨_, List.mem_cons_self, fun e => by simp_all⟩

theorem mem_insertGate (g : GateRec) (l : List GateRec) (x : GateRec) : x ∈ insertGate g l ↔ x = g ∨ x ∈ l := by
  induction l with
  | nil => simp [insertGate]
  | cons a l ih =>
    simp only [insertGate]
    split
    · simp
    · simp only [List.mem_cons, ih]
      tauto

theorem insertGate_rising (g : GateRec) (l : List GateRec) (h : (l.map GateRec.address).Pairwise (· < ·))
    (n : ∀ x ∈ l, x.address ≠ g.address) : ((insertGate g l).map GateRec.address).Pairwise (· < ·) := by
  rw [List.pairwise_map] at h ⊢
  induction l with
  | nil => exact List.pairwise_singleton _ _
  | cons a l ih =>
    obtain ⟨h1, h2⟩ := List.pairwise_cons.1 h
    simp only [insertGate]
    split
    · rename_i lt
      refine List.pairwise_cons.2 ⟨?_, h⟩
      intro x hx
      rcases List.mem_cons.1 hx with rfl | hx
      · exact lt
      · have := h1 x hx; omega
    · refine List.pairwise_cons.2 ⟨?_, ih h2 (fun x hx => n x (List.mem_cons_of_mem _ hx))⟩
      intro x hx
      rcases (mem_insertGate g l x).1 hx with rfl | hx
      · have := n a List.mem_cons_self; omega
      · exact h1 x hx

/-- Fresh gate records of distinct addresses stand in rising order (R142). -/
theorem freshGates_rising (l : List GateFields) (h : (l.map GateFields.address).Nodup) :
    ((freshGates l).map GateRec.address).Pairwise (· < ·) := by
  unfold freshGates
  suffices ∀ acc : List GateRec, (acc.map GateRec.address).Pairwise (· < ·) →
      (∀ x ∈ acc, ∀ r ∈ l, x.address ≠ r.address) →
      ((l.foldl (fun acc r => match groupOf? r.group with
        | some g => insertGate (.fresh r.address g) acc
        | none => acc) acc).map GateRec.address).Pairwise (· < ·) from
    this [] List.Pairwise.nil (fun x hx => by cases hx)
  induction l with
  | nil => exact fun acc h _ => h
  | cons a l ih =>
    obtain ⟨h1, h2⟩ := List.nodup_cons.1 (by simpa using h : (a.address :: l.map GateFields.address).Nodup)
    intro acc ha hn
    have hl : ∀ r ∈ l, r.address ≠ a.address := fun r hr e => h1 (by rw [← e]; exact List.mem_map_of_mem hr)
    rw [List.foldl_cons]
    apply ih h2
    · split
      · exact insertGate_rising _ _ ha (fun x hx => hn x hx a List.mem_cons_self)
      · exact ha
    · intro x hx r hr
      split at hx
      · rcases (mem_insertGate _ _ _).1 hx with rfl | hx
        · exact fun e => hl r hr e.symm
        · exact hn x hx r (List.mem_cons_of_mem _ hr)
      · exact hn x hx r (List.mem_cons_of_mem _ hr)

/-! ## The trip plan -/

theorem planChecks_chain (stops : List StopRec) (prev : Option Nat) (l : List Nat) (o : Nat)
    (h : ∀ c ∈ planChecks stops prev l o, c.good = true) : l.IsChain (· ≠ ·) ∧ ∀ i ∈ l.head?, prev ≠ some i := by
  induction l generalizing prev o with
  | nil => exact ⟨List.IsChain.nil, fun i hi => by cases hi⟩
  | cons a l ih =>
    have h1 := h _ List.mem_cons_self
    obtain ⟨c, n⟩ := ih (some a) (o + 1) (fun x hx => h x (List.mem_cons_of_mem _ hx))
    have h2 : prev ≠ some a := by
      simp only [Bool.and_eq_true, bne_iff_ne] at h1
      exact h1.2
    refine ⟨?_, fun i hi => by simp only [List.head?_cons, Option.mem_some_iff] at hi; exact hi ▸ h2⟩
    refine List.isChain_cons.2 ⟨fun y hy e => ?_, c⟩
    exact n y hy (by rw [e])

theorem planFault_none {s : State} {l : List Nat} (h : s.planFault l = none) :
    l.length ≤ Config.planPlaces ∧ l.IsChain (· ≠ ·) := by
  have g := firstFault_none.1 h
  exact ⟨(range_good (g _ List.mem_cons_self)).2, (planChecks_chain _ _ _ _ (fun c hc => g c (List.mem_cons_of_mem _ hc))).1⟩

/-! ## The TSR list -/

/-- The order of the TSR list (R64). -/
abbrev tsrBefore (y z : Tsr) : Prop := y.start < z.start ∨ (y.start = z.start ∧ y.id < z.id)

theorem mem_insertTsr (z : Tsr) (l : List Tsr) (x : Tsr) : x ∈ insertTsr z l ↔ x = z ∨ x ∈ l := by
  induction l with
  | nil => simp [insertTsr]
  | cons a l ih =>
    simp only [insertTsr]
    split
    · simp
    · simp only [List.mem_cons, ih]
      tauto

theorem length_insertTsr (z : Tsr) (l : List Tsr) : (insertTsr z l).length = l.length + 1 := by
  induction l with
  | nil => rfl
  | cons a l ih =>
    simp only [insertTsr]
    split
    · rfl
    · simp [ih]

theorem insertTsr_sorted (z : Tsr) (l : List Tsr) (h : l.Pairwise tsrBefore) (n : ∀ x ∈ l, x.id ≠ z.id) :
    (insertTsr z l).Pairwise tsrBefore := by
  induction l with
  | nil => exact List.pairwise_singleton _ _
  | cons a l ih =>
    obtain ⟨h1, h2⟩ := List.pairwise_cons.1 h
    simp only [insertTsr]
    split
    · rename_i lt
      refine List.pairwise_cons.2 ⟨?_, h⟩
      intro x hx
      rcases List.mem_cons.1 hx with rfl | hx
      · exact lt
      · have := h1 x hx
        simp only [tsrBefore] at this ⊢
        omega
    · refine List.pairwise_cons.2 ⟨?_, ih h2 (fun x hx => n x (List.mem_cons_of_mem _ hx))⟩
      intro x hx
      rcases (mem_insertTsr z l x).1 hx with rfl | hx
      · have := n a List.mem_cons_self
        simp only [tsrBefore]
        omega
      · exact h1 x hx

theorem insertTsr_ids (z : Tsr) (l : List Tsr) (h : (l.map Tsr.id).Nodup) (n : ∀ x ∈ l, x.id ≠ z.id) :
    ((insertTsr z l).map Tsr.id).Nodup := by
  induction l with
  | nil => simp [insertTsr]
  | cons a l ih =>
    obtain ⟨h1, h2⟩ := List.nodup_cons.1 (by simpa using h : (a.id :: l.map Tsr.id).Nodup)
    simp only [insertTsr]
    split
    · rw [List.map_cons]
      refine List.nodup_cons.2 ⟨?_, by simpa using h⟩
      intro m
      obtain ⟨x, hx, e⟩ := List.mem_map.1 m
      exact n x hx e
    · rw [List.map_cons]
      refine List.nodup_cons.2 ⟨?_, ih h2 (fun x hx => n x (List.mem_cons_of_mem _ hx))⟩
      intro m
      obtain ⟨x, hx, e⟩ := List.mem_map.1 m
      rcases (mem_insertTsr z l x).1 hx with rfl | hx
      · exact n a List.mem_cons_self e.symm
      · exact h1 (by rw [← e]; exact List.mem_map_of_mem hx)

theorem removeTsr_law (id : Nat) {l : List Tsr} (h : tsrLaw l) : tsrLaw (removeTsr id l) ∧ ∀ x ∈ removeTsr id l, x.id ≠ id := by
  obtain ⟨h1, h2, h3, h4⟩ := h
  refine ⟨⟨Nat.le_trans (List.length_filter_le _ _) h1, ?_, h3.filter _, fun z hz => h4 z (List.mem_of_mem_filter hz)⟩, ?_⟩
  · exact h2.sublist (List.Sublist.map _ (List.filter_sublist))
  · intro x hx
    have := (List.mem_filter.1 hx).2
    simpa using this

/-- A held id leaves at least one entry fewer when it is removed. -/
theorem length_removeTsr {id : Nat} {l : List Tsr} (h : l.any (fun t => t.id == id) = true) :
    (removeTsr id l).length < l.length := by
  unfold removeTsr
  apply List.length_filter_lt_length_iff_exists.2
  obtain ⟨x, hx, e⟩ := List.any_eq_true.1 h
  exact ⟨x, hx, by simpa using e⟩

/-- An accepted TSR_ADD keeps the law of the list (R64, R65). -/
theorem addTsr_law {l : List Tsr} (h : tsrLaw l) (z : Tsr) (hz : 1 ≤ z.id ∧ z.id ≤ 255 ∧ z.start < z.stop ∧ 100 ≤ z.speed)
    (room : l.any (fun t => t.id == z.id) = true ∨ l.length < Config.tsrPlaces) : tsrLaw (insertTsr z (removeTsr z.id l)) := by
  obtain ⟨⟨h1, h2, h3, h4⟩, n⟩ := removeTsr_law z.id h
  refine ⟨?_, insertTsr_ids z _ h2 n, insertTsr_sorted z _ h3 n, ?_⟩
  · rw [length_insertTsr]
    rcases room with r | r
    · have := length_removeTsr r
      have := h.1
      omega
    · have : (removeTsr z.id l).length ≤ l.length := List.length_filter_le _ _
      omega
  · intro x hx
    rcases (mem_insertTsr z _ x).1 hx with rfl | hx
    · exact hz
    · exact h4 x hx

end Sys2Proof.Machine
end

