-- ==== Sys2Proof/Laws/PassTable.lean ====
section
/-! SUPPORT. The Pass Table's operations keep its law (R126): insertion, the taking, the settlements, deletion, blocking and the
purge. -/

namespace Sys2Proof.Machine

/-- Rising ids. -/
abbrev rising (l : List PassEntry) : Prop := l.Pairwise (fun a b => a.id < b.id)

theorem mem_putEntry {e x : PassEntry} {l : List PassEntry} (h : x ∈ putEntry e l) : x = e ∨ x ∈ l := by
  induction l with
  | nil => simp only [putEntry, List.mem_singleton] at h; exact .inl h
  | cons a l ih =>
    simp only [putEntry] at h
    split at h
    · simpa using h
    · split at h
      · rcases List.mem_cons.1 h with h | h
        · exact .inl h
        · exact .inr (List.mem_cons_of_mem _ h)
      · rcases List.mem_cons.1 h with h | h
        · exact .inr (by rw [h]; exact List.mem_cons_self)
        · exact (ih h).imp_right (List.mem_cons_of_mem _)

theorem rising_putEntry (e : PassEntry) {l : List PassEntry} (h : rising l) : rising (putEntry e l) := by
  induction l with
  | nil => exact List.pairwise_singleton _ _
  | cons a l ih =>
    obtain ⟨h1, h2⟩ := List.pairwise_cons.1 h
    simp only [putEntry]
    split
    · rename_i lt
      refine List.pairwise_cons.2 ⟨?_, h⟩
      intro x hx
      rcases List.mem_cons.1 hx with rfl | hx
      · exact lt
      · exact Nat.lt_trans lt (h1 x hx)
    · split
      · rename_i eq
        exact List.pairwise_cons.2 ⟨fun x hx => by rw [eq]; exact h1 x hx, h2⟩
      · refine List.pairwise_cons.2 ⟨?_, ih h2⟩
        intro x hx
        rcases mem_putEntry hx with rfl | hx
        · omega
        · exact h1 x hx

theorem length_putEntry_le (e : PassEntry) (l : List PassEntry) : (putEntry e l).length ≤ l.length + 1 := by
  induction l with
  | nil => exact Nat.le_refl _
  | cons a l ih =>
    simp only [putEntry]
    split
    · exact Nat.le_refl _
    · split
      · simp
      · simpa using ih

theorem length_putEntry_held (e : PassEntry) {l : List PassEntry} (h : rising l) (m : ∃ x ∈ l, x.id = e.id) :
    (putEntry e l).length = l.length := by
  induction l with
  | nil => obtain ⟨x, hx, _⟩ := m; cases hx
  | cons a l ih =>
    obtain ⟨h1, h2⟩ := List.pairwise_cons.1 h
    obtain ⟨x, hx, e1⟩ := m
    simp only [putEntry]
    rcases List.mem_cons.1 hx with rfl | hx
    · rw [if_neg (by omega), if_pos e1.symm]; rfl
    · have := h1 x hx
      rw [if_neg (by omega), if_neg (by omega)]
      simp [ih h2 ⟨x, hx, e1⟩]

theorem find?_some {t : PassTable} {id : Nat} {e : PassEntry} (h : t.find? id = some e) : e ∈ t.entries ∧ e.id = id :=
  ⟨List.mem_of_find?_eq_some h, by simpa using List.find?_some h⟩

/-- A lawful entry put in the place of the one held under its id keeps the law. -/
theorem PassTable.put_law {t : PassTable} (l : t.law) (e : PassEntry) (he : e.law) (m : ∃ x ∈ t.entries, x.id = e.id) :
    (t.put e).law := by
  refine ⟨?_, rising_putEntry e l.2.1, ?_⟩
  · show (putEntry e t.entries).length ≤ _
    rw [length_putEntry_held e l.2.1 m]; exact l.1
  · intro x hx
    rcases mem_putEntry hx with rfl | hx
    · exact he
    · exact l.2.2 x hx

theorem PassTable.put_new_law {t : PassTable} (l : t.law) (e : PassEntry) (he : e.law)
    (r : t.entries.length < Config.passPlaces) : (t.put e).law := by
  refine ⟨Nat.le_trans (length_putEntry_le e t.entries) r, rising_putEntry e l.2.1, ?_⟩
  intro x hx
  rcases mem_putEntry hx with rfl | hx
  · exact he
  · exact l.2.2 x hx

theorem PassTable.remove_law {t : PassTable} (l : t.law) (id : Nat) : (t.remove id).law :=
  ⟨Nat.le_trans (List.length_filter_le _ _) l.1, l.2.1.filter _, fun x hx => l.2.2 x (List.mem_of_mem_filter hx)⟩

/-! ## Insertion (R128, R129) -/

/-- What the examination of an offered entry secures. -/
structure PassOffer.Good (o : PassOffer) : Prop where
  id : 1 ≤ o.id
  rides : ridesFit o.kind o.rides = true
  state : o.state = .consumed → o.kind.consumes = true

theorem offerOf_good {f : PassFields} {o : PassOffer} (h : offerOf f = .good o) : o.Good := by
  unfold offerOf at h
  by_cases h0 : f.id = 0
  · rw [if_pos h0] at h; cases h
  rw [if_neg h0] at h
  cases hk : passKindOf? f.kind with
  | none => rw [hk] at h; cases h
  | some kind =>
    rw [hk] at h; dsimp only at h
    cases hs : passStateOf? f.state with
    | none => rw [hs] at h; cases h
    | some state =>
      rw [hs] at h; dsimp only at h
      split at h
      · cases h
      rename_i c
      cases hr : optionalOf? f.ridesPresent f.rides with
      | none => rw [hr] at h; cases h
      | some rides =>
        rw [hr] at h; dsimp only at h
        split at h
        · cases h
        rename_i cr
        cases hv : optionalOf? f.fromPresent f.validFrom with
        | none => rw [hv] at h; cases h
        | some vf =>
          rw [hv] at h; dsimp only at h
          split at h
          · cases h
          cases ht : optionalOf? f.toPresent f.validTo with
          | none => rw [ht] at h; cases h
          | some vt =>
            rw [ht] at h; dsimp only at h
            split at h
            · cases h
            split at h
            · cases h
            injection h with h
            subst h
            refine ⟨Nat.pos_of_ne_zero h0, by simpa using cr, ?_⟩
            intro e
            cases hc : kind.consumes
            · exact absurd ⟨e, hc⟩ c
            · rfl

theorem newEntry_law {o : PassOffer} (g : o.Good) : (newEntry o).law := by
  refine ⟨g.id, ?_, by simp [newEntry], g.state, by simp [newEntry]⟩
  have := g.rides
  obtain ⟨id, kind, state, rides, vf, vt⟩ := o
  cases kind <;> cases rides <;> simp_all [PassEntry.ridesLaw, newEntry, ridesFit]

theorem replacingEntry_law {o : PassOffer} (g : o.Good) {old : PassEntry} (l : old.law) : (replacingEntry old o).law := by
  refine ⟨g.id, ?_, l.2.2.1, g.state, by simp [replacingEntry, newEntry]⟩
  have := g.rides
  obtain ⟨id, kind, state, rides, vf, vt⟩ := o
  cases kind <;> cases rides <;> simp_all [PassEntry.ridesLaw, replacingEntry, newEntry, ridesFit]
  omega

theorem PassTable.insert_law {t : PassTable} (l : t.law) {o : PassOffer} (g : o.Good) : (t.insert o).1.law := by
  unfold PassTable.insert
  split
  · rename_i old h
    obtain ⟨h1, h2⟩ := find?_some h
    exact PassTable.put_law l _ (replacingEntry_law g (l.2.2 _ h1)) ⟨old, h1, h2⟩
  · split
    · exact PassTable.put_new_law l _ (newEntry_law g) ‹_›
    · exact l

theorem insertAll_law (l : List PassFields) (i : Nat) (r : InsertRun) (h : r.table.law) : (insertAll l i r).table.law := by
  induction l generalizing i r with
  | nil => exact h
  | cons f l ih =>
    unfold insertAll
    split
    · exact h
    · rename_i o e
      have g := PassTable.insert_law h (offerOf_good e)
      split <;> rename_i e2
      · rw [e2] at g; exact ih _ _ g
      · rw [e2] at g; exact ih _ _ g
      · exact h
      · exact h

/-! ## Taking and settling (R136 to R140) -/

/-- A taking gives the put of the taken entry, with its kind and held; the entry is held and the taking is not declined. -/
theorem taking_cases {t : PassTable} {id k : Nat} {g : Group} {a : Taking} (h : t.taking id k g = .inl a) :
    ∃ e, t.declines id k = none ∧ t.find? id = some e ∧
      a = { table := t.put (t.takenEntry e k g), kind := (t.takenEntry e k g).kind, held := (t.takenEntry e k g).held } := by
  unfold PassTable.taking at h
  split at h
  · cases h
  · split at h
    · injection h with h
      exact ⟨_, ‹_›, ‹_›, h.symm⟩
    · cases h

theorem taking_law {t : PassTable} (l : t.law) {id k : Nat} {g : Group} {a : Taking} (h : t.taking id k g = .inl a) :
    a.table.law := by
  obtain ⟨e, d, f, rfl⟩ := taking_cases h
  obtain ⟨h1, h2⟩ := find?_some f
  obtain ⟨l1, l2, l3, l4, l5⟩ := l.2.2 e h1
  unfold PassTable.declines at d
  rw [f] at d
  dsimp only at d
  split at d
  · cases d
  rename_i c1
  split at d
  · cases d
  rename_i c2
  split at d
  · cases d
  rename_i c3
  split at d
  · cases d
  rename_i c4
  split at d
  · cases d
  rename_i c5
  refine PassTable.put_law l _ ?_ ⟨e, h1, ?_⟩
  · obtain ⟨id, kind, state, rides, loaded, vf, vt, last, prior, was, held, removal⟩ := e
    cases kind
    · exact ⟨l1, by cases rides <;> cases loaded <;> exact l2, by simp_all [PassTable.takenEntry], fun _ => rfl, fun r => absurd r c1⟩
    · refine ⟨l1, ?_, by simp_all [PassTable.takenEntry], l4, fun r => absurd r c1⟩
      have hk : k = 1 := by simpa [PassEntry.seats] using c5
      cases rides with
      | none => exact l2
      | some n =>
        cases loaded with
        | none => exact l2
        | some m =>
          have hn : n ≠ 0 := by
            rintro rfl
            simp [PassEntry.used] at c3
          have l2' : n + held ≤ m := by simpa [PassEntry.ridesLaw] using l2
          show decide (n - 1 + (held + k) ≤ m) = true
          rw [decide_eq_true_eq]
          omega
    · exact ⟨l1, by cases rides <;> cases loaded <;> exact l2, by simp_all [PassTable.takenEntry], l4, fun r => absurd r c1⟩
    · exact ⟨l1, by cases rides <;> cases loaded <;> exact l2, by simp_all [PassTable.takenEntry], l4, fun r => absurd r c1⟩
    · exact ⟨l1, by cases rides <;> cases loaded <;> exact l2, by simp_all [PassTable.takenEntry], fun _ => rfl, fun r => absurd r c1⟩
  · obtain ⟨id, kind, state, rides, loaded, vf, vt, last, prior, was, held, removal⟩ := e
    cases kind <;> rfl

theorem take_law {t u : PassTable} (l : t.law) {id k : Nat} {g : Group} (h : t.take id k g = .inl u) : u.law := by
  unfold PassTable.take at h
  split at h
  · injection h with h
    exact h ▸ taking_law l ‹_›
  · cases h

/-- A lawful entry without its removal mark's condition, settled. -/
theorem settled_law {t : PassTable} (l : t.law) (e : PassEntry) (m : ∃ x ∈ t.entries, x.id = e.id)
    (h : 1 ≤ e.id ∧ e.ridesLaw = true ∧ e.held ≤ 12 ∧ (e.state = .consumed → e.kind.consumes = true)) : (t.settled e).law := by
  unfold PassTable.settled
  split
  · split
    · exact PassTable.remove_law l _
    · rename_i c
      exact PassTable.put_law l _ ⟨h.1, h.2.1, h.2.2.1, h.2.2.2, fun r => absurd r c⟩ m
  · rename_i c
    exact PassTable.put_law l _ ⟨h.1, h.2.1, h.2.2.1, h.2.2.2, fun _ => c⟩ m

/-- Fewer persons held keep the rides law. -/
theorem ridesLaw_fewer {e : PassEntry} (h : e.ridesLaw = true) {n : Nat} (le : n ≤ e.held) :
    PassEntry.ridesLaw { e with held := n } = true := by
  obtain ⟨id, kind, state, rides, loaded, vf, vt, last, prior, was, held, removal⟩ := e
  cases kind <;> cases rides <;> cases loaded <;> simp_all [PassEntry.ridesLaw]
  omega

theorem PassTable.passage_law {t : PassTable} (l : t.law) (id : Nat) : (t.passage id).law := by
  unfold PassTable.passage
  split
  · exact l
  · rename_i e f
    obtain ⟨h1, h2⟩ := find?_some f
    obtain ⟨l1, l2, l3, l4, l5⟩ := l.2.2 e h1
    split
    · exact l
    · exact settled_law l _ ⟨e, h1, rfl⟩ ⟨l1, ridesLaw_fewer l2 (Nat.sub_le _ _), by show e.held - 1 ≤ 12; omega, l4⟩

theorem PassTable.release_law {t : PassTable} (l : t.law) (id r : Nat) : (t.release id r).law := by
  unfold PassTable.release
  split
  · exact l
  · rename_i e f
    obtain ⟨h1, h2⟩ := find?_some f
    obtain ⟨l1, l2, l3, l4, l5⟩ := l.2.2 e h1
    exact settled_law l _ ⟨e, h1, rfl⟩ ⟨l1, ridesLaw_fewer l2 (Nat.sub_le _ _), by show e.held - r ≤ 12; omega, l4⟩

theorem refund_keeps {e : PassEntry} {g : Group}
    (h : 1 ≤ e.id ∧ e.ridesLaw = true ∧ e.held ≤ 12 ∧ (e.state = .consumed → e.kind.consumes = true)) :
    (refund e g).id = e.id ∧ 1 ≤ (refund e g).id ∧ (refund e g).ridesLaw = true ∧ (refund e g).held ≤ 12
      ∧ ((refund e g).state = .consumed → (refund e g).kind.consumes = true) := by
  obtain ⟨id, kind, state, rides, loaded, vf, vt, last, prior, was, held, removal⟩ := e
  obtain ⟨h1, h2, h3, h4⟩ := h
  cases kind
  · cases state <;> exact ⟨rfl, h1, h2, h3, fun _ => rfl⟩
  · refine ⟨rfl, h1, ?_, h3, h4⟩
    cases rides with
    | none => exact h2
    | some n =>
      cases loaded with
      | none => exact h2
      | some m =>
        have h2' : n + held ≤ m := by simpa [PassEntry.ridesLaw] using h2
        show decide ((if n + 1 + held ≤ m then n + 1 else n) + held ≤ m) = true
        rw [decide_eq_true_eq]
        split <;> omega
  · simp only [refund]
    split <;> exact ⟨rfl, h1, h2, h3, h4⟩
  · exact ⟨rfl, h1, h2, h3, h4⟩
  · cases state <;> exact ⟨rfl, h1, h2, h3, fun _ => rfl⟩

theorem PassTable.abandon_law {t : PassTable} (l : t.law) (id r : Nat) (whole : Bool) (g : Group) :
    (t.abandon id r whole g).law := by
  unfold PassTable.abandon
  split
  · exact l
  · rename_i e f
    obtain ⟨h1, h2⟩ := find?_some f
    obtain ⟨l1, l2, l3, l4, l5⟩ := l.2.2 e h1
    have b : 1 ≤ e.id ∧ PassEntry.ridesLaw { e with held := e.held - r } = true ∧ e.held - r ≤ 12
        ∧ (e.state = .consumed → e.kind.consumes = true) :=
      ⟨l1, ridesLaw_fewer l2 (Nat.sub_le _ _), by omega, l4⟩
    dsimp only
    split
    · obtain ⟨r1, r2⟩ := refund_keeps (e := { e with held := e.held - r }) (g := g) b
      exact settled_law l _ ⟨e, h1, r1.symm⟩ r2
    · exact settled_law l _ ⟨e, h1, rfl⟩ b

/-! ## Deletion, blocking and the day (R130, R131, R133, R134) -/

theorem deleteOne_law (id : Nat) (r : DeleteRun) (h : r.table.law) : (deleteOne id r).table.law := by
  unfold deleteOne
  split
  · exact h
  · rename_i e f
    obtain ⟨h1, h2⟩ := find?_some f
    obtain ⟨l1, l2, l3, l4, l5⟩ := h.2.2 e h1
    split
    · exact PassTable.remove_law h _
    · rename_i c
      exact PassTable.put_law h _ ⟨l1, l2, l3, l4, fun _ => c⟩ ⟨e, h1, rfl⟩

theorem deleteRun_law (ids : List Nat) (t : PassTable) (h : t.law) : (deleteRun ids t).table.law := by
  unfold deleteRun
  suffices ∀ r : DeleteRun, r.table.law → (ids.foldl (fun r id => deleteOne id r) r).table.law from this _ h
  induction ids with
  | nil => exact fun r h => h
  | cons a l ih => exact fun r h => ih _ (deleteOne_law a r h)

/-- An operation on entries that keeps the law and the id of each. -/
def KeepsEntry (f : PassEntry → Option PassEntry) : Prop := ∀ e e', e.law → f e = some e' → e'.law ∧ e'.id = e.id

theorem blockEntry_keeps : KeepsEntry blockEntry := by
  intro e e' l h
  obtain ⟨l1, l2, l3, l4, l5⟩ := l
  unfold blockEntry at h
  split at h <;> first | (injection h with h; subst h; exact ⟨⟨l1, l2, l3, by simp, l5⟩, rfl⟩) | cases h

theorem unblockEntry_keeps : KeepsEntry unblockEntry := by
  intro e e' l h
  obtain ⟨l1, l2, l3, l4, l5⟩ := l
  unfold unblockEntry at h
  split at h
  · injection h with h
    subst h
    refine ⟨⟨l1, l2, l3, ?_, l5⟩, rfl⟩
    dsimp only
    intro c
    split at c
    · rename_i d
      simp only [Bool.and_eq_true] at d
      exact d.1
    · cases c
  · cases h
  · cases h

theorem blockOne_law {f : PassEntry → Option PassEntry} (k : KeepsEntry f) (id : Nat) (r : BlockRun) (h : r.table.law) :
    (blockOne f id r).table.law := by
  unfold blockOne
  split
  · exact h
  · rename_i e w
    obtain ⟨h1, h2⟩ := find?_some w
    split
    · rename_i e' fe
      obtain ⟨k1, k2⟩ := k e e' (h.2.2 e h1) fe
      exact PassTable.put_law h _ k1 ⟨e, h1, k2.symm⟩
    · exact h

theorem blockRun_law {f : PassEntry → Option PassEntry} (k : KeepsEntry f) (ids : List Nat) (t : PassTable) (h : t.law) :
    (blockRun f ids t).table.law := by
  unfold blockRun
  suffices ∀ r : BlockRun, r.table.law → (ids.foldl (fun r id => blockOne f id r) r).table.law from this _ h
  induction ids with
  | nil => exact fun r h => h
  | cons a l ih => exact fun r h => ih _ (blockOne_law k a r h)

theorem PassTable.tick_law {t : PassTable} (l : t.law) : t.tick.law := l

theorem PassTable.forward_law {t : PassTable} (l : t.law) (d : Nat) : (t.forward d).law := by
  refine ⟨?_, ?_, ?_⟩
  · show (purgeEntries d t.entries).length ≤ _
    unfold purgeEntries
    rw [List.length_map]
    exact Nat.le_trans (List.length_filter_le _ _) l.1
  · show rising (purgeEntries d t.entries)
    unfold purgeEntries rising
    rw [List.pairwise_map]
    refine (l.2.1.filter _).imp ?_
    intro a b h
    split <;> split <;> exact h
  · intro e he
    change e ∈ purgeEntries d t.entries at he
    unfold purgeEntries at he
    obtain ⟨x, hx, rfl⟩ := List.mem_map.1 he
    obtain ⟨m, c⟩ := List.mem_filter.1 hx
    obtain ⟨l1, l2, l3, l4, l5⟩ := l.2.2 x m
    split
    · rename_i p
      refine ⟨l1, l2, l3, l4, fun _ z => ?_⟩
      have z' : x.held = 0 := z
      rw [p, z'] at c
      exact absurd c (by decide)
    · exact ⟨l1, l2, l3, l4, l5⟩

end Sys2Proof.Machine
end

