-- ==== Sys2Proof/Laws/RunOps.lean ====
section
/-! SUPPORT. The shared operations as runs: brakes, doors, cars, gates, windows, reports and health counters. -/

namespace Sys2Proof.Machine

/-- A composition of runs written from the left. -/
theorem Run.andThen {s t u : State} (h : Run s t) (g : Run t u) : Run s u := .trans h g

/-- A choice between two runs. -/
theorem Run.ite {s t u : State} {c : Bool} (h : c = true → Run s t) (g : c = false → Run s u) :
    Run s (if c = true then t else u) := by
  cases c
  · exact g rfl
  · exact h rfl

/-- A run for each element of a list. -/
theorem Run.forEach {α : Type} (l : List α) (f : α → State → State) (h : ∀ a s, Run s (f a s)) (s : State) :
    Run s (forEach l f s) := by
  unfold Machine.forEach
  induction l generalizing s with
  | nil => exact .refl s
  | cons a l ih => exact .trans (h a s) (ih _)

/-- A run repeated. -/
theorem Run.repeatN (n : Nat) (f : State → State) (h : ∀ s, Run s (f s)) (s : State) : Run s (repeatN n f s) := by
  induction n generalizing s with
  | zero => exact .refl s
  | succ n ih => exact .trans (h s) (ih _)

/-! ## One block at a time -/

/-- A change of the Haulage Controller that leaves state, reference, ramp, berth record and plan. -/
theorem Run.haulRest (s : State) (h : Haulage) (h1 : h.state = s.hac.state) (h2 : h.vRef = s.hac.vRef)
    (h3 : h.ramp = s.hac.ramp) (h4 : h.berth = s.hac.berth) (h5 : s.hac.planLaw → h.planLaw) : Run s { s with hac := h } :=
  .haul s h s.osp (by intro l; simpa only [State.haulageLaw, h1, h2, h3, h4, State.allSecured, State.side] using l) h5 id

/-- A change of the Haulage Controller with its law. -/
theorem Run.haulLaw (s : State) (h : Haulage) (l : s.haulageLaw → State.haulageLaw { s with hac := h })
    (p : h.plan = s.hac.plan) : Run s { s with hac := h } :=
  .haul s h s.osp l (by intro q; simpa only [Haulage.planLaw, p] using q) id

/-- A change of the supervisor that does not lower v_perm and keeps the TSR list. -/
theorem Run.supervisor (s : State) (o : Supervisor) (h : s.osp.vPerm ≤ o.vPerm) (t : o.tsrs = s.osp.tsrs) :
    Run s { s with osp := o } :=
  .haul s s.hac o (fun l => ⟨l.1, l.2.1, Nat.le_trans l.2.2.1 h, l.2.2.2⟩) id (by rw [t]; exact id)

/-- A change of the Brake Sequencer that keeps both commands and does not set the latch. -/
theorem Run.brakesRest (s : State) (b : Brakes) (h1 : b.recs.sb.cmd = s.bsq.recs.sb.cmd)
    (h2 : b.recs.eb.cmd = s.bsq.recs.eb.cmd) (h3 : b.latch = s.bsq.latch ∨ b.latch = none) : Run s { s with bsq := b } := by
  refine .brakes s b ?_ ?_
  · intro l h; exact l (by rw [← h]; exact h1.symm)
  · intro l h
    show b.recs.eb.cmd = .apply
    rw [h2]
    cases h3 with
    | inl h3 => exact l (by rw [← h3]; exact h)
    | inr h3 => exact absurd (show b.latch.isSome = true from h) (by rw [h3]; decide)

/-- A brake record whose command stays. -/
theorem Run.setBrake (s : State) (b : BrakeId) (r : BrakeRec) (h : r.cmd = (s.brake b).cmd) : Run s (s.setBrake b r) := by
  cases b
  · exact .brakesRest s _ h rfl (.inl rfl)
  · exact .brakesRest s _ rfl h (.inl rfl)

/-- A brake record commanded APPLY. -/
theorem Run.setBrakeApply (s : State) (b : BrakeId) (r : BrakeRec) (h : r.cmd = .apply) : Run s (s.setBrake b r) := by
  cases b
  · refine .brakes s _ ?_ id
    intro _ h'
    have : BrakeCmd.apply = .release := h ▸ h'
    cases this
  · exact .brakes s _ id (fun _ _ => h)

/-- A change of the car links that keeps every freshness and the route. -/
theorem Run.carsRest (s : State) (c : CarLinks) (ha : c.recs.a.freshness = s.clu.recs.a.freshness)
    (hb : c.recs.b.freshness = s.clu.recs.b.freshness) (hr : c.route = s.clu.route) : Run s { s with clu := c } := by
  refine .cars s c ?_ (by rw [hr]; exact id)
  intro l h
  have := l h
  simpa only [State.interlockHolds, State.allSecured, State.side, State.bothFresh, State.isFresh, State.car, PerCar.get, ha, hb]
    using this

/-- A car record that keeps its freshness. -/
theorem Run.setCar (s : State) (c : Car) (r : CarRec) (h : r.freshness = (s.car c).freshness) : Run s (s.setCar c r) := by
  cases c
  · exact .carsRest s _ h rfl rfl
  · exact .carsRest s _ rfl h rfl

/-- The states of all door sides stand as they were. -/
theorem allSecured_congr {s t : State} (h : ∀ c d, (t.side c d).state = (s.side c d).state) : t.allSecured = s.allSecured := by
  simp only [State.allSecured, bothCars, bothSides, List.all_cons, List.all_nil, h]

/-- A change of the Door Release Unit that keeps the state of every side. -/
theorem Run.doorsRest (s : State) (d : Doors) (h : ∀ c x, ((d.sides.get c).get x).state = (s.side c x).state) :
    Run s { s with dru := d } := by
  have e : State.allSecured { s with dru := d } = s.allSecured := allSecured_congr h
  refine .doors s d ?_ ?_
  · intro l hr
    have := l hr
    simp only [State.interlockHolds, State.bothFresh, State.isFresh, State.car] at this ⊢
    rw [e]; exact this
  · intro l
    exact ⟨l.1, fun hv => by rw [e]; exact l.2.1 hv, l.2.2⟩

/-- A door side that keeps its state. -/
theorem Run.setSide (s : State) (c : Car) (d : Side) (r : DoorSide) (h : r.state = (s.side c d).state) :
    Run s (s.setSide c d r) := by
  refine .doorsRest s _ ?_
  intro c' d'
  cases c <;> cases d <;> cases c' <;> cases d' <;> first | exact h | rfl

/-- A change of the gate loop that keeps the addresses of its gates and its cycle. -/
theorem Run.gatesRest (s : State) (l : GateLoop) (h : l.gates.map GateRec.address = s.glm.gates.map GateRec.address)
    (hc : l.cycle = s.glm.cycle) : Run s { s with glm := l } :=
  .gates s l (by intro q; simpa only [GateLoop.law, h, hc] using q)

/-- A gate record replaced in its place. -/
theorem Run.setGate (s : State) (g : GateRec) : Run s (s.setGate g) := by
  refine .gatesRest s _ ?_ rfl
  show (s.glm.gates.map _).map _ = _
  rw [List.map_map]
  apply List.map_congr_left
  intro h _
  by_cases e : h.address = g.address
  · simp [e]
  · simp [e]

/-- A gate record changed in its place. -/
theorem Run.onGate (a : Nat) (f : GateRec → GateRec) (s : State) : Run s (onGate a f s) := by
  unfold Machine.onGate
  split
  · exact .setGate _ _
  · exact .refl _

/-- A tally with its law for its car. -/
theorem Run.setTally (s : State) (c : Car) (t : Tally)
    (h : (s.tallyOf c).aboardMin ≤ (s.tallyOf c).aboardMax → t.aboardMin ≤ t.aboardMax) : Run s (s.setTally c t) := by
  refine .tally s _ ?_
  cases c
  · exact fun l => ⟨h l.1, l.2⟩
  · exact fun l => ⟨l.1, h l.2⟩

/-- The mode, its variant and target and the health counters stand; the warming timer is not started. -/
theorem Run.modeRest (s : State) (l : LineMode) (h1 : l.mode = s.lmu.mode) (h2 : l.variant = s.lmu.variant)
    (h3 : l.target = s.lmu.target) (h4 : l.warmTimer = s.lmu.warmTimer ∨ l.warmTimer = none)
    (h5 : l.health = s.lmu.health) : Run s { s with lmu := l } := by
  refine .mode s l ?_ ?_ ?_
  · intro q
    refine ⟨by rw [h1, h2]; exact q.1, by rw [h1, h3]; exact q.2.1, ?_⟩
    rw [h1]
    cases h4 with
    | inl h => rw [h]; exact q.2.2
    | inr h => rw [h]; intro x; cases x
  · intro q m
    show l.health.forcing.any = false
    rw [h5]
    exact q (by rw [← h1]; exact m)
  · intro q
    exact ⟨q.1, q.2.1, q.2.2.1, q.2.2.2.1, fun m => q.2.2.2.2 (by rw [← h1]; exact m)⟩

/-! ## Windows -/

/-- A window takes a new record. -/
theorem Run.setWindow (g : Group) (w : Window) (cause : WindowCause) (s : State) : Run s (setWindow g w cause s) := by
  unfold Machine.setWindow
  dsimp only
  have h : Run s { s with glm := { s.glm with
      windows := s.glm.windows.set g w,
      gates := s.glm.gates.map fun h =>
        if h.group == g && w.state == .opened && h.state == .shut then { h with state := .ready }
        else if h.group == g && w.state != .opened && h.state == .ready then { h with state := .shut }
        else h } } := by
    refine .gatesRest s _ ?_ rfl
    show (s.glm.gates.map _).map _ = _
    rw [List.map_map]
    apply List.map_congr_left
    intro h _
    simp only [Function.comp_apply]
    split
    · rfl
    · split <;> rfl
  split
  · exact h
  · exact .trans h (.post _ _)

theorem Run.shutSealedWindows (s : State) : Run s (shutSealedWindows s) := by
  unfold Machine.shutSealedWindows
  apply Run.forEach
  intro g t
  split
  · exact .setWindow _ _ _ _
  · exact .refl _

end Sys2Proof.Machine
end

