-- ==== Sys2Proof/Laws/RunHand.lean ====
section
/-! SUPPORT. Hand-overs as runs: what is asked of a change of mode, what a hand-over gives, and the operations of the Haulage
Controller, the Position Tracker's reports and the health counters. -/

namespace Sys2Proof.Machine

/-- A change of mode fits the state it is made in: variant and target as the mode asks, no forcing counter over threshold for
SERVICE, and HELD for the modes that ask for it. -/
structure ModeEntry.Fits (e : ModeEntry) (s : State) : Prop where
  variant : e.variant.isSome = true ↔ e.mode = .parked
  target : e.target.isSome = true ↔ e.mode = .warming
  forced : e.mode = .service → s.lmu.health.forcing.any = false
  held : e.mode = .init ∨ e.mode = .parked ∨ e.mode = .warming → s.haulageLaw → s.hac.state = .held
  before : e.mode = .warming → s.lmu.mode = .init ∨ s.lmu.mode = .parked

/-- What is asked of a hand-over: only a change of mode asks for something. -/
def Act.Fits : Act → State → Prop
  | .changeMode e _ _, s => e.Fits s
  | _, _ => True

/-- What a way of reaching the other blocks gives. -/
structure Drives (k : Hand) : Prop where
  run : ∀ a s, a.Fits s → Run s (k a s)
  lock : ∀ s, (k .interlock s).interlocked ∨ (k .interlock s).overrun = true
  apply : ∀ s, (k (.command .sb .apply) s).interlocked ∨ (k (.command .sb .apply) s).overrun = true
  force : ∀ e c u s, e.mode ≠ .service → e.Fits s →
    (k (.changeMode e c u) s).unforced ∨ (k (.changeMode e c u) s).overrun = true

/-- Holding the close orders back gives nothing that k does not give. -/
theorem Drives.withoutClose {k : Hand} (hk : Drives k) : Drives (withoutClose k) := by
  refine ⟨fun a s h => ?_, hk.lock, hk.apply, hk.force⟩
  cases a
  case closeSide => exact .refl _
  all_goals exact hk.run _ s h

theorem Drives.stop {k : Hand} (hk : Drives k) (kind : StopKind) (c : StopCause) (s : State) :
    Run s (k (.orderStop kind c) s) := hk.run (.orderStop kind c) s trivial

theorem Drives.command {k : Hand} (hk : Drives k) (b : BrakeId) (c : BrakeCmd) (s : State) : Run s (k (.command b c) s) :=
  hk.run (.command b c) s trivial

theorem Drives.brakes {k : Hand} (hk : Drives k) (s : State) : Run s (k .brakesChanged s) := hk.run .brakesChanged s trivial

theorem Drives.settle {k : Hand} (hk : Drives k) (s : State) : Run s (k .settle s) := hk.run .settle s trivial

theorem Drives.interlock {k : Hand} (hk : Drives k) (s : State) : Run s (k .interlock s) := hk.run .interlock s trivial

theorem Drives.abort {k : Hand} (hk : Drives k) (c : AbortCause) (s : State) : Run s (k (.abortTest c) s) :=
  hk.run (.abortTest c) s trivial

theorem Drives.side {k : Hand} (hk : Drives k) (c : Car) (d : Side) (r : DoorSide) (e : DoorEvent) (x : Option DoorCause)
    (s : State) : Run s (k (.sideTo c d r e x) s) := hk.run (.sideTo c d r e x) s trivial

theorem Drives.close {k : Hand} (hk : Drives k) (c : Car) (d : Side) (s : State) : Run s (k (.closeSide c d) s) :=
  hk.run (.closeSide c d) s trivial

theorem Drives.seal {k : Hand} (hk : Drives k) (g : Group) (c : WindowCause) (s : State) : Run s (k (.sealWindow g c) s) :=
  hk.run (.sealWindow g c) s trivial

theorem Drives.mode {k : Hand} (hk : Drives k) (e : ModeEntry) (c : ModeCause) (u : Option WarmUnmet) (s : State)
    (h : e.Fits s) : Run s (k (.changeMode e c u) s) := hk.run (.changeMode e c u) s h

theorem Drives.freshness {k : Hand} (hk : Drives k) (c : Car) (f : Freshness) (s : State) : Run s (k (.freshness c f) s) :=
  hk.run (.freshness c f) s trivial

/-- An entry into a mode without variant, target or condition. -/
theorem ModeEntry.plain_fits (m : Mode) (s : State) (h : m = .reduced ∨ m = .maintenance ∨ m = .tripped) :
    (ModeEntry.plain m).Fits s := by
  rcases h with rfl | rfl | rfl <;>
    exact ⟨by simp [ModeEntry.plain], by simp [ModeEntry.plain], by simp [ModeEntry.plain], by simp [ModeEntry.plain],
      by simp [ModeEntry.plain]⟩

/-! ## Health counters -/

/-- A health counter of a class that forces nothing leaves the forcing set. -/
theorem forcing_set (h : Health) (n : CounterName) (c : Counter) (f : n.forces = false) : (h.set n c).forcing = h.forcing := by
  cases n <;> first | rfl | cases f

/-- A health counter that does not go over threshold adds nothing to the forcing set. -/
theorem forcing_any_set (h : Health) (n : CounterName) (c : Counter) (o : c.isOver = true → (h.get n).isOver = true) :
    h.forcing.any = false → (h.set n c).forcing.any = false := by
  have key : ∀ x y z : Bool, (x || y || z) = false → x = false ∧ y = false ∧ z = false := by decide
  intro q
  obtain ⟨q1, q2, q3⟩ := key _ _ _ q
  have no : ∀ {b : Bool}, (h.get n).isOver = b → b = false → c.isOver = false := by
    intro b e1 e2
    cases e : c.isOver
    · rfl
    · rw [← e1, o e] at e2; exact e2
  cases n
  · have := no rfl q1; simp_all [Health.set, Health.forcing, OverSet.any]
  · have := no rfl q2; simp_all [Health.set, Health.forcing, OverSet.any]
  · have := no rfl q3; simp_all [Health.set, Health.forcing, OverSet.any]
  · exact q
  · exact q

/-- A counter that has just crossed: the report, and the forced change of mode where it is due. -/
def crossing (k : Hand) (n : CounterName) (c : Counter) (s : State) : State :=
  let forced := n.forces && s.lmu.mode == .service
  let s := post (.health { counter := n, isOver := true, count := c.count, exp := c.exp,
                           mode := if forced then .reduced else s.lmu.mode }) s
  if forced then k (.changeMode (.plain .reduced) .forced none) s else s

theorem crossing_run {k : Hand} (hk : Drives k) (n : CounterName) (c : Counter) (s : State) : Run s (crossing k n c s) := by
  unfold crossing
  dsimp only
  split
  · exact .trans (.post _ _) (hk.mode _ _ _ _ (ModeEntry.plain_fits _ _ (.inl rfl)))
  · exact .post _ _

/-- A crossing leaves a line that is forced out of SERVICE. -/
theorem crossing_unforced {k : Hand} (hk : Drives k) (n : CounterName) (c : Counter) (s : State)
    (h : n.forces = false → s.unforced) : (crossing k n c s).unforced ∨ (crossing k n c s).overrun = true := by
  unfold crossing
  dsimp only
  split
  · exact hk.force _ _ _ _ (by decide) (ModeEntry.plain_fits _ _ (.inl rfl))
  · rename_i f
    left
    rw [post_eq]
    intro m
    cases hn : n.forces
    · exact h hn m
    · rw [show s.lmu.mode = .service from m, hn] at f
      exact absurd rfl f

/-- A write of a health counter with its crossing. -/
theorem counter_run {k : Hand} (hk : Drives k) (n : CounterName) (c : Counter) (s t : State)
    (inner : Run { s with lmu := { s.lmu with health := s.lmu.health.set n c } } t)
    (h : t = crossing k n c { s with lmu := { s.lmu with health := s.lmu.health.set n c } } ∨
      (c.isOver = true → (s.lmu.health.get n).isOver = true)) : Run s t := by
  refine .health s t _ inner ?_
  intro l
  cases h with
  | inl h =>
    subst h
    apply crossing_unforced hk
    intro hn m
    show ((s.lmu.health.set n c).forcing).any = false
    rw [forcing_set _ _ _ hn]
    exact l m
  | inr h =>
    apply inner.unforced
    left
    intro m
    exact forcing_any_set _ _ _ h (l m)

theorem bumpHealth_run {k : Hand} (hk : Drives k) (n : CounterName) (amount : Nat) (s : State) :
    Run s (bumpHealth k n amount s) := by
  unfold bumpHealth
  dsimp only
  split
  · let c : Counter := { s.lmu.health.get n with count := satCount (s.lmu.health.get n).count amount }
    exact counter_run hk n c s _ (crossing_run hk n c { s with lmu := { s.lmu with health := s.lmu.health.set n c } })
      (.inl rfl)
  · rename_i h
    refine counter_run hk n _ s _ (.refl _) (.inr ?_)
    intro o
    cases e : (s.lmu.health.get n).isOver
    · rw [e, o] at h; exact absurd rfl h
    · rfl

/-! ## The Haulage Controller -/

theorem sendWord_run (s : State) : Run s (sendWord s) := .haulRest s _ rfl rfl rfl rfl id

theorem zeroReference_run (s : State) : Run s (zeroReference s) := by
  unfold zeroReference
  refine .trans (.haulLaw s { s.hac with vRef := 0 } ?_ rfl) (sendWord_run _)
  intro l
  exact ⟨fun h => ⟨rfl, (l.1 h).2⟩, fun h => absurd rfl h, Nat.zero_le _, l.2.2.2⟩

/-- A mode in which the cars may move is none of INIT, PARKED and WARMING. -/
theorem runs_not {m : Mode} (h : m.runs = true) : ¬(m = .init ∨ m = .parked ∨ m = .warming) := by
  rintro (rfl | rfl | rfl) <;> cases h

/-- A change of haulage state under its law. -/
theorem setHaulage_run (new : HState) (s : State)
    (h : s.haulageLaw → (new.drives = false → s.hac.vRef = 0 ∧ s.hac.ramp = false) ∧ (new ≠ .held → s.hac.berth = .offStop)
      ∧ (new ≠ .held → s.hac.state ≠ .held ∨ s.lmu.mode.runs = true)) : Run s (setHaulage new s) := by
  unfold setHaulage
  dsimp only
  split
  · exact .refl _
  · have a : Run s (supervisorOnHaulage s.hac.state new { s with hac := { s.hac with state := new } }) := by
      refine .haul s { s.hac with state := new } _ ?_ id id
      intro l
      obtain ⟨h1, h2, h3⟩ := h l
      refine ⟨h1, l.2.1, l.2.2.1, h2, ?_⟩
      intro m
      by_cases e : new = .held
      · exact e
      · exfalso
        have m' : s.lmu.mode = .init ∨ s.lmu.mode = .parked ∨ s.lmu.mode = .warming := m
        cases h3 e with
        | inl x => exact x (l.2.2.2.2 m')
        | inr x => exact runs_not x m'
    split
    · refine .trans a ?_
      generalize supervisorOnHaulage s.hac.state new { s with hac := { s.hac with state := new } } = t
      exact .trans (.doorsRest t { t.dru with cleared := ⟨false, false⟩ } (fun _ _ => rfl)) (.shutSealedWindows _)
    · exact a

theorem setBerth_run (b : Berth) (s : State) (h : s.haulageLaw → s.hac.state ≠ .held → b = .offStop) :
    Run s (setBerth b s) := by
  unfold setBerth
  split
  · exact .refl _
  · refine .trans (.haulLaw s { s.hac with berth := b } ?_ rfl) (.doorsRest _ _ (fun _ _ => rfl))
    intro l
    exact ⟨l.1, l.2.1, l.2.2.1, h l, l.2.2.2.2⟩

theorem enterStopping_run (s : State) (h : s.hac.state ≠ .held) : Run s (enterStopping s) := by
  unfold enterStopping
  refine .trans (.haulLaw s { s.hac with vRef := 0, ramp := false } ?_ rfl) (setHaulage_run _ _ ?_)
  · intro l
    exact ⟨fun _ => ⟨rfl, rfl⟩, fun h => absurd rfl h, Nat.zero_le _, l.2.2.2⟩
  · intro l
    exact ⟨fun _ => ⟨rfl, rfl⟩, fun _ => l.2.2.2.1 h, fun _ => .inl h⟩

theorem haulageOnStop_run (kind : StopKind) (s : State) : Run s (haulageOnStop kind s) := by
  have ramp : s.hac.state.drives = true → Run s { s with hac := { s.hac with ramp := true } } := fun d =>
    .haulLaw s { s.hac with ramp := true } (fun l => ⟨fun h => absurd (h.symm.trans d) (by decide), l.2⟩) rfl
  have stop : s.hac.state ≠ .held → Run s (sendWord (enterStopping s)) := fun h =>
    .trans (enterStopping_run s h) (sendWord_run _)
  unfold haulageOnStop
  cases kind <;> dsimp only <;> split <;> rename_i e <;>
    first
    | exact .refl _
    | exact stop (by rw [e]; decide)
    | exact enterStopping_run s (by rw [e]; decide)
    | (split
       · exact enterStopping_run s (by rw [e]; decide)
       · exact ramp (by rw [e]; rfl))

/-- The reference cut to a v_perm, its law holding of the state once cut. -/
theorem cutReference_run (v : Nat) (s : State) : Run s (cutReference v s) := by
  unfold cutReference
  split
  · rename_i lt
    have cut : Run s { s with hac := { s.hac with vRef := v } } := by
      refine .haulLaw s _ ?_ rfl
      intro l
      refine ⟨fun h => ?_, fun h => l.2.1 (by have := (show v ≠ 0 from h); omega), Nat.le_trans (Nat.le_of_lt lt) l.2.2.1,
        l.2.2.2⟩
      have := (l.1 h).1
      omega
    have sent : Run s (sendWord { s with hac := { s.hac with vRef := v } }) := .trans cut (sendWord_run _)
    dsimp only
    split
    · rename_i c
      refine .trans sent (enterStopping_run _ ?_)
      have m := (Bool.and_eq_true _ _ ▸ c : _ ∧ _).2
      intro e
      simp [State.moving, e] at m
    · exact sent
  · exact .refl _

/-- A reference that is 0 unless all sides are SECURED and never above v_perm, in a running state. -/
theorem setReference_run (v : Nat) (s : State) (d : s.hac.state.drives = true) (h1 : v ≠ 0 → s.allSecured = true)
    (h2 : v ≤ s.osp.vPerm) : Run s { s with hac := { s.hac with vRef := v } } :=
  .haulLaw s { s.hac with vRef := v } (fun l => ⟨fun h => absurd (h.symm.trans d) (by decide), h1, h2, l.2.2.2⟩) rfl

/-- A state that drives is not HELD. -/
theorem not_held_of_drives {h : HState} (d : h.drives = true) : h ≠ .held := by
  rintro rfl; cases d

theorem heldFromStopping_run (s : State) (h : s.hac.state = .stopping) : Run s (heldFromStopping s) := by
  unfold heldFromStopping
  dsimp only
  refine .trans (setHaulage_run .held s ?_) ?_
  · intro l
    exact ⟨fun _ => l.1 (by rw [h]; rfl), fun e => absurd rfl e, fun e => absurd rfl e⟩
  · generalize setHaulage .held s = t
    exact .trans (.haulRest t { t.hac with dest := none, legMark := false } rfl rfl rfl rfl id)
      (.trans (setBerth_run .offStop _ (fun _ _ => rfl)) (.post _ _))

/-- The plan without its head keeps its law. -/
theorem planLaw_tail (h : Haulage) (p : h.planLaw) : h.plan.tail.length ≤ Config.planPlaces ∧ h.plan.tail.IsChain (· ≠ ·) :=
  ⟨by have := p.1; rw [List.length_tail]; omega, p.2.tail⟩

theorem homedWhileHeld_run (target : Nat) (s : State) : Run s (homedWhileHeld target s) := by
  unfold homedWhileHeld
  split
  · rename_i h
    split
    · rename_i r _
      have b : Run s (setBerth (.at r) s) := setBerth_run _ s (fun _ e => absurd (by simpa [State.isHeld] using h) e)
      dsimp only
      split
      · refine .trans b ?_
        generalize setBerth (.at r) s = t
        exact .haulRest t { t.hac with plan := t.hac.plan.tail } rfl rfl rfl rfl (planLaw_tail _)
      · exact b
    · exact .refl _
  · exact .refl _

theorem rampUpdate_run (p : LineFields) (s : State) (d : s.hac.state.drives = true) : Run s (rampUpdate p s) := by
  unfold rampUpdate
  dsimp only
  generalize hv : (if s.allSecured = true then min (s.hac.vRef - rampStep p.aSs) s.osp.vPerm else 0) = v
  have r : Run s { s with hac := { s.hac with vRef := v } } := by
    refine setReference_run v s d ?_ ?_
    · intro h
      by_contra c
      rw [if_neg c] at hv
      exact h hv.symm
    · rw [← hv]; split <;> omega
  split
  · exact .trans r (enterStopping_run _ (not_held_of_drives d))
  · exact r

theorem stallWatch_run (p : LineFields) (c v : Nat) (s : State) : Run s (stallWatch p c v s) := by
  unfold stallWatch
  split
  · exact .haulRest s { s.hac with stalled := false } rfl rfl rfl rfl id
  · split
    · exact .trans (.haulRest s { s.hac with stalled := true } rfl rfl rfl rfl id) (.post _ _)
    · exact .refl _

theorem rampedReference_le (p : LineFields) (a b c : Nat) : rampedReference p a b c ≤ c := Nat.min_le_right _ _

theorem boundState_drives (p : LineFields) (a b c : Nat) : (boundState p a b c).drives = true := by
  unfold boundState; split
  · rfl
  · split <;> rfl

theorem tripUpdate_run (p : LineFields) (s : State) (d : s.hac.state.drives = true) (r : s.hac.ramp = false) :
    Run s (tripUpdate p s) := by
  unfold tripUpdate
  dsimp only
  split
  · refine .trans (setReference_run 0 s d (fun h => absurd rfl h) (Nat.zero_le _)) (setHaulage_run _ _ ?_)
    intro l
    exact ⟨fun _ => ⟨rfl, r⟩, fun _ => l.2.2.2.1 (not_held_of_drives d), fun _ => .inl (not_held_of_drives d)⟩
  · refine .trans (setReference_run _ s d ?_ ?_) (.trans (setHaulage_run _ _ ?_) (stallWatch_run _ _ _ _))
    · intro h
      by_contra c
      rw [if_neg c] at h
      exact h rfl
    · split
      · exact rampedReference_le _ _ _ _
      · exact Nat.zero_le _
    · intro l
      exact ⟨fun h => absurd (h.symm.trans (boundState_drives _ _ _ _)) (by decide),
        fun _ => l.2.2.2.1 (not_held_of_drives d), fun _ => .inl (not_held_of_drives d)⟩

theorem referenceUpdate_run (s : State) : Run s (referenceUpdate s) := by
  unfold referenceUpdate
  split
  · exact .refl _
  · have key : s.hac.state.drives = true →
        Run s (if s.hac.ramp = true then rampUpdate ‹_› s else tripUpdate ‹_› s) := by
      intro d
      split
      · exact rampUpdate_run _ s d
      · rename_i r
        exact tripUpdate_run _ s d (by simpa using r)
    split <;> rename_i e <;> first | exact .refl _ | exact key (by rw [e]; rfl)

theorem readDriveLines_run {k : Hand} (hk : Drives k) (ready fault : Bool) (s : State) :
    Run s (readDriveLines k ready fault s) := by
  unfold readDriveLines
  dsimp only
  have a : Run s { s with hac := { s.hac with ready := ready, fault := fault } } :=
    .haulRest s _ rfl rfl rfl rfl id
  split
  · exact .trans a (.trans (hk.stop _ _ _) (.post _ _))
  · exact a

/-! ## The Position Tracker's reports and corrections -/

theorem loseValidity_run {k : Hand} (hk : Drives k) (cause : PositionCause) (m : Option Nat) (sw : Option LineEnd)
    (s : State) : Run s (loseValidity k cause m sw s) := by
  unfold loseValidity
  split
  · exact .refl _
  · have a : Run s (positionReport cause s.ptr.x s.ptr.x m sw { s with ptr := { s.ptr with validity := .lost } }) :=
      .trans (.track s { s.ptr with validity := .lost }) (.post _ _)
    dsimp only
    split
    · exact .trans a (hk.stop _ _ _)
    · exact a

theorem shiftOffsets_run (u0 : Nat) (e : Int) (s : State) : Run s (shiftOffsets u0 e s) := .track s _

theorem correctAt_run {k : Hand} (hk : Drives k) (p : LineFields) (c : Car) (id : Nat) (s : State) :
    Run s (correctAt k p c id s) := by
  unfold correctAt
  split
  · exact bumpHealth_run hk _ _ _
  · dsimp only
    split
    · exact shiftOffsets_run _ _ _
    · split
      · exact .trans (.trans (shiftOffsets_run _ _ _) (.post _ _)) (bumpHealth_run hk _ _ _)
      · exact .trans (bumpHealth_run hk _ _ _) (loseValidity_run hk _ _ _ _)

theorem markerHandOver_run {k : Hand} (hk : Drives k) (c : Car) (m : Option MarkerField) (b : Freshness) (s : State) :
    Run s (markerHandOver k c m b s) := by
  unfold markerHandOver
  split
  · exact .refl _
  · rename_i f
    have a : Run s { s with ptr := { s.ptr with lastPassage := s.ptr.lastPassage.set c (some f.passage) } } := .track s _
    dsimp only
    split
    · exact a
    · split
      · exact a
      · split
        · exact a
        · split
          · exact .trans a (correctAt_run hk _ _ _ _)
          · exact a

end Sys2Proof.Machine
end

