-- ==== Sys2Proof/Laws/RunGate.lean ====
section
/-! SUPPORT. The operations of the Gate Loop Master as runs (chapter 8). -/

namespace Sys2Proof.Machine

variable {k : Hand}

theorem autoClose_run (hk : Drives k) (w : Window) (s : State) : Run s (autoClose k w s) := by
  unfold autoClose
  split
  · split
    · exact .forEach _ _ (fun d t => hk.close _ _ _) _
    · exact .refl _
  · exact .refl _

theorem closeSealed_run (hk : Drives k) (before s : State) : Run s (closeSealed k before s) := by
  refine .forEach _ _ (fun c t => .forEach _ _ (fun g u => ?_) t) s
  dsimp only
  split
  · exact autoClose_run hk _ _
  · exact .refl _

theorem examineWindow_run (hk : Drives k) (g : Group) (s : State) : Run s (examineWindow k g s) := by
  unfold examineWindow
  dsimp only
  split
  · exact .trans (.setWindow _ _ _ _) (autoClose_run hk _ _)
  · exact .refl _

theorem sealWindowNow_run (hk : Drives k) (g : Group) (c : WindowCause) (s : State) : Run s (sealWindowNow k g c s) := by
  unfold sealWindowNow
  dsimp only
  split
  · exact .trans (.setWindow _ _ _ _) (examineWindow_run hk _ _)
  · exact .refl _

theorem openWindow_run (c : Car) (stop : Nat) (s : State) : Run s (openWindow c stop s) := by
  unfold openWindow
  split
  · exact .refl _
  · dsimp only
    split
    · exact .setWindow _ _ _ _
    · split
      · exact .setWindow _ _ _ _
      · exact .refl _
    · exact .refl _
    · exact .refl _

theorem gateReport_run (a : Nat) (b : GateState) (e : GateEvent) (s : State) : Run s (gateReport a b e s) := by
  unfold gateReport
  split
  · exact .post _ _
  · exact .refl _

theorem gateTo_run (a : Nat) (new : GateState) (e : Option GateEvent) (s : State) : Run s (gateTo a new e s) := by
  unfold gateTo
  split
  · exact .refl _
  · rename_i g _
    dsimp only
    have r : Run s (match e with
        | some e => gateReport a g.state e (s.setGate { g with state := new })
        | none => s.setGate { g with state := new }) := by
      cases e
      · exact .setGate _ _
      · exact .trans (.setGate _ _) (gateReport_run _ _ _ _)
    split
    · exact .trans r (gateReport_run _ _ _ _)
    · split
      · exact .trans r (gateReport_run _ _ _ _)
      · exact r

theorem gateToRest_run (a : Nat) (e : Option GateEvent) (s : State) : Run s (gateToRest a e s) := by
  unfold gateToRest
  split
  · exact .refl _
  · exact gateTo_run _ _ _ _

theorem admissionReport_run (a : Nat) (car : Option Car) (ticket : Option Nat) (e : AdmissionEvent) (v : Option Verdict)
    (n : Option Nat) (p : Nat) (r aEff : Option Nat) (s : State) :
    Run s (admissionReport a car ticket e v n p r aEff s) := by
  unfold admissionReport
  split
  · exact .refl _
  · exact .post _ _

theorem refuseAt_run (a : Nat) (car : Option Car) (ticket : Nat) (r : RefuseReason) (n aEff : Option Nat) (s : State) :
    Run s (refuseAt a car ticket r n aEff s) :=
  .trans (.onGate _ _ _) (admissionReport_run _ _ _ _ _ _ _ _ _ _)

theorem makeAdmission_run (a : Nat) (c : Car) (ticket : Option Nat) (n : Nat) (staff : Option SlotId) (s : State) :
    Run s (makeAdmission a c ticket n staff s) :=
  .trans (.setTally s c { s.tallyOf c with inFlight := (s.tallyOf c).inFlight + n } id) (.onGate _ _ _)

theorem judgeSeats_run (a : Nat) (g : Group) (c : Car) (ticket n : Nat) (s : State) :
    Run s (judgeSeats a g c ticket n s).1 := by
  unfold judgeSeats
  split
  · exact refuseAt_run _ _ _ _ _ _ _
  · dsimp only
    split
    · exact refuseAt_run _ _ _ _ _ _ _
    · split
      · exact refuseAt_run _ _ _ _ _ _ _
      · rename_i t h
        exact .trans (.pass s t.table (fun l => taking_law l h)) (.trans (makeAdmission_run _ _ _ _ _ _)
          (.trans (.onGate _ _ _) (admissionReport_run _ _ _ _ _ _ _ _ _ _)))

theorem startQuery_run (a : Nat) (g : Group) (c : Car) (ticket : Nat) (s : State) : Run s (startQuery a g c ticket s) := by
  unfold startQuery
  split
  · exact .refl _
  · exact .trans (.setGate _ _) (.post _ _)

theorem judge_run (a ticket : Nat) (s : State) : Run s (judge a ticket s) := by
  unfold judge
  split
  · exact .refl _
  · split
    · exact .refl _
    · split
      · exact refuseAt_run _ _ _ _ _ _ _
      · split
        · split
          · exact startQuery_run _ _ _ _ _
          · exact refuseAt_run _ _ _ _ _ _ _
        · exact refuseAt_run _ _ _ _ _ _ _
        · exact judgeSeats_run _ _ _ _ _ _

theorem presented_run (a ticket : Nat) (s : State) : Run s (presented a ticket s) := by
  unfold presented
  split
  · exact .refl _
  · split
    · exact .refl _
    · split
      · exact refuseAt_run _ _ _ _ _ _ _
      · exact judge_run _ _ _
      · exact .refl _
      · exact refuseAt_run _ _ _ _ _ _ _
      · exact refuseAt_run _ _ _ _ _ _ _
      · exact .refl _
      · exact .refl _

theorem endQuery_run (a : Nat) (how : QueryEnd) (s : State) : Run s (endQuery a how s) := .onGate _ _ _

theorem queryExpired_run (hk : Drives k) (a : Nat) (s : State) : Run s (queryExpired k a s) := by
  unfold queryExpired
  split
  · exact .refl _
  · exact .trans (.onGate _ _ _) (.trans (endQuery_run _ _ _) (.trans (gateToRest_run _ _ _)
      (.trans (admissionReport_run _ _ _ _ _ _ _ _ _ _) (examineWindow_run hk _ _))))

theorem onePassage_run (hk : Drives k) (a : Nat) (s : State) : Run s (onePassage k a s) := by
  unfold onePassage
  split
  · exact .refl _
  · split
    · exact .refl _
    · rename_i g _ _ adm _
      have t := Run.setTally s adm.car
        { s.tallyOf adm.car with
          aboardMin := (s.tallyOf adm.car).aboardMin + 1, aboardMax := (s.tallyOf adm.car).aboardMax + 1,
          inFlight := (s.tallyOf adm.car).inFlight - 1 } (fun h => Nat.succ_le_succ h)
      refine .trans t ?_
      dsimp only
      generalize s.setTally adm.car _ = u
      rcases adm with ⟨ticket, car, n, pending, passed, deadline, staff⟩
      have tail : ∀ v : State, Run v (if pending - 1 = 0 then
            examineWindow k g.group (gateToRest a none (admissionReport a (some car) ticket .complete none (some n)
              (passed + 1) none none (onGate a (fun h => { h with admission := none }) v)))
          else onGate a (fun h => { h with admission := some ⟨ticket, car, n, pending - 1, passed + 1, deadline, staff⟩ }) v) := by
        intro v
        split
        · exact .trans (.onGate _ _ _) (.trans (admissionReport_run _ _ _ _ _ _ _ _ _ _)
            (.trans (gateToRest_run _ _ _) (examineWindow_run hk _ _)))
        · exact .onGate _ _ _
      cases ticket
      · exact tail u
      · exact .trans (.pass u _ (fun l => PassTable.passage_law l _)) (tail _)

theorem passed_run (hk : Drives k) (a n : Nat) (s : State) : Run s (passed k a n s) := by
  unfold passed
  split
  · exact .refl _
  · split
    · dsimp only
      split
      · exact .repeatN _ _ (onePassage_run hk a) _
      · exact .trans (.repeatN _ _ (onePassage_run hk a) _) (bumpHealth_run hk _ _ _)
    · exact bumpHealth_run hk _ _ _

theorem abandonAdmission_run (hk : Drives k) (a : Nat) (s : State) : Run s (abandonAdmission k a s) := by
  unfold abandonAdmission
  split
  · exact .refl _
  · split
    · exact .refl _
    · rename_i g _ _ adm _
      have t := Run.setTally s adm.car
        { s.tallyOf adm.car with inFlight := (s.tallyOf adm.car).inFlight - adm.pending } id
      refine .trans t ?_
      dsimp only
      generalize s.setTally adm.car _ = u
      rcases adm with ⟨ticket, car, n, pending, passed, deadline, staff⟩
      have tail : ∀ v : State, Run v (examineWindow k g.group (gateToRest a none (admissionReport a (some car) ticket
          .abandoned none (some n) passed (some pending) none (onGate a (fun h => { h with admission := none }) v)))) :=
        fun v => .trans (.onGate _ _ _) (.trans (admissionReport_run _ _ _ _ _ _ _ _ _ _)
          (.trans (gateToRest_run _ _ _) (examineWindow_run hk _ _)))
      cases ticket
      · exact tail u
      · exact .trans (.pass u _ (fun l => PassTable.abandon_law l _ _ _ _)) (tail _)

theorem unknownFate_run (a : Nat) (s : State) : Run s (unknownFate a s) := by
  unfold unknownFate
  split
  · exact .refl _
  · split
    · exact .refl _
    · rename_i g _ _ adm _
      have t := Run.setTally s adm.car
        { s.tallyOf adm.car with
          inFlight := (s.tallyOf adm.car).inFlight - adm.pending,
          aboardMax := (s.tallyOf adm.car).aboardMax + adm.pending } (fun h => Nat.le_trans h (Nat.le_add_right _ _))
      refine .trans t ?_
      dsimp only
      generalize s.setTally adm.car _ = u
      rcases adm with ⟨ticket, car, n, pending, passed, deadline, staff⟩
      have tail : ∀ v : State, Run v (admissionReport a (some car) ticket .unknownFate none (some n) passed (some pending)
          none (onGate a (fun h => { h with admission := none }) v)) :=
        fun v => .trans (.onGate _ _ _) (admissionReport_run _ _ _ _ _ _ _ _ _ _)
      cases ticket
      · exact tail u
      · exact .trans (.pass u _ (fun l => PassTable.release_law l _ _)) (tail _)

theorem accessEffect_run (hk : Drives k) (slot : SlotId) (r : AccessRequest) (result : AccessResult) (s : State) :
    Run s (accessEffect k slot r result s) := by
  unfold accessEffect
  split
  · dsimp only
    split
    · split
      · exact .trans (.onGate _ _ _) (gateTo_run _ _ _ _)
      · exact .onGate _ _ _
    · exact .onGate _ _ _
  · dsimp only
    split
    · split
      · exact .trans (.onGate _ _ _) (gateToRest_run _ _ _)
      · exact .onGate _ _ _
    · exact .onGate _ _ _
  · split
    · split
      · exact abandonAdmission_run hk _ _
      · exact .refl _
    · exact .refl _
  · split
    · split
      · exact abandonAdmission_run hk _ _
      · exact .refl _
    · exact .refl _
  · exact .refl _

/-- The access slots take a new content. -/
theorem setSlots_run (l : AccessSlots) (s : State) : Run s { s with glm := { s.glm with slots := l } } :=
  .gatesRest s { s.glm with slots := l } rfl rfl

theorem completeAccess_run (hk : Drives k) (slot : SlotId) (result : AccessResult) (data : Option Nat) (s : State) :
    Run s (completeAccess k slot result data s) := by
  unfold completeAccess
  split
  · exact .refl _
  · exact .trans (setSlots_run _ s) (.trans (.post _ _) (accessEffect_run hk _ _ _ _))

theorem completeAllFor_run (hk : Drives k) (a : Nat) (result : AccessResult) (s : State) :
    Run s (completeAllFor k a result s) := by
  unfold completeAllFor
  refine .forEach _ _ (fun i t => ?_) _
  split
  · exact completeAccess_run hk _ _ _ _
  · exact .refl _

theorem thirdPollPassed_run (hk : Drives k) (p : Poll) (s : State) : Run s (thirdPollPassed k p s) := by
  unfold thirdPollPassed
  split
  · exact .refl _
  · split
    · exact completeAccess_run hk _ _ _ _
    · exact .refl _

theorem goOffline_run (hk : Drives k) (a : Nat) (s : State) : Run s (goOffline k a s) := by
  unfold goOffline
  split
  · exact .refl _
  · rename_i g _
    dsimp only
    refine .trans (unknownFate_run a s) ?_
    generalize unknownFate a s = s1
    have r2 : Run s1 (if (g.state == .query) = true then endQuery a .cancelled s1 else s1) := by
      split
      · exact endQuery_run _ _ _
      · exact .refl _
    refine .trans r2 ?_
    generalize (if (g.state == .query) = true then endQuery a .cancelled s1 else s1) = s2
    have tail : ∀ v : State, Run v (examineWindow k g.group
        (if (g.state == .lockedOut) = true then gateReport a g.state .unlocked v else v)) := by
      intro v
      split
      · exact .trans (gateReport_run _ _ _ _) (examineWindow_run hk _ _)
      · exact examineWindow_run hk _ _
    exact .trans (.onGate _ _ _) (.trans (.onGate _ _ _) (.trans (completeAllFor_run hk _ _ _)
      (.trans (gateReport_run _ _ _ _) (tail _))))

theorem gateFault_run (hk : Drives k) (a code : Nat) (s : State) : Run s (gateFault k a code s) := by
  unfold gateFault
  split
  · exact .refl _
  · rename_i g _
    split
    · exact .onGate _ _ _
    · dsimp only
      have r2 : Run s (if (g.state == .query) = true then endQuery a .cancelled s else unknownFate a s) := by
        split
        · exact endQuery_run _ _ _
        · exact unknownFate_run _ _
      exact .trans r2 (.trans (.onGate _ _ _) (.trans (gateTo_run _ _ _ _) (examineWindow_run hk _ _)))

theorem leaveFault_run (a : Nat) (m : GateMsg) (s : State) : Run s (leaveFault a m s) := by
  unfold leaveFault
  split
  · split
    · exact .trans (.onGate _ _ _) (gateToRest_run _ _ _)
    · exact .refl _
  · exact .refl _

theorem comeOnline_run (a : Nat) (s : State) : Run s (comeOnline a s) := by
  unfold comeOnline
  split
  · split
    · exact gateToRest_run _ _ _
    · exact .refl _
  · exact .refl _

theorem replyContent_run (hk : Drives k) (a : Nat) (m : GateMsg) (s : State) : Run s (replyContent k a m s) := by
  unfold replyContent
  split
  · exact .refl _
  · exact presented_run _ _ _
  · exact passed_run hk _ _ _
  · exact gateFault_run hk _ _ _
  · split
    · exact completeAccess_run hk _ _ _ _
    · exact .refl _

/-! ## Polling -/

theorem nextPoll_cycle (l : GateLoop) (n c u : Nat) (hc : c < 8) {x : Nat × GateRec} (h : l.nextPoll n c u = some x) :
    x.1 < 8 := by
  induction n generalizing c u with
  | zero => cases h
  | succ n ih =>
    unfold GateLoop.nextPoll at h
    split at h
    · injection h with h; subst h; exact hc
    · exact ih _ _ (Nat.mod_lt _ (by decide)) h

theorem sendPoll_run (cycle : Nat) (g : GateRec) (s : State) (h : s.glm.cycle < 8 → cycle < 8) :
    Run s (sendPoll cycle g s) := by
  unfold sendPoll
  refine .trans (.setGate s { g with carried := g.verdict.isSome }) ?_
  refine .gates _ _ (fun l => ⟨l.1, h l.2⟩)

theorem pollNext_run (s : State) : Run s (pollNext s) := by
  unfold pollNext
  have r : Run s { s with glm := { s.glm with poll := none } } := .gatesRest s { s.glm with poll := none } rfl rfl
  dsimp only
  split
  · split
    · rename_i c g h
      exact .trans r (sendPoll_run _ _ _ (fun l => nextPoll_cycle _ _ _ _ l h))
    · exact r
  · exact r

theorem goodReply_run (hk : Drives k) (p : Poll) (m : GateMsg) (s : State) : Run s (goodReply k p m s) :=
  .trans (.onGate _ _ _) (.trans (comeOnline_run _ _) (.trans (.onGate _ _ _) (.trans (leaveFault_run _ _ _)
    (.trans (replyContent_run hk _ _ _) (.trans (thirdPollPassed_run hk _ _) (pollNext_run _))))))

theorem missedPoll_run (hk : Drives k) (p : Poll) (s : State) : Run s (missedPoll k p s) := by
  unfold missedPoll
  dsimp only
  suffices h : Run s (match s.gate? p.address with
      | none => s
      | some g =>
        if (g.state == .offline) = true then s
        else
          if 3 ≤ g.misses + 1 then
            goOffline k p.address (bumpHealth k .gates 1 (onGate p.address (fun h => { h with misses := h.misses + 1 }) s))
          else bumpHealth k .gates 1 (onGate p.address (fun h => { h with misses := h.misses + 1 }) s)) from
    .trans h (.trans (thirdPollPassed_run hk _ _) (pollNext_run _))
  split
  · exact .refl _
  · split
    · exact .refl _
    · split
      · exact .trans (.onGate _ _ _) (.trans (bumpHealth_run hk _ _ _) (goOffline_run hk _ _))
      · exact .trans (.onGate _ _ _) (bumpHealth_run hk _ _ _)

theorem stopLoop_run (hk : Drives k) (s : State) : Run s (stopLoop k s) := by
  unfold stopLoop
  split
  · have a : Run s { s with glm := { s.glm with running := false, poll := none } } :=
      .gatesRest s { s.glm with running := false, poll := none } rfl rfl
    refine .trans a ?_
    refine .trans (.trans (.forEach _ _ (fun i t => ?_) _) (closeSealed_run hk _ _))
      (.gates _ _ (fun l => ⟨l.1, Nat.zero_lt_succ 7⟩))
    split
    · exact goOffline_run hk.withoutClose _ _
    · exact .refl _
  · exact .refl _

theorem startLoop_run (s : State) : Run s (startLoop s) := by
  unfold startLoop
  split
  · exact .refl _
  · exact .trans (.gates s { s.glm with running := true, cycle := 0, cursor := 0 } (fun l => ⟨l.1, Nat.zero_lt_succ 7⟩))
      (pollNext_run _)

end Sys2Proof.Machine
end

