-- ==== Sys2Proof/Laws/RunDoor.lean ====
section
/-! SUPPORT. The operations of the Door Release Unit as runs (chapter 6): where a side leaves SECURED, the reference is made 0 and the
interlock watch makes the law of R73 good again before anything else can happen. -/

namespace Sys2Proof.Machine

variable {k : Hand}

/-- The haulage law read in a state that has the same controller, supervisor and mode, and all of whose sides are SECURED where
they were. -/
theorem haulageLaw_transfer {s t : State} (l : s.haulageLaw) (h1 : t.hac = s.hac) (h2 : t.osp = s.osp) (h3 : t.lmu = s.lmu)
    (h4 : s.allSecured = true → t.allSecured = true) : t.haulageLaw := by
  simp only [State.haulageLaw, h1, h2, h3]
  exact ⟨l.1, fun h => h4 (l.2.1 h), l.2.2⟩

theorem correctTally_run (c : Car) (r : DoorSide) (s : State) : Run s (correctTally c r s) := by
  unfold correctTally
  dsimp only
  split
  · refine .trans (.setTally s c { s.tallyOf c with aboardMin := 0, aboardMax := 0, unknown := false } (fun _ => Nat.le_refl _)) ?_
    exact .doorsRest _ _ (fun _ _ => rfl)
  · exact .setTally s c { s.tallyOf c with aboardMin := 0 } (fun _ => Nat.zero_le _)

theorem sealUnreleased_run (hk : Drives k) (s : State) : Run s (sealUnreleased k s) := by
  unfold sealUnreleased
  refine .forEach _ _ (fun g t => ?_) _
  dsimp only
  split
  · exact hk.seal _ _ _
  · exact .refl _

/-- The state of a side that has taken a new record, before the interlock watch: the report, the tally and the reference. -/
def sideTaken (c : Car) (d : Side) (r : DoorSide) (event : DoorEvent) (cause : Option DoorCause) (s : State) : State :=
  let old := s.side c d
  let s := doorReport c d old.state event cause (s.setSide c d r)
  let s := if r.state == .released then correctTally c r s else s
  if old.state == .secured && r.state != .secured then zeroReference s else s

/-- What follows the interlock watch: the window that opens, and the windows that are left without a released side. -/
def sideFollows (k : Hand) (c : Car) (old r : DoorSide) (s : State) : State :=
  let s :=
    if old.state == .releasePending && r.state == .released && (r.kind == some .auto || r.kind == some .manual) then
      match r.stop with
      | some i => openWindow c i s
      | none => s
    else s
  sealUnreleased k s

/-- A door side takes a new record in three parts. -/
theorem sideToNow_eq (k : Hand) (c : Car) (d : Side) (r : DoorSide) (event : DoorEvent) (cause : Option DoorCause)
    (s : State) : sideToNow k c d r event cause s =
      sideFollows k c (s.side c d) r (k .interlock (sideTaken c d r event cause s)) := rfl

theorem sideFollows_run (hk : Drives k) (c : Car) (old r : DoorSide) (s : State) : Run s (sideFollows k c old r s) := by
  unfold sideFollows
  dsimp only
  split
  · split
    · exact .trans (openWindow_run _ _ _) (sealUnreleased_run hk _)
    · exact sealUnreleased_run hk _
  · exact sealUnreleased_run hk _

/-- The middle of sideTaken: the report and the tally. -/
def sideReported (c : Car) (d : Side) (r : DoorSide) (event : DoorEvent) (cause : Option DoorCause) (s : State) : State :=
  let t := doorReport c d (s.side c d).state event cause (s.setSide c d r)
  if r.state == .released then correctTally c r t else t

theorem sideReported_run (c : Car) (d : Side) (r : DoorSide) (event : DoorEvent) (cause : Option DoorCause) (s : State) :
    Run (s.setSide c d r) (sideReported c d r event cause s) := by
  unfold sideReported
  dsimp only
  split
  · exact .trans (.post _ _) (correctTally_run _ _ _)
  · exact .post _ _

/-- What the report and the tally leave. -/
theorem sideReported_leaves (c : Car) (d : Side) (r : DoorSide) (event : DoorEvent) (cause : Option DoorCause) (s : State) :
    (sideReported c d r event cause s).hac = s.hac ∧ (sideReported c d r event cause s).osp = s.osp
      ∧ (sideReported c d r event cause s).lmu = s.lmu
      ∧ (sideReported c d r event cause s).dru.sides = (s.setSide c d r).dru.sides := by
  unfold sideReported doorReport
  dsimp only
  split
  · unfold correctTally
    dsimp only
    split <;> simp
  · simp

/-- A side that does not leave SECURED leaves all sides SECURED where they were. -/
theorem allSecured_setSide (s : State) (c : Car) (d : Side) (r : DoorSide)
    (h : (s.side c d).state = .secured → r.state = .secured) (a : s.allSecured = true) : (s.setSide c d r).allSecured = true := by
  simp only [State.allSecured, bothCars, bothSides, List.all_cons, List.all_nil, Bool.and_true, Bool.and_eq_true,
    beq_iff_eq] at a ⊢
  obtain ⟨⟨a1, a2⟩, a3, a4⟩ := a
  cases c <;> cases d
  · exact ⟨⟨h a1, a2⟩, a3, a4⟩
  · exact ⟨⟨a1, h a2⟩, a3, a4⟩
  · exact ⟨⟨a1, a2⟩, h a3, a4⟩
  · exact ⟨⟨a1, a2⟩, a3, h a4⟩

theorem sideTaken_law (c : Car) (d : Side) (r : DoorSide) (event : DoorEvent) (cause : Option DoorCause) (s : State)
    (l : s.haulageLaw) : (sideTaken c d r event cause s).haulageLaw := by
  obtain ⟨h1, h2, h3, h4⟩ := sideReported_leaves c d r event cause s
  show State.haulageLaw (if ((s.side c d).state == .secured && r.state != .secured) = true then
    zeroReference (sideReported c d r event cause s) else sideReported c d r event cause s)
  split
  · refine ⟨fun h => ⟨rfl, ?_⟩, fun h => absurd rfl h, Nat.zero_le _, ?_⟩
    · have := l.1 (by rw [← h1]; exact h)
      show (sideReported c d r event cause s).hac.ramp = false
      rw [h1]; exact this.2
    · have := l.2.2.2
      rw [← h1, ← h3] at this
      exact this
  · rename_i n
    refine haulageLaw_transfer l h1 h2 h3 (fun a => ?_)
    have : (sideReported c d r event cause s).allSecured = (s.setSide c d r).allSecured :=
      allSecured_congr (fun e x => by simp only [State.side, h4])
    rw [this]
    refine allSecured_setSide s c d r (fun e => ?_) a
    by_contra q
    exact n (by simp [e, q])

theorem sideTaken_run (c : Car) (d : Side) (r : DoorSide) (event : DoorEvent) (cause : Option DoorCause) (s : State) :
    Run (s.setSide c d r) (sideTaken c d r event cause s) := by
  show Run _ (if ((s.side c d).state == .secured && r.state != .secured) = true then
    zeroReference (sideReported c d r event cause s) else sideReported c d r event cause s)
  split
  · exact .trans (sideReported_run _ _ _ _ _ _) (zeroReference_run _)
  · exact sideReported_run _ _ _ _ _ _

theorem sideToNow_run (hk : Drives k) (c : Car) (d : Side) (r : DoorSide) (event : DoorEvent) (cause : Option DoorCause)
    (s : State) : Run s (sideToNow k c d r event cause s) := by
  rw [sideToNow_eq]
  have after := sideFollows_run hk c (s.side c d) r (k .interlock (sideTaken c d r event cause s))
  refine .side s _ { s.dru with sides := s.dru.sides.set c ((s.dru.sides.get c).set d r) } ?_ ?_ ?_
  · exact .trans (sideTaken_run c d r event cause s) (.trans (hk.interlock _) after)
  · exact fun _ => after.interlocked (hk.lock _)
  · exact fun l => after.haulageLaw ((hk.interlock _).haulageLaw (sideTaken_law c d r event cause s l))

/-! ## Release, closing and judging -/

theorem autoReleaseSide_run (hk : Drives k) (c : Car) (d : Side) (stop : Nat) (s : State) :
    Run s (autoReleaseSide k c d stop s) := by
  unfold autoReleaseSide
  split
  · dsimp only
    split
    · exact hk.side _ _ _ _ _ _
    · exact .post _ _
  · exact .refl _

theorem autoRelease_run (hk : Drives k) (stop : Nat) (onA onB : Bool) (s : State) : Run s (autoRelease k stop onA onB s) := by
  unfold autoRelease
  split
  · refine .forEach _ _ (fun c t => ?_) _
    dsimp only
    cases c <;> dsimp only <;> split
    · exact .forEach _ _ (fun d u => autoReleaseSide_run hk .a d stop u) _
    · exact .refl _
    · exact .forEach _ _ (fun d u => autoReleaseSide_run hk .b d stop u) _
    · exact .refl _
  · exact .refl _

theorem ackExpired_run (hk : Drives k) (c : Car) (d : Side) (s : State) : Run s (ackExpired k c d s) := by
  unfold ackExpired
  dsimp only
  split
  · exact hk.side _ _ _ _ _ _
  · exact .setSide s c d _ rfl

theorem enterClosing_run (hk : Drives k) (c : Car) (d : Side) (s : State) : Run s (enterClosing k c d s) :=
  hk.side _ _ _ _ _ _

theorem closeSideNow_run (hk : Drives k) (c : Car) (d : Side) (s : State) : Run s (closeSideNow k c d s) := by
  unfold closeSideNow
  dsimp only
  split
  · exact enterClosing_run hk _ _ _
  · split
    · exact .refl _
    · exact enterClosing_run hk _ _ _
  · split
    · exact .refl _
    · exact enterClosing_run hk _ _ _
  · split
    · exact enterClosing_run hk _ _ _
    · exact .refl _
  · exact .refl _
  · exact .refl _
  · exact .refl _

theorem attemptFailed_run (hk : Drives k) (c : Car) (d : Side) (cause : DoorCause) (s : State) :
    Run s (attemptFailed k c d cause s) := by
  unfold attemptFailed
  dsimp only
  split
  · exact hk.side _ _ _ _ _ _
  · exact hk.side _ _ _ _ _ _

theorem closeExpired_run (hk : Drives k) (c : Car) (d : Side) (s : State) : Run s (closeExpired k c d s) := by
  unfold closeExpired
  dsimp only
  split
  · exact attemptFailed_run hk _ _ _ _
  · exact .setSide s c d _ rfl

theorem retryExpired_run (hk : Drives k) (c : Car) (d : Side) (s : State) : Run s (retryExpired k c d s) := by
  unfold retryExpired
  dsimp only
  split
  · exact hk.side _ _ _ _ _ _
  · exact .setSide s c d _ rfl

theorem faultSide_run (hk : Drives k) (c : Car) (d : Side) (f : DoorFault) (s : State) : Run s (faultSide k c d f s) :=
  hk.side _ _ _ _ _ _

theorem faultMoving_run (hk : Drives k) (c : Car) (d : Side) (s : State) : Run s (faultMoving k c d s) :=
  .trans (faultSide_run hk _ _ _ _) (hk.stop _ _ _)

theorem judgePending_run (hk : Drives k) (c : Car) (d : Side) (x : DoorStatus) (s : State) :
    Run s (judgePending k c d x s) := by
  unfold judgePending
  dsimp only
  split
  · split
    · exact .trans (hk.side _ _ _ _ _ _) (hk.side _ _ _ _ _ _)
    · exact hk.side _ _ _ _ _ _
  · split
    · exact faultSide_run hk _ _ _ _
    · exact .refl _

theorem judgeClosing_run (hk : Drives k) (c : Car) (d : Side) (x : DoorStatus) (s : State) :
    Run s (judgeClosing k c d x s) := by
  unfold judgeClosing
  dsimp only
  split
  · exact hk.side _ _ _ _ _ _
  · split
    · exact attemptFailed_run hk _ _ _ _
    · exact .refl _

theorem judgeSecured_run (hk : Drives k) (m : Bool) (c : Car) (d : Side) (x : DoorStatus) (s : State) :
    Run s (judgeSecured k m c d x s) := by
  unfold judgeSecured
  split
  · exact .refl _
  · split
    · exact faultMoving_run hk _ _ _
    · split
      · exact hk.side _ _ _ _ _ _
      · exact faultSide_run hk _ _ _ _
  · split
    · exact faultMoving_run hk _ _ _
    · split
      · exact faultSide_run hk _ _ _ _
      · exact faultSide_run hk _ _ _ _

theorem judgeUnproven_run (hk : Drives k) (m : Bool) (c : Car) (d : Side) (x : DoorStatus) (s : State) :
    Run s (judgeUnproven k m c d x s) := by
  unfold judgeUnproven
  split
  · exact hk.side _ _ _ _ _ _
  · split
    · exact faultMoving_run hk _ _ _
    · exact .refl _

theorem judgeSide_run (hk : Drives k) (m : Bool) (c : Car) (d : Side) (x : DoorStatus) (s : State) :
    Run s (judgeSide k m c d x s) := by
  unfold judgeSide
  dsimp only
  split
  · exact judgeSecured_run hk _ _ _ _ _
  · exact judgeUnproven_run hk _ _ _ _ _
  · exact judgePending_run hk _ _ _ _
  · split
    · exact .refl _
    · exact hk.side _ _ _ _ _ _
  · split
    · exact hk.side _ _ _ _ _ _
    · exact .refl _
  · exact judgeClosing_run hk _ _ _ _
  · exact .refl _

theorem judgeFrame_run (hk : Drives k) (c : Car) (x : CarStatus) (s : State) : Run s (judgeFrame k c x s) :=
  .forEach _ _ (fun d t => judgeSide_run hk s.moving c d (x.door d) t) s

theorem unproveSide_run (hk : Drives k) (c : Car) (d : Side) (s : State) : Run s (unproveSide k c d s) := by
  unfold unproveSide
  dsimp only
  split
  · exact .refl _
  · rename_i h
    exact .setSide s c d _ h.symm
  all_goals exact hk.side _ _ _ _ _ _

theorem doorsOnFreshness_run (hk : Drives k) (c : Car) (f : Freshness) (s : State) : Run s (doorsOnFreshness k c f s) := by
  unfold doorsOnFreshness
  split
  · exact .forEach _ _ (fun d t => unproveSide_run hk c d t) s
  · exact .forEach _ _ (fun d t => unproveSide_run hk c d t) s
  · exact .refl _
  · exact .refl _

end Sys2Proof.Machine
end

