-- ==== Sys2Proof/Laws/RunMode.lean ====
section
/-! SUPPORT. The operations of the Line Mode Unit and the Car Link Unit as runs (chapters 5 and 9). -/

namespace Sys2Proof.Machine

variable {k : Hand}

theorem suspendOrResume_run (q : Bool) (s : State) : Run s (suspendOrResume q s) := by
  unfold suspendOrResume
  dsimp only
  split
  · split
    · exact .modeRest s { s.lmu with supTimer := .stopped, suspended := true } rfl rfl rfl (.inl rfl) rfl
    · exact .refl _
    · exact .refl _
  · split
    · exact .modeRest s { s.lmu with supTimer := s.freshSupTimer, suspended := false } rfl rfl rfl (.inl rfl) rfl
    · exact .refl _

/-! ## Car links -/

theorem stopLink_run (hk : Drives k) (c : Car) (s : State) : Run s (stopLink k c s) := by
  unfold stopLink
  split
  · exact .trans (.setCar s c { s.car c with running := false, timer := none } rfl)
      (.trans (hk.freshness c .never _) (.setCar _ c _ rfl))
  · exact .refl _

theorem startLink_run (c : Car) (s : State) : Run s (startLink c s) := by
  unfold startLink
  split
  · exact .refl _
  · exact .setCar s c _ rfl

theorem startLinks_run (s : State) : Run s (startLinks s) := .forEach _ _ startLink_run s

theorem followVariant_run (hk : Drives k) (v : Variant) (s : State) : Run s (followVariant k v s) := by
  unfold followVariant
  have a : Run s (if v.keepLinks = true then startLinks s else stopLinks k s) := by
    split
    · exact startLinks_run s
    · exact .forEach _ _ (stopLink_run hk) s
  dsimp only
  split
  · exact .trans a (startLoop_run _)
  · exact .trans a (stopLoop_run hk _)

theorem startLink_lmu (c : Car) (s : State) : (startLink c s).lmu = s.lmu := by
  unfold startLink; split <;> rfl

theorem startLinks_lmu (s : State) : (startLinks s).lmu = s.lmu := by
  show (startLink .b (startLink .a s)).lmu = s.lmu
  rw [startLink_lmu, startLink_lmu]

theorem pollNext_lmu (s : State) : (pollNext s).lmu = s.lmu := by
  unfold pollNext
  dsimp only
  split
  · split <;> rfl
  · rfl

theorem startLoop_lmu (s : State) : (startLoop s).lmu = s.lmu := by
  unfold startLoop
  split
  · rfl
  · rw [pollNext_lmu]

/-! ## Changes of mode -/

theorem supervisorPark_run (s : State) (m : s.lmu.mode = .parked) : Run s (supervisorPark s) := by
  unfold supervisorPark
  have a : Run s { s with osp := { s.osp with vPerm := 0, binding := none, level := .none, fresh := true, last := none } } := by
    refine .haul s s.hac _ ?_ id id
    intro l
    have h := l.2.2.2.2 (.inr (.inl m))
    refine ⟨l.1, l.2.1, ?_, l.2.2.2⟩
    have := (l.1 (by rw [h]; rfl)).1
    show s.hac.vRef ≤ 0
    omega
  dsimp only
  split
  · exact a
  · exact .trans a (.post _ _)

theorem sealOpen_run (hk : Drives k) (c : WindowCause) (s : State) : Run s (sealOpen k c s) :=
  .forEach _ _ (fun g t => sealWindowNow_run hk.withoutClose g c t) s

theorem sealAll_run (hk : Drives k) (c : WindowCause) (s : State) : Run s (sealAll k c s) :=
  .trans (sealOpen_run hk c s) (closeSealed_run hk _ _)

theorem closeAll_run (hk : Drives k) (s : State) : Run s (closeAll k s) :=
  .forEach _ _ (fun c t => .forEach _ _ (fun d u => hk.close c d u) t) s

theorem closeOnMode_run (hk : Drives k) (old new : Mode) (s : State) : Run s (closeOnMode k old new s) := by
  unfold closeOnMode
  split
  · split
    · exact .trans (sealOpen_run hk _ _) (closeAll_run hk _)
    · exact closeAll_run hk _
  · split
    · exact sealAll_run hk _ _
    · exact .refl _

theorem linksOnMode_run (hk : Drives k) (old : Mode) (e : ModeEntry) (s : State) : Run s (linksOnMode k old e s) := by
  unfold linksOnMode
  split
  · exact followVariant_run hk _ _
  · split
    · exact .trans (startLinks_run s) (startLoop_run _)
    · exact .refl _

/-- The Line Mode Unit has entered its new mode. -/
theorem enter_run (e : ModeEntry) (s : State) (h : e.Fits s) : Run s { s with lmu := s.lmu.enter e } := by
  refine .mode s (s.lmu.enter e) ?_ ?_ ?_
  · intro _
    exact ⟨h.variant, h.target, fun x => by cases x⟩
  · intro _ m
    exact h.forced m
  · intro l
    exact ⟨l.1, l.2.1, l.2.2.1, l.2.2.2.1, fun m => h.held m l⟩

/-- The windows, doors, links and loop, and the warming, at a change of mode. -/
def modeFollows (k : Hand) (old : Mode) (e : ModeEntry) (s : State) : State :=
  let s := if e.mode == .parked then k (.command .eb .apply) (k (.command .sb .apply) (supervisorPark s)) else s
  let s := closeOnMode k old e.mode s
  let s := linksOnMode k old e s
  if e.mode == .warming then enterWarming k s else s

/-- A change of mode in two parts: the entry with its report, and what follows. -/
theorem changeModeNow_eq (k : Hand) (e : ModeEntry) (cause : ModeCause) (unmet : Option WarmUnmet) (s : State) :
    changeModeNow k e cause unmet s = modeFollows k s.lmu.mode e
      (modeReport .change s.lmu.mode (some cause) unmet
        (suspendOrResume s.lmu.isQuiet { s with lmu := s.lmu.enter e })) := rfl

theorem enterWarming_run (hk : Drives k) (s : State) (m : s.lmu.mode = .warming) : Run s (enterWarming k s) := by
  unfold enterWarming
  refine .trans (.mode s { s.lmu with warmTimer := s.boundSec LineFields.tWarm } ?_ id ?_) (hk.command _ _ _)
  · exact fun l => ⟨l.1, l.2.1, fun _ => m⟩
  · exact id

theorem modeFollows_run (hk : Drives k) (old : Mode) (e : ModeEntry) (s : State) (m : s.lmu.mode = e.mode)
    (v : e.variant.isSome = true ↔ e.mode = .parked) (w : e.mode = .warming → old = .init ∨ old = .parked) :
    Run s (modeFollows k old e s) := by
  by_cases hw : e.mode = .warming
  · have hv : e.variant = none := by
      cases he : e.variant with
      | none => rfl
      | some x => rw [he, hw] at v; exact absurd (v.1 rfl) (by decide)
    have hc : closesDoors old .warming = false := by
      rcases w hw with rfl | rfl <;> rfl
    have eq : modeFollows k old e s = enterWarming k (if (old == .parked) = true then startLoop (startLinks s) else s) := by
      simp only [modeFollows, closeOnMode, linksOnMode, hv, hw, hc, Mode.sealsWindows]
      rfl
    rw [eq]
    split
    · exact .trans (.trans (startLinks_run s) (startLoop_run _))
        (enterWarming_run hk _ (by rw [startLoop_lmu, startLinks_lmu, m, hw]))
    · exact enterWarming_run hk _ (by rw [m, hw])
  · unfold modeFollows
    have a : Run s (if (e.mode == .parked) = true then
        k (.command .eb .apply) (k (.command .sb .apply) (supervisorPark s)) else s) := by
      split
      · rename_i p
        exact .trans (supervisorPark_run s (by rw [m]; simpa using p)) (.trans (hk.command _ _ _) (hk.command _ _ _))
      · exact .refl _
    refine .trans a ?_
    dsimp only
    generalize (if (e.mode == .parked) = true then
        k (.command .eb .apply) (k (.command .sb .apply) (supervisorPark s)) else s) = s1
    refine .trans (closeOnMode_run hk old e.mode s1) (.trans (linksOnMode_run hk old e _) ?_)
    have n : ¬(e.mode == .warming) = true := by simpa using hw
    rw [if_neg n]
    exact .refl _

theorem suspendOrResume_mode (q : Bool) (s : State) : (suspendOrResume q s).lmu.mode = s.lmu.mode := by
  unfold suspendOrResume
  dsimp only
  split
  · split <;> rfl
  · split <;> rfl

theorem modeReport_run (ev : ModeEvent) (b : Mode) (c : Option ModeCause) (u : Option WarmUnmet) (s : State) :
    Run s (modeReport ev b c u s) := .post _ _

/-- The entry of a mode with its report. -/
theorem changeMode_tail_run (hk : Drives k) (e : ModeEntry) (cause : ModeCause) (unmet : Option WarmUnmet) (s : State)
    (h : e.Fits s) : Run { s with lmu := s.lmu.enter e } (changeModeNow k e cause unmet s) := by
  rw [changeModeNow_eq]
  refine .trans (suspendOrResume_run s.lmu.isQuiet { s with lmu := s.lmu.enter e })
    (.trans (modeReport_run .change s.lmu.mode (some cause) unmet _) (modeFollows_run hk _ e _ ?_ h.variant h.before))
  unfold modeReport
  rw [post_lmu, suspendOrResume_mode]
  rfl

theorem changeModeNow_run (hk : Drives k) (e : ModeEntry) (cause : ModeCause) (unmet : Option WarmUnmet) (s : State)
    (h : e.Fits s) : Run s (changeModeNow k e cause unmet s) :=
  .trans (enter_run e s h) (changeMode_tail_run hk e cause unmet s h)

/-- A change into a mode other than SERVICE leaves the law of forced modes. -/
theorem changeModeNow_unforced (hk : Drives k) (e : ModeEntry) (cause : ModeCause) (unmet : Option WarmUnmet) (s : State)
    (h : e.Fits s) (n : e.mode ≠ .service) :
    (changeModeNow k e cause unmet s).unforced ∨ (changeModeNow k e cause unmet s).overrun = true :=
  (changeMode_tail_run hk e cause unmet s h).unforced (.inl (fun m => absurd m n))

theorem changeVariant_run (hk : Drives k) (v : Variant) (s : State) (m : s.lmu.mode = .parked) :
    Run s (changeVariant k v s) := by
  unfold changeVariant
  refine .trans (.mode s { s.lmu with variant := some v } ?_ id id) (.trans (suspendOrResume_run _ _)
    (.trans (modeReport_run _ _ _ _ _) (followVariant_run hk _ _)))
  exact fun l => ⟨⟨fun _ => m, fun _ => rfl⟩, l.2⟩

theorem warmingCheck_run (hk : Drives k) (s : State) : Run s (warmingCheck k s) := by
  unfold warmingCheck
  split
  · split
    · exact .refl _
    · split
      · exact hk.mode _ _ _ _ (ModeEntry.plain_fits _ _ (.inl rfl))
      · rename_i f
        refine hk.mode _ _ _ _ ⟨by simp [ModeEntry.plain], by simp [ModeEntry.plain], fun _ => by simpa using f,
          by simp [ModeEntry.plain], by simp [ModeEntry.plain]⟩
    · rename_i t _ _
      refine hk.mode _ _ _ _ (ModeEntry.plain_fits _ _ ?_)
      cases t
      · contradiction
      · exact .inl rfl
      · exact .inr (.inl rfl)
  · exact .refl _

theorem warmingExpired_run (hk : Drives k) (s : State) : Run s (warmingExpired k s) := by
  unfold warmingExpired
  split
  · rename_i m
    refine hk.mode _ _ _ _ ⟨by simp, by simp, by simp, fun _ l => l.2.2.2.2 (.inr (.inr (by simpa using m))), by simp⟩
  · exact .modeRest s { s.lmu with warmTimer := none } rfl rfl rfl (.inr rfl) rfl

theorem supervisionExpired_run (hk : Drives k) (s : State) : Run s (supervisionExpired k s) := by
  unfold supervisionExpired
  refine .trans (hk.abort .supervision s) ?_
  generalize k (.abortTest .supervision) s = s
  have a : Run s { s with lmu := { s.lmu with lost := true, supTimer := .stopped, suspended := false } } :=
    .modeRest s { s.lmu with lost := true, supTimer := .stopped, suspended := false } rfl rfl rfl (.inl rfl) rfl
  refine .trans a (.trans (modeReport_run .supervisionLost s.lmu.mode none none _) ?_)
  dsimp only
  generalize modeReport .supervisionLost s.lmu.mode none none
    { s with lmu := { s.lmu with lost := true, supTimer := .stopped, suspended := false } } = t
  split
  · exact .trans (hk.stop _ _ _) (sealAll_run hk _ _)
  · exact sealAll_run hk _ _

theorem supervised_run (s : State) : Run s (supervised s) := by
  unfold supervised
  have a : Run s { s with lmu := { s.lmu with
      expected := s.lmu.expected.other, lost := false,
      supTimer := if s.lmu.isQuiet = true then .stopped else s.freshSupTimer, suspended := s.lmu.isQuiet } } :=
    .modeRest s { s.lmu with
      expected := s.lmu.expected.other, lost := false,
      supTimer := if s.lmu.isQuiet = true then .stopped else s.freshSupTimer, suspended := s.lmu.isQuiet }
      rfl rfl rfl (.inl rfl) rfl
  dsimp only
  split
  · exact .trans a (modeReport_run _ _ _ _ _)
  · exact a

/-! ## Car frames -/

theorem sendCommand_run (c : Car) (s : State) : Run s (sendCommand c s) := by
  unfold sendCommand
  split
  · exact .setCar s c _ rfl
  · exact .refl _

theorem carLinkReport_run (c : Car) (e : CarLinkEvent) (b : Freshness) (v : Option Bool) (s : State) :
    Run s (carLinkReport c e b v s) := .post _ _

/-- What follows the interlock watch at a change of freshness. -/
def freshnessFollows (k : Hand) (f : Freshness) (s : State) : State :=
  let s := warmingCheck k s
  if f == .lost && s.moving then k (.orderStop .controlled .link) s else s

theorem freshnessFollows_run (hk : Drives k) (f : Freshness) (s : State) : Run s (freshnessFollows k f s) := by
  unfold freshnessFollows
  dsimp only
  split
  · exact .trans (warmingCheck_run hk _) (hk.stop _ _ _)
  · exact warmingCheck_run hk _

/-- What comes between a new freshness and the interlock watch. -/
def freshnessTaken (k : Hand) (c : Car) (old f : Freshness) (s : State) : State :=
  let s := if f == .never then { s with ptr := { s.ptr with lastPassage := s.ptr.lastPassage.set c none } } else s
  let s := if f == .lost then bumpHealth k (linkCounter c) 1 s else s
  doorsOnFreshness k c f (carLinkReport c .freshness old none s)

theorem freshnessTaken_run (hk : Drives k) (c : Car) (old f : Freshness) (s : State) :
    Run s (freshnessTaken k c old f s) := by
  unfold freshnessTaken
  dsimp only
  have a : Run s (if (f == .never) = true then
      { s with ptr := { s.ptr with lastPassage := s.ptr.lastPassage.set c none } } else s) := by
    split
    · exact .track s _
    · exact .refl _
  refine .trans a ?_
  generalize (if (f == .never) = true then
      { s with ptr := { s.ptr with lastPassage := s.ptr.lastPassage.set c none } } else s) = t
  split
  · exact .trans (bumpHealth_run hk _ _ _) (.trans (carLinkReport_run _ _ _ _ _) (doorsOnFreshness_run hk _ _ _))
  · exact .trans (carLinkReport_run _ _ _ _ _) (doorsOnFreshness_run hk _ _ _)

theorem freshnessNow_eq (k : Hand) (c : Car) (f : Freshness) (s : State) :
    freshnessNow k c f s = if ((s.car c).freshness == f) = true then s else
      freshnessFollows k f (k .interlock (freshnessTaken k c (s.car c).freshness f
        (s.setCar c { s.car c with freshness := f }))) := rfl

theorem freshnessNow_run (hk : Drives k) (c : Car) (f : Freshness) (s : State) : Run s (freshnessNow k c f s) := by
  rw [freshnessNow_eq]
  split
  · exact .refl _
  · have after := freshnessFollows_run hk f (k .interlock (freshnessTaken k c (s.car c).freshness f
        (s.setCar c { s.car c with freshness := f })))
    refine .fresh s _ { s.clu with recs := s.clu.recs.set c { s.car c with freshness := f } } rfl ?_ ?_
    · exact .trans (freshnessTaken_run hk c (s.car c).freshness f (s.setCar c { s.car c with freshness := f }))
        (.trans (hk.interlock _) after)
    · exact fun _ => after.interlocked (hk.lock _)

theorem reportAlarm_run (r : AlarmReport) (s : State) : Run s (reportAlarm r s) := by
  unfold reportAlarm
  split
  · exact .post _ _
  · exact .refl _

theorem watchAlarm_run (hk : Drives k) (c : Car) (x : CarStatus) (s : State) : Run s (watchAlarm k c x s) := by
  unfold watchAlarm
  split
  · have a : Run s (s.setCar c { s.car c with alarm := true }) := .setCar s c _ rfl
    refine .trans a ?_
    dsimp only
    split
    · exact .trans (hk.stop _ _ _) (.trans (hk.abort _ _) (reportAlarm_run _ _))
    · exact .trans (hk.abort _ _) (reportAlarm_run _ _)
  · exact .refl _

theorem watchCrew_run (c : Car) (prev : Option CarStatus) (x : CarStatus) (s : State) : Run s (watchCrew c prev x s) := by
  unfold watchCrew
  dsimp only
  split
  · split
    · exact .trans (carLinkReport_run _ _ _ _ _) (carLinkReport_run _ _ _ _ _)
    · exact carLinkReport_run _ _ _ _ _
  · split
    · exact carLinkReport_run _ _ _ _ _
    · exact .refl _

theorem acceptStatus_run (hk : Drives k) (c : Car) (x : CarStatus) (s : State) : Run s (acceptStatus k c x s) := by
  unfold acceptStatus
  dsimp only
  refine .trans (markerHandOver_run hk c x.marker (s.car c).freshness s) ?_
  generalize markerHandOver k c x.marker (s.car c).freshness s = t
  have b : Run t (if gapCount (s.car c) x.seq = 0 then t else bumpHealth k (linkCounter c) (gapCount (s.car c) x.seq) t) := by
    split
    · exact .refl _
    · exact bumpHealth_run hk _ _ _
  refine .trans b ?_
  generalize (if gapCount (s.car c) x.seq = 0 then t else bumpHealth k (linkCounter c) (gapCount (s.car c) x.seq) t) = u
  have v : Run u (u.setCar c { u.car c with
      lastSeq := some x.seq, discards := 0, status := some x, since := some 0, accepted := satCount (u.car c).accepted 1 }) :=
    .setCar u c _ rfl
  exact .trans v (.trans (hk.freshness _ _ _) (.trans (judgeFrame_run hk _ _ _)
    (.trans (watchAlarm_run hk _ _ _) (.trans (watchCrew_run _ _ _ _) (sendCommand_run _ _)))))

theorem receiveStatus_run (hk : Drives k) (c : Car) (x : Option CarStatus) (s : State) : Run s (receiveStatus k c x s) := by
  unfold receiveStatus
  split
  · split
    · have v : Run s (s.setCar c { s.car c with
          discards := min 255 ((s.car c).discards + 1), discarded := satCount (s.car c).discarded 1 }) := .setCar s c _ rfl
      exact .trans v (bumpHealth_run hk _ _ _)
    · split
      · exact .setCar s c { s.car c with duplicates := satCount (s.car c).duplicates 1 } rfl
      · exact acceptStatus_run hk _ _ _
  · exact .refl _

end Sys2Proof.Machine
end

