-- ==== Sys2Proof/Laws/RunBrake.lean ====
section
/-! SUPPORT. The operations of the Brake Sequencer and the Overspeed Supervisor as runs (chapters 3 and 4), and the ends of a trip. -/

namespace Sys2Proof.Machine

variable {k : Hand}

/-! ## Commands -/

theorem commanded_cmd (r : BrakeRec) (c : BrakeCmd) (x : Reading) (t : Timer) : (r.commanded c x t).cmd = c := by
  unfold BrakeRec.commanded
  split
  · assumption
  · cases c
    · show (r.commandApply x t).cmd = .apply
      unfold BrakeRec.commandApply
      split <;> first | rfl | (split <;> rfl)
    · show (r.commandRelease x t).cmd = .release
      unfold BrakeRec.commandRelease
      split <;> first | rfl | (split <;> rfl)

theorem rawCommand_apply_run (b : BrakeId) (s : State) : Run s (rawCommand b .apply s) :=
  .setBrakeApply s b _ (commanded_cmd _ _ _ _)

theorem rawCommand_cmd (b : BrakeId) (c : BrakeCmd) (s : State) : ((rawCommand b c s).brake b).cmd = c := by
  unfold rawCommand
  rw [brake_setBrake, commanded_cmd]

theorem rawCommand_run (b : BrakeId) (c : BrakeCmd) (s : State) (h : s.commandAllowed b c = true) :
    Run s (rawCommand b c s) := by
  cases c with
  | apply => exact rawCommand_apply_run b s
  | release =>
    cases b with
    | sb => exact .brakes s _ (fun _ _ => h) id
    | eb =>
      refine .brakes s _ id (fun _ l => ?_)
      have n : s.bsq.latch.isNone = true := h
      have l' : s.bsq.latch.isSome = true := l
      rw [Option.isNone_iff_eq_none.1 n] at l'
      cases l'

theorem handOverBrakes_run (hk : Drives k) (b : BrakeState × BrakeState) (s : State) : Run s (handOverBrakes k b s) := by
  unfold handOverBrakes
  split
  · exact .refl _
  · exact hk.brakes _

theorem commandBrake_run (hk : Drives k) (b : BrakeId) (c : BrakeCmd) (s : State) : Run s (commandBrake k b c s) := by
  unfold commandBrake
  split
  · exact .trans (rawCommand_run b c s ‹_›) (handOverBrakes_run hk _ _)
  · exact .refl _

/-- SB commanded APPLY leaves the interlock law. -/
theorem commandBrake_interlocked (hk : Drives k) (s : State) :
    (commandBrake k .sb .apply s).interlocked ∨ (commandBrake k .sb .apply s).overrun = true := by
  have e : commandBrake k .sb .apply s = handOverBrakes k s.brakeStates (rawCommand .sb .apply s) := rfl
  rw [e]
  refine (handOverBrakes_run hk _ _).interlocked (.inl (fun h => ?_))
  rw [rawCommand_cmd] at h
  cases h

/-! ## Faults and readings -/

theorem brakeFault_run (hk : Drives k) (b : BrakeId) (c : BrakeFaultCause) (s : State) : Run s (brakeFault k b c s) := by
  have a : Run s (s.setBrake b { s.brake b with state := .fault, timer := none }) := .setBrake s b _ rfl
  exact .trans a (.trans (.post _ _) (.trans (hk.stop _ _ _) (hk.brakes _)))

theorem externalTrip_run (hk : Drives k) (s : State) : Run s (externalTrip k s) := by
  have a : Run s (s.setBrake .eb { cmd := .apply, state := .applied, timer := none }) := .setBrakeApply s .eb _ rfl
  exact .trans a (.trans (hk.brakes _) (hk.stop _ _ _))

theorem settleBrake_run (hk : Drives k) (b : BrakeId) (st : BrakeState) (s : State) : Run s (settleBrake k b st s) := by
  have a : Run s (s.setBrake b { s.brake b with state := st, timer := none }) := .setBrake s b _ rfl
  exact .trans a (hk.brakes _)

theorem setBrakeTimer_run (b : BrakeId) (t : Timer) (s : State) : Run s (setBrakeTimer b t s) := .setBrake s b _ rfl

theorem readingChanged_run (hk : Drives k) (b : BrakeId) (x : Reading) (s : State) : Run s (readingChanged k b x s) := by
  unfold readingChanged
  split
  · exact setBrakeTimer_run _ _ _
  · exact brakeFault_run hk _ _ _
  · exact setBrakeTimer_run _ _ _
  · exact settleBrake_run hk _ _ _
  · exact .refl _
  · exact .refl _
  · split
    · exact brakeFault_run hk _ _ _
    · exact externalTrip_run hk _
  · exact setBrakeTimer_run _ _ _
  · exact setBrakeTimer_run _ _ _
  · exact settleBrake_run hk _ _ _
  · exact .refl _
  · exact .refl _
  · exact .refl _

theorem contactsChanged_run (hk : Drives k) (b : BrakeId) (c : Contacts) (s : State) : Run s (contactsChanged k b c s) := by
  unfold contactsChanged
  have a : Run s { s with bsq := { s.bsq with contacts := s.bsq.contacts.set b c } } :=
    .brakesRest s { s.bsq with contacts := s.bsq.contacts.set b c } rfl rfl (.inl rfl)
  dsimp only
  split
  · exact a
  · exact .trans a (readingChanged_run hk _ _ _)

theorem responseExpired_run (hk : Drives k) (b : BrakeId) (s : State) : Run s (responseExpired k b s) := by
  unfold responseExpired
  split
  · exact setBrakeTimer_run _ _ _
  · exact brakeFault_run hk _ _ _

theorem startResponse_run (b : BrakeId) (s : State) : Run s (startResponse b s) := by
  unfold startResponse
  dsimp only
  split
  · exact setBrakeTimer_run _ _ _
  · exact .refl _

/-! ## The stop record -/

theorem stopCommands_run (kind : StopKind) (s : State) : Run s (stopCommands kind s) := by
  unfold stopCommands
  split
  · split
    · exact rawCommand_apply_run _ _
    · exact .refl _
  · exact rawCommand_apply_run _ _
  · exact .trans (rawCommand_apply_run _ _) (rawCommand_apply_run _ _)

/-- The latch is set where EB is commanded APPLY. -/
theorem setLatch_run (kind : StopKind) (cause : StopCause) (s : State)
    (h : kind = .emergency → (s.brake .eb).cmd = .apply) : Run s (setLatch kind cause s) := by
  unfold setLatch
  split
  · exact .brakes s _ id (fun _ _ => h rfl)
  · exact .refl _

theorem emergencyMode_run (hk : Drives k) (kind : StopKind) (s : State) : Run s (emergencyMode k kind s) := by
  unfold emergencyMode
  split
  · exact hk.mode _ _ _ _ (ModeEntry.plain_fits _ _ (.inr (.inr rfl)))
  · exact .refl _

theorem takeStop_run (hk : Drives k) (kind : StopKind) (cause : StopCause) (s : State) : Run s (takeStop k kind cause s) := by
  unfold takeStop
  dsimp only
  refine .trans (hk.abort .stop s) ?_
  generalize k (.abortTest .stop) s = t
  have a : ∀ r, Run t { t with bsq := { t.bsq with stop := some r } } := fun r =>
    .brakesRest t { t.bsq with stop := some r } rfl rfl (.inl rfl)
  refine .trans (a _) (.trans (haulageOnStop_run kind _) (.trans (stopCommands_run kind _)
    (.trans (setLatch_run kind cause _ ?_) (.trans (.post _ _) (.trans (emergencyMode_run hk kind _)
    (.trans (handOverBrakes_run hk _ _) (hk.settle _)))))))
  rintro rfl
  exact rawCommand_cmd .eb .apply _

theorem orderStopNow_run (hk : Drives k) (kind : StopKind) (cause : StopCause) (s : State) :
    Run s (orderStopNow k kind cause s) := by
  unfold orderStopNow
  split
  · exact takeStop_run hk _ _ _
  · exact .refl _

theorem endStop_run (s : State) : Run s (endStop s) := by
  unfold endStop
  split
  · exact .refl _
  · exact .trans (.brakesRest s { s.bsq with stop := none } rfl rfl (.inl rfl)) (.post _ _)

theorem settleNow_run (hk : Drives k) (s : State) : Run s (settleNow k s) := by
  unfold settleNow
  have a : Run s (if s.setDue = true then k (.command .sb .apply) s else s) := by
    split
    · exact hk.command _ _ _
    · exact .refl _
  refine .trans a ?_
  dsimp only
  generalize (if s.setDue = true then k (.command .sb .apply) s else s) = t
  have b : Run t (if (t.hac.state == .stopping && t.ptr.standstill && t.sbApplied) = true then heldFromStopping t else t) := by
    split
    · rename_i h
      refine heldFromStopping_run t ?_
      simp only [Bool.and_eq_true, beq_iff_eq] at h
      exact h.1.1
    · exact .refl _
  refine .trans b ?_
  generalize (if (t.hac.state == .stopping && t.ptr.standstill && t.sbApplied) = true then heldFromStopping t else t) = u
  split
  · exact endStop_run _
  · exact .refl _

theorem interlockNow_run (hk : Drives k) (s : State) : Run s (interlockNow k s) := by
  unfold interlockNow
  split
  · dsimp only
    split
    · exact .trans (hk.stop _ _ _) (hk.command _ _ _)
    · exact .trans (hk.abort _ _) (hk.command _ _ _)
  · exact .refl _

/-- The interlock watch leaves its law. -/
theorem interlockNow_interlocked (hk : Drives k) (s : State) :
    (interlockNow k s).interlocked ∨ (interlockNow k s).overrun = true := by
  unfold interlockNow
  split
  · exact hk.apply _
  · rename_i h
    left
    intro c
    simpa [c] using h

theorem decelerationSample_run (s : State) : Run s (decelerationSample s) := by
  unfold decelerationSample
  have a : Run s { s with bsq := { s.bsq with vHist := keepSpeeds s.ptr.vMeas s.bsq.vHist } } :=
    .brakesRest s { s.bsq with vHist := keepSpeeds s.ptr.vMeas s.bsq.vHist } rfl rfl (.inl rfl)
  refine .trans a ?_
  dsimp only
  split
  · split
    · split
      · exact .brakesRest _ _ rfl rfl (.inl rfl)
      · exact .refl _
    · exact .refl _
    · exact .refl _
    · exact .refl _
  · exact .refl _

theorem checkExpired_run (hk : Drives k) (s : State) : Run s (checkExpired k s) := by
  unfold checkExpired
  split
  · rename_i r _
    split
    · exact .trans (.brakesRest s { s.bsq with stop := some { r with check := .failed } } rfl rfl (.inl rfl)) (hk.stop _ _ _)
    · exact .refl _
    · exact .refl _
    · exact .refl _
  · exact .refl _

theorem assertRail_run (s : State) : Run s (assertRail s) := by
  unfold assertRail
  split
  · exact .refl _
  · exact .trans (.brakesRest s { s.bsq with railTrip := true } rfl rfl (.inl rfl)) (.post _ _)

/-! ## The brake test -/

theorem setTest_run (t : Option BrakeTest) (q : Bool) (s : State) : Run s (setTest t q s) :=
  .brakesRest s { s.bsq with test := t, torqueLine := q } rfl rfl (.inl rfl)

theorem passTest_run (t : BrakeTest) (s : State) : Run s (passTest t s) := .trans (setTest_run _ _ _) (.post _ _)

theorem abortTestNow_run (hk : Drives k) (c : AbortCause) (s : State) : Run s (abortTestNow k c s) := by
  unfold abortTestNow
  split
  · exact .refl _
  · exact .trans (setTest_run none false s) (.trans (hk.command .sb .apply _) (.trans (hk.command .eb .apply _) (.post _ _)))

theorem failTest_run (hk : Drives k) (t : BrakeTest) (s : State) : Run s (failTest k t s) :=
  .trans (setTest_run none false s) (.trans (hk.stop _ _ _) (.post _ _))

theorem testSample_run (hk : Drives k) (s : State) : Run s (testSample k s) := by
  unfold testSample
  split
  · exact .refl _
  · split
    · dsimp only
      split
      · exact failTest_run hk _ _
      · exact setTest_run _ _ _
    · exact .refl _
    · exact .refl _

theorem testProgress_run (hk : Drives k) (s : State) : Run s (testProgress k s) := by
  unfold testProgress
  split
  · exact .refl _
  · dsimp only
    split
    · split
      · split
        · exact setTest_run _ _ _
        · split
          · split
            · exact hk.command _ _ _
            · exact hk.abort _ _
          · exact .refl _
      · exact .refl _
    · split
      · split
        · exact passTest_run _ _
        · split
          · exact hk.command _ _ _
          · exact .refl _
      · exact .refl _
    · exact .refl _
    · exact .refl _

theorem testExpired_run (hk : Drives k) (s : State) : Run s (testExpired k s) := by
  unfold testExpired
  split
  · exact .refl _
  · split
    · split
      · exact passTest_run _ _
      · exact .trans (setTest_run _ _ _) (hk.command _ _ _)
    · exact .refl _
    · exact .refl _

/-! ## The ends of a trip and the hand-over of brake states -/

theorem departed_run (s : State) (h : s.hac.state = .releasing) : Run s (departed s) := by
  unfold departed
  have n : s.hac.state ≠ .held := by rw [h]; decide
  exact .trans (setHaulage_run .motoring s (fun l => ⟨fun x => (by cases x), fun _ => l.2.2.2.1 n, fun _ => .inl n⟩))
    (.post _ _)

theorem setWindow_hac (g : Group) (w : Window) (c : WindowCause) (s : State) : (setWindow g w c s).hac = s.hac := by
  unfold setWindow
  dsimp only
  split
  · rfl
  · rw [post_hac]

theorem forEach_hac {α : Type} (l : List α) (f : α → State → State) (h : ∀ a s, (f a s).hac = s.hac) (s : State) :
    (forEach l f s).hac = s.hac := by
  unfold forEach
  induction l generalizing s with
  | nil => rfl
  | cons a l ih => exact (ih (f a s)).trans (h a s)

theorem setHaulage_state (new : HState) (s : State) : (setHaulage new s).hac.state = new := by
  unfold setHaulage
  dsimp only
  split
  · rename_i h; exact by simpa using h
  · split
    · unfold shutSealedWindows
      rw [forEach_hac]
      · rfl
      · intro g t
        split
        · exact setWindow_hac _ _ _ _
        · rfl
    · rfl

theorem arrivePlan_run (s : State) : Run s (arrivePlan s) := by
  unfold arrivePlan
  refine .haulRest s _ rfl rfl rfl rfl (fun p => ?_)
  show (if s.hac.legMark = true then s.hac.plan.tail else s.hac.plan).length ≤ _
    ∧ List.IsChain _ (if s.hac.legMark = true then s.hac.plan.tail else s.hac.plan)
  split
  · exact planLaw_tail _ p
  · exact p

theorem berthArrive_run (hk : Drives k) (s : State) (h : s.hac.state = .berthing) : Run s (berthArrive k s) := by
  unfold berthArrive
  dsimp only
  have tail : ∀ (b : Berth) (u : State), Run u (match b.stop with
      | some i => autoRelease k i b.onA b.onB u
      | none => u) := by
    intro b u
    split
    · exact autoRelease_run hk _ _ _ _
    · exact .refl _
  exact .trans (setHaulage_run .held s (fun l => ⟨fun _ => l.1 (by rw [h]; rfl), fun e => absurd rfl e,
    fun e => absurd rfl e⟩)) (.trans (setBerth_run _ _ (fun _ e => absurd (setHaulage_state .held s) e))
    (.trans (arrivePlan_run _) (.trans (.post _ _) (tail _ _))))

theorem haulageOnBrakes_run (hk : Drives k) (s : State) : Run s (haulageOnBrakes k s) := by
  unfold haulageOnBrakes
  split
  · rename_i h
    split
    · exact departed_run s h
    · exact .refl _
  · rename_i h
    split
    · exact berthArrive_run hk s h
    · exact .refl _
  all_goals exact .refl _

theorem brakesChangedNow_run (hk : Drives k) (s : State) : Run s (brakesChangedNow k s) :=
  .trans (haulageOnBrakes_run hk s) (.trans (hk.settle _) (.trans (testProgress_run hk _) (warmingCheck_run hk _)))

/-! ## The Overspeed Supervisor -/

theorem levelOrder_run (hk : Drives k) (l : Level) (s : State) : Run s (levelOrder k l s) := by
  unfold levelOrder
  split
  · exact .refl _
  · exact .refl _
  · exact hk.stop _ _ _
  · exact hk.stop _ _ _
  · exact .trans (hk.stop _ _ _) (assertRail_run _)

/-- The results stored and the reference cut to the new v_perm, as one change. -/
theorem storeAndCut_run (r : EnvelopeResult) (acc : Nat) (exceeds : Bool) (s : State) :
    Run s (cutReference r.vPerm (storeEvaluation r acc exceeds s)) := by
  unfold cutReference
  split
  · rename_i lt
    have lt' : r.vPerm < s.hac.vRef := lt
    have cut : Run s { storeEvaluation r acc exceeds s with hac := { s.hac with vRef := r.vPerm } } := by
      refine .haul s { s.hac with vRef := r.vPerm } _ ?_ id id
      intro l
      refine ⟨fun h => ?_, fun h => l.2.1 (by have := (show r.vPerm ≠ 0 from h); omega), Nat.le_refl _, l.2.2.2⟩
      have := (l.1 h).1
      omega
    refine .trans cut (.trans (sendWord_run _) ?_)
    dsimp only
    split
    · rename_i c
      refine enterStopping_run _ ?_
      have m := (Bool.and_eq_true _ _ ▸ c : _ ∧ _).2
      intro e
      have e' : s.hac.state = .held := e
      have m' : (s.hac.state != .held) = true := m
      rw [e'] at m'
      exact absurd m' (by decide)
    · exact .refl _
  · rename_i ge
    refine .haul s s.hac _ ?_ id id
    intro l
    exact ⟨l.1, l.2.1, Nat.le_of_not_lt ge, l.2.2.2⟩

theorem evaluate_run (hk : Drives k) (p : LineFields) (t : Int) (s : State) : Run s (evaluate k p t s) := by
  unfold evaluate
  dsimp only
  generalize hx : (decide (200 < accumulate s t) && (s.osp.fresh || !s.osp.ordered)) = exceeds
  refine .trans (storeAndCut_run (s.envelope p) (accumulate s t) exceeds s) (.trans (hk.settle _) ?_)
  generalize k .settle (cutReference (s.envelope p).vPerm (storeEvaluation (s.envelope p) (accumulate s t) exceeds s)) = u
  have a : Run u (if decide (s.osp.level.rank < (s.envelope p).level.rank) = true then
      levelOrder k (s.envelope p).level u else u) := by
    split
    · exact levelOrder_run hk _ _
    · exact .refl _
  refine .trans a ?_
  generalize (if decide (s.osp.level.rank < (s.envelope p).level.rank) = true then
      levelOrder k (s.envelope p).level u else u) = v
  split <;> split <;>
    first
    | exact .refl _
    | exact .post _ _
    | exact .trans (hk.stop _ _ _) (.post _ _)
    | exact .trans (.post _ _) (.trans (hk.stop _ _ _) (.post _ _))

end Sys2Proof.Machine
end

