-- ==== Sys2Proof/Laws/RunAct.lean ====
section
/-! SUPPORT. A position sample as a run, and every hand-over, nested as deeply as the model follows (chapter 1, assumption log 3). -/

namespace Sys2Proof.Machine

variable {k : Hand}

/-! ## The position sample -/

theorem crossCheck_run (hk : Drives k) (p : LineFields) (w : Bool) (s : State) : Run s (crossCheck k p w s) := by
  unfold crossCheck
  dsimp only
  split <;> split <;>
    first
    | exact .refl _
    | exact bumpHealth_run hk _ _ _
    | exact loseValidity_run hk _ _ _ _
    | exact .trans (bumpHealth_run hk _ _ _) (loseValidity_run hk _ _ _ _)

theorem setPosition_run (p : LineFields) (t : Int) (v : Validity) (c : PositionCause) (sw : LineEnd) (s : State) :
    Run s (setPosition p t v c sw s) := .trans (.track s _) (.post _ _)

theorem homeAt_run (p : LineFields) (sw : LineEnd) (s : State) : Run s (homeAt p sw s) :=
  .trans (setPosition_run _ _ _ _ _ _) (homedWhileHeld_run _ _)

theorem oneSwitch_run (hk : Drives k) (p : LineFields) (sw : LineEnd) (b d : Bool) (s : State) :
    Run s (oneSwitch k p sw b d s) := by
  unfold oneSwitch
  dsimp only
  split
  · exact homeAt_run _ _ _
  · split
    · split
      · exact setPosition_run _ _ _ _ _ _
      · split
        · exact setPosition_run _ _ _ _ _ _
        · exact .trans (bumpHealth_run hk _ _ _) (loseValidity_run hk _ _ _ _)
    · exact .refl _

theorem doubleTerminal_run (hk : Drives k) (s : State) : Run s (doubleTerminal k s) := by
  unfold doubleTerminal
  dsimp only
  split
  · exact .trans (bumpHealth_run hk _ _ _) (loseValidity_run hk _ _ _ _)
  · exact .trans (bumpHealth_run hk _ _ _) (.post _ _)

theorem terminalSwitches_run (hk : Drives k) (p : LineFields) (a b : Switches) (f d : Bool) (s : State) :
    Run s (terminalSwitches k p a b f d s) := by
  unfold terminalSwitches
  dsimp only
  split
  · split
    · exact .refl _
    · exact doubleTerminal_run hk _
  · split
    · exact homeAt_run _ _ _
    · exact oneSwitch_run hk _ _ _ _ _
  · split
    · exact homeAt_run _ _ _
    · exact oneSwitch_run hk _ _ _ _ _
  · exact .refl _

theorem overtravel_run (hk : Drives k) (sw : LineEnd) (s : State) : Run s (overtravel k sw s) :=
  .trans (hk.stop _ _ _) (.post _ _)

theorem overtravelSwitches_run (hk : Drives k) (a b : Switches) (s : State) : Run s (overtravelSwitches k a b s) := by
  unfold overtravelSwitches
  dsimp only
  split <;> split <;>
    first
    | exact .refl _
    | exact overtravel_run hk _ _
    | exact .trans (overtravel_run hk _ _) (overtravel_run hk _ _)

theorem onSample_run (hk : Drives k) (t : Int) (s : State) : Run s (onSample k t s) := by
  unfold onSample
  have tail : ∀ u : State, Run u (k .settle (testSample k (decelerationSample u))) := fun u =>
    .trans (decelerationSample_run u) (.trans (testSample_run hk _) (hk.settle _))
  dsimp only
  split
  · split
    · exact .trans (evaluate_run hk _ _ _) (tail _)
    · exact tail _
  · exact tail _

theorem sample_run (hk : Drives k) (now : Switches) (s : State) : Run s (sample k now s) := by
  unfold sample
  have a : Run s (readSwitches now s) := .track s _
  dsimp only
  refine .trans a ?_
  generalize readSwitches now s = u
  split
  · exact .trans (overtravelSwitches_run hk _ _ _) (onSample_run hk _ _)
  · rename_i p _
    exact .trans (.track u (u.ptr.locate p)) (.trans (crossCheck_run hk _ _ _) (.trans (.track _ _)
      (.trans (terminalSwitches_run hk _ _ _ _ _ _) (.trans (overtravelSwitches_run hk _ _ _) (onSample_run hk _ _)))))

/-! ## Hand-overs -/

/-- One hand-over, given how it reaches the others. -/
theorem act_run (hk : Drives k) (a : Act) (s : State) (h : a.Fits s) : Run s (act k a s) := by
  cases a with
  | orderStop kind cause => exact orderStopNow_run hk _ _ _
  | command b c => exact commandBrake_run hk _ _ _
  | brakesChanged => exact brakesChangedNow_run hk _
  | settle => exact settleNow_run hk _
  | interlock => exact interlockNow_run hk _
  | abortTest cause => exact abortTestNow_run hk _ _
  | sideTo c d r e cause => exact sideToNow_run hk _ _ _ _ _ _
  | closeSide c d => exact closeSideNow_run hk _ _ _
  | sealWindow g cause => exact sealWindowNow_run hk _ _ _
  | changeMode e cause unmet => exact changeModeNow_run hk _ _ _ _ h
  | freshness c f => exact freshnessNow_run hk _ _ _

/-- Hand-overs nested to any depth. -/
theorem run_drives (n : Nat) : Drives (run n) := by
  induction n with
  | zero => exact ⟨fun _ s _ => .overrun s, fun _ => .inr rfl, fun _ => .inr rfl, fun _ _ _ _ _ _ => .inr rfl⟩
  | succ n ih =>
    exact ⟨fun a s h => act_run ih a s h, fun s => interlockNow_interlocked ih s, fun s => commandBrake_interlocked ih s,
      fun e c u s n h => changeModeNow_unforced ih e c u s h n⟩

/-- The hand-overs of a step. -/
theorem cascade_drives : Drives cascade := run_drives _

end Sys2Proof.Machine
end

