-- ==== Sys2Proof/Laws/RunRequest.lean ====
section
/-! SUPPORT. The owners' handling of every request as a run (sections 10.1 and 10.5). -/

namespace Sys2Proof.Machine

/-- A handling that is a run. -/
abbrev Handler.Runs (h : Handler) : Prop := ∀ s, Run s (h s).1

/-- A change of the link that leaves its places, lists and counts. -/
theorem port_run (s : State) (l : Link) (h1 : l.waiting = s.slp.waiting) (h2 : l.unhandled = s.slp.unhandled)
    (h3 : l.queue = s.slp.queue) (h4 : l.lost = s.slp.lost) (h5 : l.sending = s.slp.sending) : Run s { s with slp := l } :=
  .port s l ⟨h1, h2, h3, h4, h5⟩

/-! ## Chapter 1 -/

theorem newCapacity_run (old : Option LineFields) (f : LineFields) (s : State) : Run s (newCapacity old f s) := by
  unfold newCapacity
  split
  · exact .refl _
  · exact .tally s _ (fun _ => ⟨Nat.zero_le _, Nat.zero_le _⟩)

theorem startDoorTimer_run (c : Car) (d : Side) (s : State) : Run s (startDoorTimer c d s) := by
  unfold startDoorTimer
  dsimp only
  split
  · split
    · exact .setSide s c d _ rfl
    · exact .refl _
  · split
    · exact .setSide s c d _ rfl
    · exact .refl _
  · split
    · exact .setSide s c d _ rfl
    · exact .refl _
  · split
    · exact .setSide s c d _ rfl
    · exact .refl _
  all_goals exact .refl _

theorem startTimers_run (s : State) : Run s (startTimers s) :=
  .trans (startResponse_run _ _) (.trans (startResponse_run _ _)
    (.forEach _ _ (fun c t => .forEach _ _ (fun d u => startDoorTimer_run c d u) t) _))

theorem axisChanged_run (s : State) : Run s (axisChanged s) := by
  unfold axisChanged
  exact .trans (loseValidity_run cascade_drives _ _ _ _) (.trans (.track _ _) (setBerth_run _ _ (fun _ _ => rfl)))

theorem configure_run (f : LineFields) (s : State) (h : firstFault (lineChecks f) = none) : Run s (configure f s) := by
  unfold configure
  have a : Run s { s with line := some f } := by
    refine .config s (some f) s.segs s.stops s.markers (fun l => ⟨?_, l.2⟩)
    intro p hp
    rw [← Option.mem_some_iff.1 hp]; exact h
  dsimp only
  split
  · exact .trans a (.trans (newCapacity_run _ _ _) (startTimers_run _))
  · split
    · exact .trans a (.trans (newCapacity_run _ _ _) (axisChanged_run _))
    · exact .trans a (newCapacity_run _ _ _)

theorem handleConfigureLine_run (f : LineFields) : (handleConfigureLine f).Runs := by
  intro s
  unfold handleConfigureLine
  split
  · split
    · exact .refl _
    · exact configure_run f s ‹_›
  · exact .refl _

theorem handleLoadSegments_run (l : List SegmentFields) : (handleLoadSegments l).Runs := by
  intro s
  unfold handleLoadSegments
  split
  · split
    · exact .refl _
    · rename_i h
      refine .config s s.line _ s.stops s.markers (fun c => ⟨c.1, ?_, ?_, c.2.2.2⟩)
      · show (sortSegments _).length ≤ 32
        rw [(sortSegments_spec _).2, List.length_map]
        exact segmentsFault_none h
      · exact (sortSegments_spec _).1
  · exact .refl _

theorem storeStops_run (l : List StopRec) (s : State) (h : l.length ≤ 6 ∧ (l.map StopRec.index).Nodup) :
    Run s (storeStops l s) := by
  unfold storeStops
  have a : Run s { s with stops := l } :=
    .config s s.line s.segs l s.markers (fun c => ⟨c.1, c.2.1, c.2.2.1, h.1, h.2, c.2.2.2.2.2⟩)
  have b : Run { s with stops := l } { s with stops := l, hac := { s.hac with plan := [], legMark := false } } :=
    .haulRest { s with stops := l } { s.hac with plan := [], legMark := false } rfl rfl rfl rfl
      (fun _ => ⟨Nat.zero_le _, List.IsChain.nil⟩)
  exact .trans a (.trans b (setBerth_run _ _ (fun _ _ => rfl)))

theorem handleLoadStops_run (l : List StopFields) : (handleLoadStops l).Runs := by
  intro s
  unfold handleLoadStops
  split
  · split
    · exact .refl _
    · rename_i h
      exact storeStops_run _ s ⟨by rw [List.length_map]; exact (stopsFault_none h).1, (stopsFault_none h).2⟩
  · exact .refl _

theorem handleLoadMarkers_run (l : List MarkerFields) : (handleLoadMarkers l).Runs := by
  intro s
  unfold handleLoadMarkers
  split
  · split
    · exact .refl _
    · rename_i h
      refine .config s s.line s.segs s.stops _ (fun c => ⟨c.1, c.2.1, c.2.2.1, c.2.2.2.1, c.2.2.2.2.1, ?_,
        (markersFault_none h).2⟩)
      show (l.map markerOf).length ≤ 16
      rw [List.length_map]
      exact (markersFault_none h).1
  · exact .refl _

/-! ## Chapter 2 -/

theorem handlePlanSet_run (l : List Nat) : (handlePlanSet l).Runs := by
  intro s
  unfold handlePlanSet
  split
  · exact .refl _
  · split
    · exact .refl _
    · rename_i h
      exact .haulRest s { s.hac with plan := l, legMark := false } rfl rfl rfl rfl (fun _ => planFault_none h)

theorem handlePlanAppend_run (i : Nat) : (handlePlanAppend i).Runs := by
  intro s
  unfold handlePlanAppend
  split
  · exact .refl _
  · split
    · exact .refl _
    · split
      · exact .refl _
      · rename_i room next
        refine .haulRest s { s.hac with plan := s.hac.plan ++ [i] } rfl rfl rfl rfl (fun p => ⟨?_, ?_⟩)
        · show (s.hac.plan ++ [i]).length ≤ _
          rw [List.length_append, List.length_singleton]
          omega
        · refine List.isChain_append.2 ⟨p.2, List.isChain_singleton i, ?_⟩
          intro x hx y hy e
          simp only [List.head?_cons, Option.mem_some_iff] at hy
          subst hy
          subst e
          refine next ?_
          unfold State.predecessor
          rw [Option.mem_def.1 hx]

theorem handlePlanClear_run : handlePlanClear.Runs := fun s =>
  .haulRest s { s.hac with plan := [], legMark := false } rfl rfl rfl rfl (fun _ => ⟨Nat.zero_le _, List.IsChain.nil⟩)

theorem setBerth_berth (b : Berth) (s : State) : (setBerth b s).hac.berth = b := by
  unfold setBerth; split <;> first | assumption | rfl

theorem setBerth_keeps (b : Berth) (s : State) :
    (setBerth b s).hac.state = s.hac.state ∧ (setBerth b s).lmu = s.lmu := by
  unfold setBerth; split <;> exact ⟨rfl, rfl⟩

theorem departTo_run (r : StopRec) (s : State) (h : s.hac.state = .held) (m : s.lmu.mode.runs = true) :
    Run s (departTo cascade r s) := by
  unfold departTo
  have a : Run s { s with hac := { s.hac with
      dest := some r.index, legMark := true, tripDir := directionTo r.pos s.ptr.x } } :=
    .haulRest s { s.hac with dest := some r.index, legMark := true, tripDir := directionTo r.pos s.ptr.x } rfl rfl rfl rfl id
  dsimp only
  refine .trans a ?_
  generalize hu : ({ s with hac := { s.hac with
      dest := some r.index, legMark := true, tripDir := directionTo r.pos s.ptr.x } } : State) = u
  have hs : u.hac.state = .held := by rw [← hu]; exact h
  have hm : u.lmu.mode.runs = true := by rw [← hu]; exact m
  have b : Run u (setHaulage .releasing (setBerth .offStop u)) := by
    refine .trans (setBerth_run _ _ (fun _ _ => rfl)) (setHaulage_run _ _ (fun l => ⟨fun _ => l.1 ?_, ?_, ?_⟩))
    · rw [(setBerth_keeps _ _).1, hs]; rfl
    · exact fun _ => setBerth_berth _ _
    · exact fun _ => .inr (by rw [(setBerth_keeps _ _).2]; exact hm)
  split
  · exact b
  · exact .trans b (cascade_drives.command _ _ _)

/-- Where no name is present, no condition holds. -/
theorem namesPresent_nil {α : Type} {l : List (Bool × α)} (h : namesPresent l = []) : ∀ x ∈ l, x.1 = false := by
  unfold namesPresent at h
  rw [List.map_eq_nil_iff, List.filter_eq_nil_iff] at h
  intro x hx
  simpa using h x hx

theorem handleDepart_run : handleDepart.Runs := by
  intro s
  unfold handleDepart
  split
  · exact .refl _
  · rename_i m
    split
    · rename_i h _
      refine departTo_run _ s (by simpa [State.moving] using m) ?_
      have := namesPresent_nil h _ List.mem_cons_self
      simpa using this
    · exact .refl _

theorem handleStop_run : handleStop.Runs := by
  intro s
  unfold handleStop
  dsimp only
  split
  · exact cascade_drives.stop _ _ _
  · exact .refl _

/-! ## Chapter 3 -/

theorem handleTsrAdd_run (id start stop speed : Nat) : (handleTsrAdd id start stop speed).Runs := by
  intro s
  unfold handleTsrAdd
  split
  · exact .refl _
  · rename_i h
    dsimp only
    split
    · exact .refl _
    · rename_i room
      refine .haul s s.hac _ (fun l => l) (fun p => p) (fun t => ?_)
      have g := firstFault_none.1 h
      have g1 := range_good (g (.range id 1 255 0) (by simp [tsrChecks]))
      have g3 := range_good (g (.range stop (start + 1) Config.maxPosition 5) (by simp [tsrChecks]))
      refine addTsr_law t { id := id, start := start, stop := stop, speed := s.tsrSpeed speed }
        ⟨g1.1, g1.2, g3.1, Nat.le_max_left _ _⟩ ?_
      show s.osp.tsrs.any (fun t => t.id == id) = true ∨ s.osp.tsrs.length < Config.tsrPlaces
      cases e : s.osp.tsrs.any (fun t => t.id == id)
      · right
        rw [e] at room
        simpa using room
      · exact .inl rfl

theorem handleTsrRemove_run (id : Nat) : (handleTsrRemove id).Runs := by
  intro s
  unfold handleTsrRemove
  split
  · exact .haul s s.hac _ (fun l => l) (fun p => p) (fun t => (removeTsr_law id t).1)
  · exact .refl _

/-! ## Chapter 4 -/

theorem clearFault_run (b : BrakeId) (s : State) : Run s (clearFault b s) := by
  unfold clearFault
  split
  · have a : Run s (s.setBrake b { s.brake b with state := .applied, timer := none }) := .setBrake s b _ rfl
    exact .trans a (.post _ _)
  · exact .refl _

theorem tripReset_run {k : Hand} (hk : Drives k) (s : State) : Run s (tripReset k s) := by
  unfold tripReset
  dsimp only
  refine .trans (clearFault_run .sb s) (.trans (clearFault_run .eb _) ?_)
  generalize clearFault .eb (clearFault .sb s) = u
  have a : Run u { u with bsq := { u.bsq with latch := none, railTrip := false } } :=
    .brakesRest u { u.bsq with latch := none, railTrip := false } rfl rfl (.inr rfl)
  exact .trans a (.trans (handOverBrakes_run hk _ _) (.trans (hk.settle _) (.trans (hk.command _ _ _)
    (.trans (hk.mode _ _ _ _ (ModeEntry.plain_fits _ _ (.inr (.inl rfl)))) (.post _ _)))))

theorem handleTripReset_run : handleTripReset.Runs := by
  intro s
  unfold handleTripReset
  split
  · exact tripReset_run cascade_drives s
  · exact .refl _

theorem startTest_run {k : Hand} (hk : Drives k) (b : BrakeId) (s : State) : Run s (startTest k b s) := by
  unfold startTest
  dsimp only
  split
  · exact .trans (setTest_run _ _ _) (.trans (.post _ _) (setTest_run _ _ _))
  · exact .trans (setTest_run _ _ _) (.trans (.post _ _) (hk.command _ _ _))

theorem handleBrakeTest_run (b : Nat) : (handleBrakeTest b).Runs := by
  intro s
  unfold handleBrakeTest
  split
  · exact .refl _
  · split
    · exact .refl _
    · split
      · exact startTest_run cascade_drives _ s
      · exact .refl _

/-! ## Chapter 5 -/

theorem clearAlarm_run (c : Car) (s : State) : Run s (clearAlarm c s) := by
  unfold clearAlarm
  split
  · have a : Run s (s.setCar c { s.car c with alarm := false }) := .setCar s c _ rfl
    exact .trans a (reportAlarm_run _ _)
  · exact .refl _

theorem handleAlarmClear_run (car : Nat) : (handleAlarmClear car).Runs := by
  intro s
  unfold handleAlarmClear
  split
  · exact .refl _
  · split
    · exact .refl _
    · split
      · exact .refl _
      · exact clearAlarm_run _ s

theorem setRoute_run (r : AlarmRoute) (s : State) (h : s.clu.route.law → r.law) : Run s (setRoute r s) :=
  .cars s _ id h

/-- A route with destinations added still holds one (R100). -/
theorem route_add_law (r d : AlarmRoute) (h : r.law) : (r.add d).law := by
  obtain ⟨a, b, c⟩ := r
  obtain ⟨x, y, z⟩ := d
  simp only [AlarmRoute.law, AlarmRoute.isEmpty, AlarmRoute.add] at h ⊢
  cases a <;> cases b <;> cases c <;> simp_all

/-- A route with destinations removed is never left empty (R100). -/
theorem route_remove_law (r d : AlarmRoute) (h : r.law) : (r.remove d).law := by
  obtain ⟨a, b, c⟩ := r
  obtain ⟨x, y, z⟩ := d
  revert h
  revert a b c x y z
  decide

theorem handleAlarmRouteSet_run (d : Nat) : (handleAlarmRouteSet d).Runs := fun s =>
  setRoute_run _ s (route_add_law _ _)

theorem handleAlarmRouteClear_run (d : Nat) : (handleAlarmRouteClear d).Runs := fun s =>
  setRoute_run _ s (route_remove_law _ _)

/-! ## Chapter 6 -/

theorem releaseAnswer_run (c : Car) (d : Side) (kind : ReleaseKind) (stop : Option Nat) :
    (releaseAnswer c d kind stop).Runs := by
  intro s
  unfold releaseAnswer
  have hk := cascade_drives
  generalize cascade = k at hk ⊢
  split
  · exact hk.side _ _ _ _ _ _
  · exact .refl _

theorem withSide_run (car side : Nat) (f : Car → Side → Handler) (h : ∀ c d, (f c d).Runs) : (withSide car side f).Runs := by
  intro s
  unfold withSide
  split
  · exact .refl _
  · exact .refl _
  · exact h _ _ s

theorem handleDoorRelease_run (car side : Nat) : (handleDoorRelease car side).Runs := by
  refine withSide_run _ _ _ (fun c d s => ?_)
  split
  · exact releaseAnswer_run _ _ _ _ s
  · exact .refl _

theorem handleEvacRelease_run (car side : Nat) : (handleEvacRelease car side).Runs := by
  refine withSide_run _ _ _ (fun c d s => ?_)
  split
  · exact releaseAnswer_run _ _ _ _ s
  · exact .refl _

theorem closeAnswer_run (c : Car) (d : Side) (m : Bool) : (closeAnswer c d m).Runs := by
  intro s
  unfold closeAnswer
  have hk := cascade_drives
  generalize cascade = k at hk ⊢
  exact hk.side _ _ _ _ _ _

theorem closeFaulted_run (c : Car) (d : Side) : (closeFaulted c d).Runs := by
  intro s
  unfold closeFaulted
  split
  · exact .refl _
  · split
    · have hk := cascade_drives
      generalize cascade = k at hk ⊢
      exact hk.side _ _ _ _ _ _
    · split
      · exact closeAnswer_run _ _ _ s
      · exact .refl _

theorem handleDoorClose_run (car side : Nat) : (handleDoorClose car side).Runs := by
  refine withSide_run _ _ _ (fun c d s => ?_)
  split
  · exact .refl _
  · exact .refl _
  · exact closeAnswer_run _ _ _ s
  · exact closeAnswer_run _ _ _ s
  · exact closeAnswer_run _ _ _ s
  · split
    · exact closeAnswer_run _ _ _ s
    · exact .refl _
  · exact closeFaulted_run _ _ s

/-! ## Chapter 7 -/

theorem handlePassInsert_run (l : List PassFields) : (handlePassInsert l).Runs := by
  intro s
  unfold handlePassInsert
  split
  · exact .refl _
  · exact .pass s _ (fun t => insertAll_law l 0 _ t)

theorem handlePassDelete_run (l : List Nat) : (handlePassDelete l).Runs := by
  intro s
  unfold handlePassDelete
  split
  · exact .refl _
  · exact .pass s _ (fun t => deleteRun_law l _ t)

theorem handleBlock_run {f : PassEntry → Option PassEntry} (k : KeepsEntry f) (l : List Nat) : (handleBlock f l).Runs := by
  intro s
  unfold handleBlock
  split
  · exact .refl _
  · exact .pass s _ (fun t => blockRun_law k l _ t)

theorem handlePassRead_run (id : Nat) : (handlePassRead id).Runs := by
  intro s
  unfold handlePassRead
  split
  · exact .refl _
  · split <;> exact .refl _

theorem handleSetDay_run (d : Nat) : (handleSetDay d).Runs := by
  intro s
  unfold handleSetDay
  dsimp only
  split
  · exact .refl _
  · split
    · exact .refl _
    · exact .pass s _ (fun t => PassTable.forward_law t d)

/-! ## Chapter 8 -/

theorem dropAccess_run (s : State) : Run s (dropAccess cascade s) := by
  unfold dropAccess
  refine .forEach _ _ (fun i t => ?_) _
  split
  · exact completeAccess_run cascade_drives _ _ _ _
  · exact .refl _

theorem loadGates_run (l : List GateFields) (s : State) (h : gatesFault l = none) : Run s (loadGates cascade l s) := by
  unfold loadGates
  have a : Run s { s with glm := { s.glm with gates := freshGates l } } :=
    .gates s { s.glm with gates := freshGates l } (fun q => ⟨freshGates_rising l (gatesFault_none h).2, q.2⟩)
  dsimp only
  split
  · exact .trans a (.trans (dropAccess_run _) (pollNext_run _))
  · exact .trans a (dropAccess_run _)

theorem handleLoadGates_run (l : List GateFields) : (handleLoadGates l).Runs := by
  intro s
  unfold handleLoadGates
  split
  · split
    · exact .refl _
    · exact loadGates_run l s ‹_›
  · exact .refl _

theorem extendDwell_run (g : Group) (n : Nat) (s : State) : Run s (extendDwell g n s) := .gatesRest s _ rfl rfl

theorem handleBoardingExtend_run (g n : Nat) : (handleBoardingExtend g n).Runs := by
  intro s
  unfold handleBoardingExtend
  split
  · exact .refl _
  · split
    · split
      · exact extendDwell_run _ _ s
      · exact .refl _
    · exact .refl _

theorem handleBoardingClose_run (g : Nat) : (handleBoardingClose g).Runs := by
  intro s
  unfold handleBoardingClose
  split
  · exact .refl _
  · exact cascade_drives.seal _ _ _

theorem answerEntry_good {p : Nat} {e : PassFields} {t : Option Nat} {o : PassOffer}
    (h : answerEntry p e t = .ok (some o)) : o.Good := by
  unfold answerEntry at h
  split at h
  · cases h
  · split at h
    · cases h
    · rename_i e'
      split at h
      · cases h
      · injection h with h
        injection h with h
        subst h
        exact offerOf_good e'

theorem insertAnswer_run (o : Option PassOffer) (h : ∀ x, o = some x → x.Good) (s : State) : Run s (insertAnswer o s).1 := by
  unfold insertAnswer
  split
  · exact .refl _
  · rename_i x
    exact .pass s _ (fun l => PassTable.insert_law l (h x rfl))

theorem refuseQuery_run (a : Nat) (car : Option Car) (t : Nat) (r : RefuseReason) (s : State) :
    Run s (refuseQuery a car t r s).1 := .trans (refuseAt_run _ _ _ _ _ _ _) (gateToRest_run _ _ _)

theorem admitAs_run (a : Nat) (g : GateRec) (t : Nat) (s : State) : Run s (admitAs a g t s).1 := by
  unfold admitAs
  dsimp only
  split
  · split
    · exact refuseQuery_run _ _ _ _ _
    · rename_i c _ _ _ e _
      have j := judgeSeats_run a g.group c t e.seats s
      split
      · rename_i h; rw [h] at j; exact j
      · rename_i h; rw [h] at j; exact .trans j (gateToRest_run _ _ _)
  · exact refuseQuery_run _ _ _ _ _

theorem answerQuery_run (a : Nat) (g : GateRec) (t v : Nat) (o : Option PassOffer) (h : ∀ x, o = some x → x.Good) :
    (answerQuery cascade a g t v o).Runs := by
  intro s
  unfold answerQuery
  dsimp only
  refine .trans (.onGate a (fun h => { h with queryTimer := none, queryTicket := none }) s) ?_
  generalize onGate a (fun h => { h with queryTimer := none, queryTicket := none }) s = u
  refine .trans (insertAnswer_run o h u) ?_
  generalize (insertAnswer o u).1 = w
  split
  · exact .trans (admitAs_run _ _ _ _) (examineWindow_run cascade_drives _ _)
  · exact .trans (refuseQuery_run _ _ _ _ _) (examineWindow_run cascade_drives _ _)

theorem matchAnswer_run (a q v : Nat) (o : Option PassOffer) (h : ∀ x, o = some x → x.Good) :
    (matchAnswer cascade a q v o).Runs := by
  intro s
  unfold matchAnswer
  split
  · exact .refl _
  · split
    · exact answerQuery_run _ _ _ _ _ h s
    · split
      · exact insertAnswer_run o h s
      · exact .refl _

theorem handleTicketAnswer_run (g q v p : Nat) (e : PassFields) : (handleTicketAnswer g q v p e).Runs := by
  intro s
  unfold handleTicketAnswer
  split
  · exact .refl _
  · split
    · exact .refl _
    · rename_i o h
      exact matchAnswer_run _ _ _ _ (fun x hx => answerEntry_good (by rw [h, hx])) s

theorem staffAdmission_run (a : Nat) (c : Car) (i : SlotId) (s : State) : Run s (staffAdmission a c i s) :=
  .trans (makeAdmission_run _ _ _ _ _ _) (admissionReport_run _ _ _ _ _ _ _ _ _ _)

theorem acceptAccess_run (i : SlotId) (g : GateRec) (c : AccessCommand) (arg : Nat) (s : State) :
    Run s (acceptAccess i g c arg s) := by
  unfold acceptAccess
  dsimp only
  split
  · exact .post _ _
  · split
    · split
      · exact .trans (staffAdmission_run _ _ _ _) (setSlots_run _ _)
      · exact .post _ _
    all_goals exact setSlots_run _ _

theorem handleGateAccess_run (i g c a : Nat) : (handleGateAccess i g c a).Runs := by
  intro s
  unfold handleGateAccess
  split
  · exact .refl _
  · exact .refl _
  · exact .refl _
  · split
    · exact .refl _
    · split
      · exact .refl _
      · exact acceptAccess_run _ _ _ _ s

/-! ## Chapter 9 -/

theorem sameMode_run (v : Variant) : (sameMode cascade v).Runs := by
  intro s
  unfold sameMode
  split
  · rename_i h
    refine changeVariant_run cascade_drives v s ?_
    have := (Bool.and_eq_true _ _ ▸ h : _ ∧ _).1
    simpa using this
  · exact .refl _

/-- What SET_MODE enters fits the state it is made in (R168). -/
theorem entryOf_fits (s : State) (t : Mode) (v : Variant) (c : ModeConditions) (h : s.modeChangeAllowed t = some c)
    (r : s.modeReasons c = []) (f : t = .service → s.lmu.health.forcing.any = false) : (entryOf s.lmu.mode t v).Fits s := by
  have hc : modeChange s.lmu.mode t = some c := by
    unfold State.modeChangeAllowed at h
    split at h
    · cases h
    · exact h
  have held : c.held = true → s.hac.state = .held := by
    intro e
    have := namesPresent_nil r _ List.mem_cons_self
    rw [e] at this
    simpa [State.moving] using this
  generalize hm : s.lmu.mode = m at hc
  have idle : m = .init ∨ m = .parked → s.haulageLaw → s.hac.state = .held := by
    intro e l
    refine l.2.2.2.2 ?_
    rw [hm]
    rcases e with e | e
    · exact .inl e
    · exact .inr (.inl e)
  cases m <;> cases t <;> first | (cases hc; done) | skip
  all_goals
    injection hc with hc
    subst hc
    refine ⟨by simp [entryOf, ModeEntry.plain], by simp [entryOf, ModeEntry.plain, warmTargetOf], ?_, ?_, ?_⟩
    · first
      | exact fun _ => f rfl
      | (intro e; exact absurd e (by simp [entryOf, ModeEntry.plain]))
    · first
      | exact fun _ _ => held rfl
      | exact fun _ l => idle (.inl rfl) l
      | exact fun _ l => idle (.inr rfl) l
      | (intro e; exact absurd e (by simp [entryOf, ModeEntry.plain]))
    · first
      | exact fun _ => .inl hm
      | exact fun _ => .inr hm
      | (intro e; exact absurd e (by simp [entryOf, ModeEntry.plain]))

theorem otherMode_run (t : Mode) (v : Variant) : (otherMode cascade t v).Runs := by
  intro s
  unfold otherMode
  split
  · exact .refl _
  · rename_i c h
    split
    · exact .refl _
    · rename_i f
      split
      · exact .refl _
      · split
        · rename_i r
          refine cascade_drives.mode _ _ _ _ (entryOf_fits s t v c h r (fun e => ?_))
          subst e
          simpa using f
        · exact .refl _

theorem examineMode_run (t a b : Nat) : (examineMode cascade t a b).Runs := by
  intro s
  unfold examineMode
  split
  · exact .refl _
  · split
    · exact .refl _
    · split
      · exact sameMode_run _ s
      · exact otherMode_run _ _ s

theorem handleSetMode_run (t a b : Nat) : (handleSetMode t a b).Runs := fun s =>
  .trans (cascade_drives.abort .modeRequest s) (examineMode_run t a b _)

theorem handleSupervise_run (c : Nat) : (handleSupervise c).Runs := by
  intro s
  unfold handleSupervise
  split
  · exact supervised_run s
  · dsimp only
    split
    · exact .refl _
    · exact supervisionExpired_run cascade_drives s

theorem writeHealth_run (n : CounterName) (c : Counter) (s : State) : Run s (writeHealth cascade n c s) := by
  unfold writeHealth
  dsimp only
  split
  · rename_i h
    refine counter_run cascade_drives n c s _ (.post _ _) (.inr (fun o => ?_))
    rw [o] at h
    simp at h
  · split
    · exact counter_run cascade_drives n c s _
        (crossing_run cascade_drives n c { s with lmu := { s.lmu with health := s.lmu.health.set n c } }) (.inl rfl)
    · rename_i h
      refine counter_run cascade_drives n c s _ (.refl _) (.inr (fun o => ?_))
      cases e : (s.lmu.health.get n).isOver
      · rw [e, o] at h; exact absurd rfl h
      · rfl

theorem handleHealthSet_run (n c e : Nat) : (handleHealthSet n c e).Runs := by
  intro s
  unfold handleHealthSet
  split
  · exact .refl _
  · split
    · exact .refl _
    · split
      · exact .refl _
      · exact writeHealth_run _ _ s

theorem handleRestart_run : handleRestart.Runs := by
  intro s
  unfold handleRestart
  split
  · exact port_run s { s.slp with restarting := true } rfl rfl rfl rfl rfl
  · exact .refl _

/-! ## Chapter 10 -/

theorem handleMaskSet_run (c : Nat) : (handleMaskSet c).Runs := fun s => port_run s _ rfl rfl rfl rfl rfl

theorem handleMaskClear_run (c : Nat) : (handleMaskClear c).Runs := fun s => port_run s _ rfl rfl rfl rfl rfl

theorem countBad_run (s : State) : Run s (countBad s) := port_run s _ rfl rfl rfl rfl rfl

/-- The handling of every request is a run. -/
theorem handlerOf_run (i : Instr) : (handlerOf i).Runs := by
  cases i
  case configureLine tag f => exact handleConfigureLine_run f
  case loadSegments tag l => exact handleLoadSegments_run l
  case loadStops tag l => exact handleLoadStops_run l
  case loadMarkers tag l => exact handleLoadMarkers_run l
  case planSet tag l => exact handlePlanSet_run l
  case planAppend tag i => exact handlePlanAppend_run i
  case planClear tag => exact handlePlanClear_run
  case depart tag => exact handleDepart_run
  case stop tag => exact handleStop_run
  case tsrAdd tag id a b v => exact handleTsrAdd_run id a b v
  case tsrRemove tag id => exact handleTsrRemove_run id
  case tripReset tag => exact handleTripReset_run
  case brakeTest tag b => exact handleBrakeTest_run b
  case alarmClear tag c => exact handleAlarmClear_run c
  case alarmRouteSet tag d => exact handleAlarmRouteSet_run d
  case alarmRouteClear tag d => exact handleAlarmRouteClear_run d
  case doorRelease tag c d => exact handleDoorRelease_run c d
  case evacRelease tag c d => exact handleEvacRelease_run c d
  case doorClose tag c d => exact handleDoorClose_run c d
  case passInsert tag l => exact handlePassInsert_run l
  case passDelete tag l => exact handlePassDelete_run l
  case passBlock tag l => exact handleBlock_run blockEntry_keeps l
  case passUnblock tag l => exact handleBlock_run unblockEntry_keeps l
  case passRead tag id => exact handlePassRead_run id
  case setDay tag d => exact handleSetDay_run d
  case loadGates tag l => exact handleLoadGates_run l
  case boardingExtend tag g n => exact handleBoardingExtend_run g n
  case boardingClose tag g => exact handleBoardingClose_run g
  case ticketAnswer tag g q v p e => exact handleTicketAnswer_run g q v p e
  case gateAccess tag i g c a => exact handleGateAccess_run i g c a
  case setMode tag m a b => exact handleSetMode_run m a b
  case supervise tag c => exact handleSupervise_run c
  case healthSet tag n c e => exact handleHealthSet_run n c e
  case restart tag => exact handleRestart_run
  case reportMaskSet tag c => exact handleMaskSet_run c
  case reportMaskClear tag c => exact handleMaskClear_run c
  all_goals exact fun s => .refl s

/-- The examination of a received frame and its owner's handling are a run. -/
theorem handleFrame_run (kind tag : Byte) (p : List Byte) : (handleFrame kind tag p).Runs := by
  intro s
  unfold handleFrame
  split
  · exact countBad_run s
  · split
    · exact countBad_run s
    · exact handlerOf_run _ s

end Sys2Proof.Machine
end

