-- ==== Sys2Proof/Laws/Done.lean ====
section
/-! SUPPORT. What a command and a step can do, said once: Done, a chain of runs, changes of the link under its bounds, and resets. -/

namespace Sys2Proof.Machine

/-- What a command can do to the state. -/
inductive Done : State → State → Prop
  | run {s t : State} : Run s t → Done s t
  | trans {s t u : State} : Done s t → Done t u → Done s u
  | link (s : State) (l : Link) (law : s.slp.law → l.law) : Done s { s with slp := l }
  | blank (cause : ResetCause) (s : State) : Done s (blankState cause s)
  | kept (s : State) : Done s (keptState s)
  | line (s : State) (c : Option ResetCause) : Done s { s with inReset := c }

theorem Done.refl (s : State) : Done s s := .run (.refl s)

theorem Done.pending {s t : State} (h : Done s t) : t.pending = s.pending := by
  induction h with
  | run r => exact r.pending
  | trans _ _ ih1 ih2 => rw [ih2, ih1]
  | _ => rfl

/-- A mark that hand-overs went too deep outlasts all that a command does. -/
theorem Done.overrun_stays {s t : State} (h : Done s t) : s.overrun = true → t.overrun = true := by
  induction h with
  | run r => exact r.overrun_stays
  | trans _ _ ih1 ih2 => exact fun h => ih2 (ih1 h)
  | _ => exact id

/-! ## Requests -/

theorem received_done (s : State) : Done s { s with slp := s.slp.received } := .link s _ id

/-- A frame that is received. -/
theorem receive_done (tag kind : Byte) (h : Handler) (hh : h.Runs) (s : State) : Done s (receive tag kind h s) := by
  unfold receive
  dsimp only
  refine .trans (received_done s) ?_
  split
  · exact .link { s with slp := s.slp.received } _ (fun l => holdFrame_law l _ _)
  · split
    · rename_i room
      have r := hh { s with slp := s.slp.received }
      refine .trans (.run r) (.link _ _ (fun l => answer_law l _ (Nat.lt_of_le_of_lt r.link.2.1 room)))
    · exact .link { s with slp := s.slp.received } _ (fun l => refuseOverload_law l _ _)

/-! ## Resets -/

theorem resetNow_done (cause : ResetCause) (s : State) : Done s (resetNow cause s) := by
  unfold resetNow
  dsimp only
  cases cause
  · exact .trans (.blank .powerOn s) (.run (.trans (.post _ _) (pollNext_run _)))
  · exact .trans (.blank .resetLine s) (.run (.trans (.post _ _) (pollNext_run _)))
  · exact .trans (.kept s) (.run (.trans (.post _ _) (pollNext_run _)))

theorem holdReset_done (cause : ResetCause) (s : State) : Done s (holdReset cause s) := .trans (.blank cause s) (.line _ _)

/-! ## Commands -/

theorem finish_next {s t : State} (h : finish s = .next t) : t = s ∧ s.overrun = false := by
  unfold finish at h
  split at h
  · cases h
  · rename_i o
    injection h with h
    exact ⟨h.symm, by simpa using o⟩

/-- A command that has no effect while the reset line is held. -/
theorem whileRunning_done {f : State → State} (hf : ∀ s, Done s (f s)) {s t : State} (h : whileRunning f s = .next t) :
    Done { s with overrun := false } t ∧ t.overrun = false := by
  unfold whileRunning at h
  dsimp only at h
  split at h
  · injection h with h
    subst h
    exact ⟨.refl _, rfl⟩
  · obtain ⟨rfl, o⟩ := finish_next h
    exact ⟨hf _, o⟩

theorem request_done {tag : Byte} {kind : ReqKind} {h : Handler} (hh : h.Runs) {s t : State}
    (e : request tag kind h s = .next t) : Done { s with overrun := false } t ∧ t.overrun = false :=
  whileRunning_done (fun s => receive_done _ _ h hh s) e

/-! ## The events of the link -/

theorem setReceiver_done (r : Receiver) (g : Timer) (s : State) : Done s (setReceiver r g s) := .link s _ id

theorem count_done (f : LinkTotals → LinkTotals) (s : State) : Done s { s with slp := s.slp.count f } := .link s _ id

theorem discardLength_done (s : State) : Done s (discardLength s) :=
  .trans (setReceiver_done _ _ s) (.trans (.run (bumpHealth_run cascade_drives _ _ _)) (count_done _ _))

theorem discardCheck_done (s : State) : Done s (discardCheck s) :=
  .trans (setReceiver_done _ _ s) (.trans (.run (bumpHealth_run cascade_drives _ _ _)) (count_done _ _))

theorem judgeSupervisory_done (kind tag : Byte) (p : List Byte) (c : Check) (s : State) :
    Done s (judgeSupervisory kind tag p c s) := by
  unfold judgeSupervisory
  split
  · exact receive_done _ _ _ (handleFrame_run _ _ _) s
  · exact discardCheck_done s

theorem judgeBytes_done (l : List Byte) (s : State) : Done s (judgeBytes l s) := by
  unfold judgeBytes
  split
  · exact judgeSupervisory_done _ _ _ _ s
  · exact .refl s

theorem receiveByte_done (b : Byte) (s : State) : Done s (receiveByte b s) := by
  unfold receiveByte
  split
  · unfold huntByte
    split
    · exact setReceiver_done _ _ s
    · exact count_done _ s
  · unfold frameByte
    dsimp only
    split
    · exact .refl s
    · split
      · exact discardLength_done s
      · split
        · exact judgeBytes_done _ s
        · exact setReceiver_done _ _ s

theorem transmissionEnds_done (s : State) : Done s (transmissionEnds s) := by
  unfold transmissionEnds
  split
  · exact .refl s
  · split
    · exact resetNow_done _ s
    · exact .link s _ (fun l => transmit_law (l := { s.slp with sending := none }) (Link.law_bounds (l := s.slp) l))

/-- What exec can do where it answers a next state. -/
theorem exec_done (c : Instr) {s t : State} (h : exec c s = .next t) : Done { s with overrun := false } t ∧ t.overrun = false := by
  have run : ∀ {f : State → State}, (∀ s, Run s (f s)) → whileRunning f s = .next t →
      Done { s with overrun := false } t ∧ t.overrun = false := fun hf e => whileRunning_done (fun s => .run (hf s)) e
  have reads : ∀ {tag : Byte} {kind : ReqKind} {f : State → Answer}, request tag kind (fun s => (s, f s)) s = .next t →
      Done { s with overrun := false } t ∧ t.overrun = false := fun e => request_done (fun s => .refl s) e
  cases c
  case powerOn =>
    change (match s.inReset with
      | some _ => Host.Outcome.next (holdReset .powerOn { s with overrun := false })
      | none => finish (resetNow .powerOn { s with overrun := false })) = .next t at h
    split at h
    · injection h with h; subst h; exact ⟨holdReset_done _ _, rfl⟩
    · obtain ⟨rfl, o⟩ := finish_next h; exact ⟨resetNow_done _ _, o⟩
  case resetLine =>
    change (match s.inReset with
      | some cause => finish (resetNow cause { s with overrun := false, inReset := none })
      | none => finish (resetNow .resetLine { s with overrun := false })) = .next t at h
    split at h
    · obtain ⟨rfl, o⟩ := finish_next h
      exact ⟨.trans (.line { s with overrun := false } none) (resetNow_done _ _), o⟩
    · obtain ⟨rfl, o⟩ := finish_next h; exact ⟨resetNow_done _ _, o⟩
  case resetLineAssert =>
    change (match s.inReset with
      | some _ => Host.Outcome.next { s with overrun := false }
      | none => Host.Outcome.next (holdReset .resetLine { s with overrun := false })) = .next t at h
    split at h
    · injection h with h; subst h; exact ⟨.refl _, rfl⟩
    · injection h with h; subst h; exact ⟨holdReset_done _ _, rfl⟩
  case brakeContactChange b x y =>
    change (match s.inReset with
      | some cause => Host.Outcome.next (holdReset cause { s with
          overrun := false, bsq := { s.bsq with contacts := s.bsq.contacts.set b { applied := x, released := y } } })
      | none => whileRunning (contactsChanged cascade b { applied := x, released := y }) s) = .next t at h
    split at h
    · injection h with h
      subst h
      refine ⟨.trans (.run (.brakesRest { s with overrun := false }
        { s.bsq with contacts := s.bsq.contacts.set b { applied := x, released := y } } rfl rfl (.inl rfl)))
        (holdReset_done _ _), rfl⟩
    · exact run (contactsChanged_run cascade_drives _ _) h
  case encoderCount e d n => exact run (fun s => .track s _) h
  case positionSample a b x y => exact run (sample_run cascade_drives _) h
  case driveReferenceUpdate r f =>
    exact run (fun s => .trans (referenceUpdate_run s) (.trans (cascade_drives.settle _)
      (.trans (readDriveLines_run cascade_drives _ _ _) (sendWord_run _)))) h
  case brakeResponseTimeout b =>
    exact run (fun s => Run.ite (fun _ => responseExpired_run cascade_drives _ _) (fun _ => .refl _)) h
  case decelerationCheckTimeout => exact run (checkExpired_run cascade_drives) h
  case brakeTestTimerExpiry => exact run (testExpired_run cascade_drives) h
  case carStatusFrame l bytes => exact run (receiveStatus_run cascade_drives _ _) h
  case carCommandTimer l => exact run (fun s => Run.ite (fun _ => sendCommand_run _ _) (fun _ => .refl _)) h
  case carStaleTimeout c =>
    exact run (fun s => Run.ite (fun _ => cascade_drives.freshness _ _ _) (fun _ => .refl _)) h
  case carLostTimeout c =>
    exact run (fun s => Run.ite (fun _ => cascade_drives.freshness _ _ _) (fun _ => .refl _)) h
  case acknowledgementTimeout c d =>
    exact run (fun s => Run.ite (fun _ => ackExpired_run cascade_drives _ _ _) (fun _ => .refl _)) h
  case closeTimeout c d =>
    exact run (fun s => Run.ite (fun _ => closeExpired_run cascade_drives _ _ _) (fun _ => .refl _)) h
  case retryTimerExpiry c d =>
    exact run (fun s => Run.ite (fun _ => retryExpired_run cascade_drives _ _ _) (fun _ => .refl _)) h
  case lineClockTick => exact run (fun s => .pass s _ (fun l => PassTable.tick_law l)) h
  case gateReply bytes =>
    unfold exec at h
    dsimp only at h
    unfold execGateReply at h
    refine run (fun s => ?_) h
    split
    · exact .refl s
    · split
      · exact .refl s
      · exact goodReply_run cascade_drives _ _ s
  case gateReplyTimeout =>
    unfold exec at h
    dsimp only at h
    unfold execGateReplyTimeout at h
    refine run (fun s => ?_) h
    split
    · exact .refl s
    · exact missedPoll_run cascade_drives _ s
  case dwellExpiry g =>
    unfold exec at h
    dsimp only at h
    unfold execDwellExpiry at h
    refine run (fun s => ?_) h
    split
    · exact .refl s
    · exact Run.ite (fun _ => cascade_drives.seal _ _ _) (fun _ => .refl _)
  case queryTimeout g =>
    unfold exec at h
    dsimp only at h
    unfold execQueryTimeout at h
    refine run (fun s => ?_) h
    split
    · exact .refl s
    · exact Run.ite (fun _ => queryExpired_run cascade_drives _ _) (fun _ => .refl _)
  case passageDeadline g =>
    unfold exec at h
    dsimp only at h
    unfold execPassageDeadline at h
    refine run (fun s => ?_) h
    split
    · exact .refl s
    · exact Run.ite (fun _ => abandonAdmission_run cascade_drives _ _) (fun _ => .refl _)
  case warmingTimeout => exact run (fun s => Run.ite (fun _ => warmingExpired_run cascade_drives _) (fun _ => .refl _)) h
  case supervisionExpiry =>
    unfold exec at h
    dsimp only at h
    unfold execSupervisionExpiry at h
    refine run (fun s => ?_) h
    split
    · exact supervisionExpired_run cascade_drives s
    · exact .refl s
    · exact .refl s
  case skippedByte b => exact whileRunning_done (receiveByte_done b) h
  case frameGapTimeout =>
    unfold exec at h
    dsimp only at h
    unfold execFrameGapTimeout at h
    refine whileRunning_done (fun s => ?_) h
    split
    · exact .refl s
    · exact .trans (setReceiver_done _ _ s) (count_done _ _)
  case badLengthDiscard n =>
    unfold exec at h
    dsimp only at h
    unfold execBadLengthDiscard at h
    refine whileRunning_done (fun s => ?_) h
    split
    · exact discardLength_done s
    · exact .refl s
  case supervisoryFrame k tag p c =>
    unfold exec at h
    dsimp only at h
    unfold execSupervisoryFrame at h
    refine whileRunning_done (fun s => ?_) h
    split
    · exact judgeSupervisory_done _ _ _ _ s
    · exact .refl s
  case transmitEnd => exact whileRunning_done transmissionEnds_done h
  case configureLine tag f => exact request_done (handlerOf_run (.configureLine tag f)) h
  case loadSegments tag l => exact request_done (handlerOf_run (.loadSegments tag l)) h
  case loadStops tag l => exact request_done (handlerOf_run (.loadStops tag l)) h
  case loadMarkers tag l => exact request_done (handlerOf_run (.loadMarkers tag l)) h
  case planSet tag l => exact request_done (handlerOf_run (.planSet tag l)) h
  case planAppend tag i => exact request_done (handlerOf_run (.planAppend tag i)) h
  case planClear tag => exact request_done (handlerOf_run (.planClear tag)) h
  case depart tag => exact request_done (handlerOf_run (.depart tag)) h
  case stop tag => exact request_done (handlerOf_run (.stop tag)) h
  case tsrAdd tag id a b v => exact request_done (handlerOf_run (.tsrAdd tag id a b v)) h
  case tsrRemove tag id => exact request_done (handlerOf_run (.tsrRemove tag id)) h
  case tripReset tag => exact request_done (handlerOf_run (.tripReset tag)) h
  case brakeTest tag b => exact request_done (handlerOf_run (.brakeTest tag b)) h
  case alarmClear tag c => exact request_done (handlerOf_run (.alarmClear tag c)) h
  case alarmRouteSet tag d => exact request_done (handlerOf_run (.alarmRouteSet tag d)) h
  case alarmRouteClear tag d => exact request_done (handlerOf_run (.alarmRouteClear tag d)) h
  case doorRelease tag c d => exact request_done (handlerOf_run (.doorRelease tag c d)) h
  case evacRelease tag c d => exact request_done (handlerOf_run (.evacRelease tag c d)) h
  case doorClose tag c d => exact request_done (handlerOf_run (.doorClose tag c d)) h
  case passInsert tag l => exact request_done (handlerOf_run (.passInsert tag l)) h
  case passDelete tag l => exact request_done (handlerOf_run (.passDelete tag l)) h
  case passBlock tag l => exact request_done (handlerOf_run (.passBlock tag l)) h
  case passUnblock tag l => exact request_done (handlerOf_run (.passUnblock tag l)) h
  case passRead tag id => exact request_done (handlerOf_run (.passRead tag id)) h
  case setDay tag d => exact request_done (handlerOf_run (.setDay tag d)) h
  case loadGates tag l => exact request_done (handlerOf_run (.loadGates tag l)) h
  case boardingExtend tag g n => exact request_done (handlerOf_run (.boardingExtend tag g n)) h
  case boardingClose tag g => exact request_done (handlerOf_run (.boardingClose tag g)) h
  case ticketAnswer tag g q v p e => exact request_done (handlerOf_run (.ticketAnswer tag g q v p e)) h
  case gateAccess tag i g c a => exact request_done (handlerOf_run (.gateAccess tag i g c a)) h
  case setMode tag m a b => exact request_done (handlerOf_run (.setMode tag m a b)) h
  case supervise tag c => exact request_done (handlerOf_run (.supervise tag c)) h
  case healthSet tag n c e => exact request_done (handlerOf_run (.healthSet tag n c e)) h
  case restart tag => exact request_done (handlerOf_run (.restart tag)) h
  case reportMaskSet tag c => exact request_done (handlerOf_run (.reportMaskSet tag c)) h
  case reportMaskClear tag c => exact request_done (handlerOf_run (.reportMaskClear tag c)) h
  all_goals exact reads h

/-! ## Steps -/

/-- A millisecond is a run. -/
theorem tick_run (s : State) : Run s (tick s) := by
  unfold tick
  split
  · exact .refl s
  · have check : ∀ b : Brakes, b.tick.latch = b.latch := fun _ => rfl
    refine .trans (.brakesRest s s.bsq.tick rfl rfl (.inl rfl)) ?_
    refine .trans (.carsRest _ { s.clu with recs := ⟨s.clu.recs.a.tick, s.clu.recs.b.tick⟩ } rfl rfl rfl) ?_
    refine .trans (.doorsRest _ { s.dru with sides := ⟨tickSides s.dru.sides.a, tickSides s.dru.sides.b⟩ } ?_) ?_
    · intro c d
      cases c <;> cases d <;> rfl
    refine .trans (.gatesRest _ s.glm.tick ?_ rfl) ?_
    · show (s.glm.gates.map GateRec.tick).map GateRec.address = s.glm.gates.map GateRec.address
      rw [List.map_map]
      rfl
    refine .trans (.mode _ s.lmu.tick ?_ id id) (port_run _ _ rfl rfl rfl rfl rfl)
    intro l
    refine ⟨l.1, l.2.1, fun h => l.2.2 ?_⟩
    have h' : (s.lmu.warmTimer.map (· - 1)).isSome = true := h
    rw [Option.isSome_map] at h'
    exact h'

/-- What a step can do where it answers a next state: a millisecond on an empty queue, or a command's doing. -/
theorem step_done {s t : State} (h : step s = .next t) : (s.pending = [] ∧ Run s t) ∨
    (∃ c rest, s.pending = c :: rest ∧ Done { s with pending := rest, overrun := false } t ∧ t.overrun = false) := by
  unfold step at h
  split at h
  · rename_i e
    injection h with h
    subst h
    exact .inl ⟨e, tick_run s⟩
  · rename_i c rest e
    exact .inr ⟨c, rest, e, exec_done c h⟩

/-- A law that runs keep, but for those that go too deep, and that changes of the link, the resets and the reset line keep, is
kept by all that a command does. -/
theorem Done.keeps (P : State → Prop) (runs : ∀ s t, Run s t → P s → P t ∨ t.overrun = true)
    (links : ∀ s (l : Link), (s.slp.law → l.law) → P s → P { s with slp := l }) (blanks : ∀ c s, P (blankState c s))
    (keeps : ∀ s, P s → P (keptState s)) (lines : ∀ s c, P s → P { s with inReset := c }) {s t : State} (h : Done s t) :
    P s → P t ∨ t.overrun = true := by
  induction h with
  | run r => exact runs _ _ r
  | trans _ d ih1 ih2 => exact fun h => (ih1 h).elim ih2 (fun o => .inr (d.overrun_stays o))
  | link s l law => exact fun h => .inl (links s l law h)
  | blank c s => exact fun _ => .inl (blanks c s)
  | kept s => exact fun h => .inl (keeps s h)
  | line s c => exact fun h => .inl (lines s c h)

/-- Such a law, kept by a millisecond as well and free of the queue, is kept by every step. -/
theorem step_keeps (P : State → Prop) (runs : ∀ s t, Run s t → P s → P t ∨ t.overrun = true)
    (links : ∀ s (l : Link), (s.slp.law → l.law) → P s → P { s with slp := l }) (blanks : ∀ c s, P (blankState c s))
    (keeps : ∀ s, P s → P (keptState s)) (lines : ∀ s c, P s → P { s with inReset := c }) (ticks : ∀ s, P s → P (tick s))
    (queues : ∀ s l b, P s → P { s with pending := l, overrun := b }) {s t : State} (p : P s) (h : step s = .next t) : P t := by
  cases e : s.pending with
  | nil =>
    unfold step at h
    rw [e] at h
    injection h with h
    subst h
    exact ticks s p
  | cons c rest =>
    rcases step_done h with ⟨e', _⟩ | ⟨c, rest, _, d, o⟩
    · rw [e] at e'
      cases e'
    · rcases d.keeps P runs links blanks keeps lines (queues s rest false p) with q | q
      · exact q
      · rw [o] at q
        cases q

end Sys2Proof.Machine
end

