-- ==== Sys2Proof/Laws/PerInstr.lean ====
section
/-! SUPPORT. The wire form of a command, one lemma per constructor: a request that fits its bytes fills a payload that a frame can
carry, under a kind byte that reads back as its kind (R185, R186, R198). -/

namespace Sys2Proof.Laws

open Sys2Proof.Machine

/-- A number written as n bytes takes n bytes. -/
theorem natBytes_length (n v : Nat) : (natBytes n v).length = n := by
  induction n generalizing v with
  | zero => rfl
  | succ n ih => simp [natBytes, ih]

/-- A counted list of records of one size takes one byte and the records' bytes. -/
theorem writeList_length {α : Type} (write : α → List Byte) (size : Nat) (l : List α)
    (h : ∀ x, (write x).length = size) : (writeList write l).length = 1 + size * l.length := by
  have flat : ∀ l : List α, (l.flatMap write).length = size * l.length := by
    intro l
    induction l with
    | nil => simp
    | cons x l ih => simp [h, ih, Nat.mul_succ, Nat.add_comm]
  simp [writeList, flat, Nat.add_comm]

/-- A counted list whose records fit the largest payload. -/
theorem writeList_fits {α : Type} {write : α → List Byte} {size : Nat} {l : List α}
    (h : ∀ x, (write x).length = size) (hl : listFits size l.length = true) :
    (writeList write l).length ≤ Config.maxPayload := by
  rw [writeList_length write size l h]
  exact of_decide_eq_true hl

/-- The payload of a well-formed request fits a frame, and its kind byte reads back as its kind. -/
def WireForm.Statement (i : Instr) : Prop :=
  ∀ w, wireOf i = some w → i.wellFormed = true →
    w.payload.length ≤ Config.maxPayload ∧ reqKindOf? w.kind.code = some w.kind

/-- A command of the field ports and timers has no wire form. -/
theorem wireForm_none {i : Instr} (h : wireOf i = none) : WireForm.Statement i := by
  intro w e
  rw [h] at e
  cases e

/-- A request with a wire form whose payload fits. -/
theorem wireForm_some {i : Instr} {w : WireRequest} (e : wireOf i = some w)
    (h : i.wellFormed = true → w.payload.length ≤ Config.maxPayload) (k : reqKindOf? w.kind.code = some w.kind) :
    WireForm.Statement i := by
  intro v ev hi
  obtain rfl : w = v := by rw [e] at ev; exact Option.some.inj ev
  exact ⟨h hi, k⟩

theorem WireForm.powerOn : WireForm.Statement .powerOn :=
  wireForm_none rfl

theorem WireForm.resetLine : WireForm.Statement .resetLine :=
  wireForm_none rfl

theorem WireForm.resetLineAssert : WireForm.Statement .resetLineAssert :=
  wireForm_none rfl

theorem WireForm.encoderCount (enc : EncoderId) (dir : Dir) (edges : Nat) :
    WireForm.Statement (.encoderCount enc dir edges) :=
  wireForm_none rfl

theorem WireForm.positionSample (lower : Bool) (upper : Bool) (otLower : Bool) (otUpper : Bool) :
    WireForm.Statement (.positionSample lower upper otLower otUpper) :=
  wireForm_none rfl

theorem WireForm.driveReferenceUpdate (ready : Bool) (fault : Bool) :
    WireForm.Statement (.driveReferenceUpdate ready fault) :=
  wireForm_none rfl

theorem WireForm.brakeContactChange (brake : BrakeId) (applied : Bool) (released : Bool) :
    WireForm.Statement (.brakeContactChange brake applied released) :=
  wireForm_none rfl

theorem WireForm.brakeResponseTimeout (brake : BrakeId) :
    WireForm.Statement (.brakeResponseTimeout brake) :=
  wireForm_none rfl

theorem WireForm.decelerationCheckTimeout : WireForm.Statement .decelerationCheckTimeout :=
  wireForm_none rfl

theorem WireForm.brakeTestTimerExpiry : WireForm.Statement .brakeTestTimerExpiry :=
  wireForm_none rfl

theorem WireForm.carStatusFrame (link : Car) (bytes : List Byte) :
    WireForm.Statement (.carStatusFrame link bytes) :=
  wireForm_none rfl

theorem WireForm.carCommandTimer (link : Car) :
    WireForm.Statement (.carCommandTimer link) :=
  wireForm_none rfl

theorem WireForm.carStaleTimeout (car : Car) :
    WireForm.Statement (.carStaleTimeout car) :=
  wireForm_none rfl

theorem WireForm.carLostTimeout (car : Car) :
    WireForm.Statement (.carLostTimeout car) :=
  wireForm_none rfl

theorem WireForm.acknowledgementTimeout (car : Car) (side : Side) :
    WireForm.Statement (.acknowledgementTimeout car side) :=
  wireForm_none rfl

theorem WireForm.closeTimeout (car : Car) (side : Side) :
    WireForm.Statement (.closeTimeout car side) :=
  wireForm_none rfl

theorem WireForm.retryTimerExpiry (car : Car) (side : Side) :
    WireForm.Statement (.retryTimerExpiry car side) :=
  wireForm_none rfl

theorem WireForm.lineClockTick : WireForm.Statement .lineClockTick :=
  wireForm_none rfl

theorem WireForm.gateReply (bytes : List Byte) :
    WireForm.Statement (.gateReply bytes) :=
  wireForm_none rfl

theorem WireForm.gateReplyTimeout : WireForm.Statement .gateReplyTimeout :=
  wireForm_none rfl

theorem WireForm.dwellExpiry (group : Nat) :
    WireForm.Statement (.dwellExpiry group) :=
  wireForm_none rfl

theorem WireForm.queryTimeout (gate : Nat) :
    WireForm.Statement (.queryTimeout gate) :=
  wireForm_none rfl

theorem WireForm.passageDeadline (gate : Nat) :
    WireForm.Statement (.passageDeadline gate) :=
  wireForm_none rfl

theorem WireForm.warmingTimeout : WireForm.Statement .warmingTimeout :=
  wireForm_none rfl

theorem WireForm.supervisionExpiry : WireForm.Statement .supervisionExpiry :=
  wireForm_none rfl

theorem WireForm.skippedByte (b : Byte) :
    WireForm.Statement (.skippedByte b) :=
  wireForm_none rfl

theorem WireForm.frameGapTimeout : WireForm.Statement .frameGapTimeout :=
  wireForm_none rfl

theorem WireForm.badLengthDiscard (len : Byte) :
    WireForm.Statement (.badLengthDiscard len) :=
  wireForm_none rfl

theorem WireForm.supervisoryFrame (kind : Byte) (tag : Byte) (payload : List Byte) (check : Check) :
    WireForm.Statement (.supervisoryFrame kind tag payload check) :=
  wireForm_none rfl

theorem WireForm.transmitEnd : WireForm.Statement .transmitEnd :=
  wireForm_none rfl

theorem WireForm.configureLine (tag : Byte) (fields : LineFields) :
    WireForm.Statement (.configureLine tag fields) :=
  wireForm_some rfl (fun _ => by simp [writeLine, firstWords, lastWords, natBytes_length, Config.maxPayload]) rfl

theorem WireForm.loadSegments (tag : Byte) (recs : List SegmentFields) :
    WireForm.Statement (.loadSegments tag recs) :=
  wireForm_some rfl (fun h => writeList_fits (fun x => by simp [writeSegment, natBytes_length]) (Bool.and_eq_true_iff.mp h).1) rfl

theorem WireForm.loadStops (tag : Byte) (recs : List StopFields) :
    WireForm.Statement (.loadStops tag recs) :=
  wireForm_some rfl (fun h => writeList_fits (fun x => by simp [writeStop, writeStopCar, natBytes_length]) (Bool.and_eq_true_iff.mp h).1) rfl

theorem WireForm.loadMarkers (tag : Byte) (recs : List MarkerFields) :
    WireForm.Statement (.loadMarkers tag recs) :=
  wireForm_some rfl (fun h => writeList_fits (fun x => by simp [writeMarker, natBytes_length]) (Bool.and_eq_true_iff.mp h).1) rfl

theorem WireForm.positionRead (tag : Byte) :
    WireForm.Statement (.positionRead tag) :=
  wireForm_some rfl (fun _ => by simp [Config.maxPayload]) rfl

theorem WireForm.planSet (tag : Byte) (entries : List Nat) :
    WireForm.Statement (.planSet tag entries) :=
  wireForm_some rfl (fun h => writeList_fits (natBytes_length 1) (Bool.and_eq_true_iff.mp h).1) rfl

theorem WireForm.planAppend (tag : Byte) (stop : Nat) :
    WireForm.Statement (.planAppend tag stop) :=
  wireForm_some rfl (fun _ => by simp [natBytes_length, Config.maxPayload]) rfl

theorem WireForm.planClear (tag : Byte) :
    WireForm.Statement (.planClear tag) :=
  wireForm_some rfl (fun _ => by simp [Config.maxPayload]) rfl

theorem WireForm.depart (tag : Byte) :
    WireForm.Statement (.depart tag) :=
  wireForm_some rfl (fun _ => by simp [Config.maxPayload]) rfl

theorem WireForm.stop (tag : Byte) :
    WireForm.Statement (.stop tag) :=
  wireForm_some rfl (fun _ => by simp [Config.maxPayload]) rfl

theorem WireForm.haulageRead (tag : Byte) :
    WireForm.Statement (.haulageRead tag) :=
  wireForm_some rfl (fun _ => by simp [Config.maxPayload]) rfl

theorem WireForm.tsrAdd (tag : Byte) (id : Nat) (start : Nat) (stop : Nat) (speed : Nat) :
    WireForm.Statement (.tsrAdd tag id start stop speed) :=
  wireForm_some rfl (fun _ => by simp [natBytes_length, Config.maxPayload]) rfl

theorem WireForm.tsrRemove (tag : Byte) (id : Nat) :
    WireForm.Statement (.tsrRemove tag id) :=
  wireForm_some rfl (fun _ => by simp [natBytes_length, Config.maxPayload]) rfl

theorem WireForm.envelopeRead (tag : Byte) :
    WireForm.Statement (.envelopeRead tag) :=
  wireForm_some rfl (fun _ => by simp [Config.maxPayload]) rfl

theorem WireForm.tripReset (tag : Byte) :
    WireForm.Statement (.tripReset tag) :=
  wireForm_some rfl (fun _ => by simp [Config.maxPayload]) rfl

theorem WireForm.brakeTest (tag : Byte) (brake : Nat) :
    WireForm.Statement (.brakeTest tag brake) :=
  wireForm_some rfl (fun _ => by simp [natBytes_length, Config.maxPayload]) rfl

theorem WireForm.brakeRead (tag : Byte) :
    WireForm.Statement (.brakeRead tag) :=
  wireForm_some rfl (fun _ => by simp [Config.maxPayload]) rfl

theorem WireForm.alarmClear (tag : Byte) (car : Nat) :
    WireForm.Statement (.alarmClear tag car) :=
  wireForm_some rfl (fun _ => by simp [natBytes_length, Config.maxPayload]) rfl

theorem WireForm.alarmRouteSet (tag : Byte) (dests : Nat) :
    WireForm.Statement (.alarmRouteSet tag dests) :=
  wireForm_some rfl (fun _ => by simp [natBytes_length, Config.maxPayload]) rfl

theorem WireForm.alarmRouteClear (tag : Byte) (dests : Nat) :
    WireForm.Statement (.alarmRouteClear tag dests) :=
  wireForm_some rfl (fun _ => by simp [natBytes_length, Config.maxPayload]) rfl

theorem WireForm.carRead (tag : Byte) :
    WireForm.Statement (.carRead tag) :=
  wireForm_some rfl (fun _ => by simp [Config.maxPayload]) rfl

theorem WireForm.doorRelease (tag : Byte) (car : Nat) (side : Nat) :
    WireForm.Statement (.doorRelease tag car side) :=
  wireForm_some rfl (fun _ => by simp [natBytes_length, Config.maxPayload]) rfl

theorem WireForm.evacRelease (tag : Byte) (car : Nat) (side : Nat) :
    WireForm.Statement (.evacRelease tag car side) :=
  wireForm_some rfl (fun _ => by simp [natBytes_length, Config.maxPayload]) rfl

theorem WireForm.doorClose (tag : Byte) (car : Nat) (side : Nat) :
    WireForm.Statement (.doorClose tag car side) :=
  wireForm_some rfl (fun _ => by simp [natBytes_length, Config.maxPayload]) rfl

theorem WireForm.doorRead (tag : Byte) :
    WireForm.Statement (.doorRead tag) :=
  wireForm_some rfl (fun _ => by simp [Config.maxPayload]) rfl

theorem WireForm.passInsert (tag : Byte) (entries : List PassFields) :
    WireForm.Statement (.passInsert tag entries) :=
  wireForm_some rfl (fun h => writeList_fits (fun x => by simp [writePass, natBytes_length]) (Bool.and_eq_true_iff.mp h).1) rfl

theorem WireForm.passDelete (tag : Byte) (ids : List Nat) :
    WireForm.Statement (.passDelete tag ids) :=
  wireForm_some rfl (fun h => writeList_fits (natBytes_length 4) (Bool.and_eq_true_iff.mp h).1) rfl

theorem WireForm.passBlock (tag : Byte) (ids : List Nat) :
    WireForm.Statement (.passBlock tag ids) :=
  wireForm_some rfl (fun h => writeList_fits (natBytes_length 4) (Bool.and_eq_true_iff.mp h).1) rfl

theorem WireForm.passUnblock (tag : Byte) (ids : List Nat) :
    WireForm.Statement (.passUnblock tag ids) :=
  wireForm_some rfl (fun h => writeList_fits (natBytes_length 4) (Bool.and_eq_true_iff.mp h).1) rfl

theorem WireForm.passRead (tag : Byte) (id : Nat) :
    WireForm.Statement (.passRead tag id) :=
  wireForm_some rfl (fun _ => by simp [natBytes_length, Config.maxPayload]) rfl

theorem WireForm.setDay (tag : Byte) (day : Nat) :
    WireForm.Statement (.setDay tag day) :=
  wireForm_some rfl (fun _ => by simp [natBytes_length, Config.maxPayload]) rfl

theorem WireForm.loadGates (tag : Byte) (recs : List GateFields) :
    WireForm.Statement (.loadGates tag recs) :=
  wireForm_some rfl (fun h => writeList_fits (fun x => by simp [writeGate, natBytes_length]) (Bool.and_eq_true_iff.mp h).1) rfl

theorem WireForm.boardingExtend (tag : Byte) (group : Nat) (seconds : Nat) :
    WireForm.Statement (.boardingExtend tag group seconds) :=
  wireForm_some rfl (fun _ => by simp [natBytes_length, Config.maxPayload]) rfl

theorem WireForm.boardingClose (tag : Byte) (group : Nat) :
    WireForm.Statement (.boardingClose tag group) :=
  wireForm_some rfl (fun _ => by simp [natBytes_length, Config.maxPayload]) rfl

theorem WireForm.ticketAnswer (tag : Byte) (gate : Nat) (query : Nat) (verdict : Nat) (present : Nat) (entry : PassFields) :
    WireForm.Statement (.ticketAnswer tag gate query verdict present entry) :=
  wireForm_some rfl (fun _ => by simp [writePass, natBytes_length, Config.maxPayload]) rfl

theorem WireForm.gateAccess (tag : Byte) (slot : Nat) (gate : Nat) (command : Nat) (argument : Nat) :
    WireForm.Statement (.gateAccess tag slot gate command argument) :=
  wireForm_some rfl (fun _ => by simp [natBytes_length, Config.maxPayload]) rfl

theorem WireForm.boardingRead (tag : Byte) :
    WireForm.Statement (.boardingRead tag) :=
  wireForm_some rfl (fun _ => by simp [Config.maxPayload]) rfl

theorem WireForm.setMode (tag : Byte) (target : Nat) (keepLinks : Nat) (keepLoop : Nat) :
    WireForm.Statement (.setMode tag target keepLinks keepLoop) :=
  wireForm_some rfl (fun _ => by simp [natBytes_length, Config.maxPayload]) rfl

theorem WireForm.supervise (tag : Byte) (code : Nat) :
    WireForm.Statement (.supervise tag code) :=
  wireForm_some rfl (fun _ => by simp [natBytes_length, Config.maxPayload]) rfl

theorem WireForm.healthSet (tag : Byte) (counter : Nat) (count : Nat) (exponent : Nat) :
    WireForm.Statement (.healthSet tag counter count exponent) :=
  wireForm_some rfl (fun _ => by simp [natBytes_length, Config.maxPayload]) rfl

theorem WireForm.healthRead (tag : Byte) :
    WireForm.Statement (.healthRead tag) :=
  wireForm_some rfl (fun _ => by simp [Config.maxPayload]) rfl

theorem WireForm.modeRead (tag : Byte) :
    WireForm.Statement (.modeRead tag) :=
  wireForm_some rfl (fun _ => by simp [Config.maxPayload]) rfl

theorem WireForm.restart (tag : Byte) :
    WireForm.Statement (.restart tag) :=
  wireForm_some rfl (fun _ => by simp [Config.maxPayload]) rfl

theorem WireForm.reportMaskSet (tag : Byte) (classes : Nat) :
    WireForm.Statement (.reportMaskSet tag classes) :=
  wireForm_some rfl (fun _ => by simp [natBytes_length, Config.maxPayload]) rfl

theorem WireForm.reportMaskClear (tag : Byte) (classes : Nat) :
    WireForm.Statement (.reportMaskClear tag classes) :=
  wireForm_some rfl (fun _ => by simp [natBytes_length, Config.maxPayload]) rfl

theorem WireForm.linkRead (tag : Byte) :
    WireForm.Statement (.linkRead tag) :=
  wireForm_some rfl (fun _ => by simp [Config.maxPayload]) rfl

end Sys2Proof.Laws
end

