-- ==== Sys2Proof/Laws/Port.lean ====
section
/-! SUPPORT. How a command completes: the outcomes of finish, whileRunning and request, and the nesting of hand-overs. -/

namespace Sys2Proof.Machine

theorem finish_of_clear {s : State} (h : s.overrun = false) : finish s = .next s := by
  unfold finish
  rw [h]
  rfl

/-- A running device whose effect stays within the depth of hand-overs completes. -/
theorem whileRunning_next {f : State → State} {s : State} (r : s.inReset = none)
    (h : (f { s with overrun := false }).overrun = false) : whileRunning f s = .next (f { s with overrun := false }) := by
  unfold whileRunning
  dsimp only
  split
  · rename_i e
    exact absurd (r.symm.trans e) (by simp)
  · exact finish_of_clear h

/-- A device held by its reset line takes no command that whileRunning guards. -/
theorem whileRunning_held {f : State → State} {s : State} {c : ResetCause} (r : s.inReset = some c) :
    whileRunning f s = .next { s with overrun := false } := by
  unfold whileRunning
  dsimp only
  split
  · rfl
  · rename_i e
    exact absurd (r.symm.trans e) (by simp)

/-- A request that meets a listening device is handled and answered. -/
theorem request_next {tag : Byte} {kind : ReqKind} {h : Handler} {s : State} (l : s.listening)
    (o : (h s.heard).1.overrun = false) : request tag kind h s = .next ((h s.heard).1.replied tag kind (h s.heard).2) := by
  have e : receive tag kind.code h { s with overrun := false } = (h s.heard).1.replied tag kind (h s.heard).2 := by
    unfold receive
    dsimp only
    rw [if_neg (show ¬(s.slp.received.restarting = true) by
      intro x
      have x' : s.slp.restarting = true := x
      rw [l.2.1] at x'
      cases x')]
    rw [if_pos (show s.slp.received.places < Config.bufferPlaces from l.2.2)]
    rfl
  unfold request
  rw [whileRunning_next l.1]
  · rw [e]
  · rw [e]
    exact o

/-- A hand-over made within a step: what it does, one level down. -/
theorem cascade_eq (a : Act) (s : State) : cascade a s = act (run 63) a s := rfl

theorem run_succ (n : Nat) (a : Act) (s : State) : run (n + 1) a s = act (run n) a s := rfl

end Sys2Proof.Machine
end

