-- ==== Sys2Proof/Machine/Layout.lean ====
section
/-! DEFINITION. What the device writes on its ports (chapter 11): the payloads of replies and reports, car command frames,
gate polls and the drive word. Enumerated values take their constructor's place as code (R197). Where the manual lists a field
that is made of parts, the parts follow one another (assumption log 13). -/

namespace Sys2Proof.Machine.Layout

/-! ## Encoding rules (R197) -/

/-- A one-byte integer. -/
def u8 (n : Nat) : List Byte := natBytes 1 n

/-- A two-byte integer. -/
def u16 (n : Nat) : List Byte := natBytes 2 n

/-- A four-byte unsigned integer. -/
def u32 (n : Nat) : List Byte := natBytes 4 n

/-- A four-byte integer in two's complement. -/
def i32 (v : Int) : List Byte := natBytes 4 (v % 2 ^ 32).toNat

/-- A yes or no field. -/
def flag (b : Bool) : List Byte := u8 (if b then 1 else 0)

/-- An optional field of n bytes behind its presence byte, sent as zeros where absent. -/
def opt {α : Type} (n : Nat) (f : α → List Byte) : Option α → List Byte
  | some v => u8 1 ++ f v
  | none => List.replicate (n + 1) 0

/-- A field the manual leaves without content for some event (assumption log 12). -/
def openly (f : Config.OpenField) (v : Option Nat) : Nat := v.getD (Config.unstated f)

/-- A set as a mask of n bytes over the places of its members. -/
def maskOf (n : Nat) (places : List Nat) : List Byte := natBytes n (places.foldl (fun m i => m ||| 2 ^ i) 0)

/-- A list: a count and its elements. -/
def list {α : Type} (f : α → List Byte) (l : List α) : List Byte := u8 l.length ++ l.flatMap f

/-! ## Shared parts -/

/-- The number of a group. -/
def group (g : Group) : List Byte := u8 (Machine.Group.num g)

/-- A car. -/
def car (c : Car) : List Byte := u8 c.ctorIdx

/-- The alarm route as a set. -/
def route (r : AlarmRoute) : List Byte :=
  maskOf 1 ((if r.report then [0] else []) ++ (if r.lower then [1] else []) ++ (if r.upper then [2] else []))

/-- Counters over threshold as a set. -/
def overSet (o : OverSet) : List Byte :=
  maskOf 1 ((if o.pos then [0] else []) ++ (if o.linkA then [1] else []) ++ (if o.linkB then [2] else []))

/-- The unmet conditions of a warming as a set (R172). -/
def unmet (u : WarmUnmet) : List Byte :=
  maskOf 1 ((if u.ebNotReleased then [0] else []) ++ (if u.carANotFresh then [1] else [])
    ++ (if u.carBNotFresh then [2] else []))

/-- A parked variant. -/
def variant (v : Variant) : List Byte := flag v.keepLinks ++ flag v.keepLoop

/-- A binding ceiling: its name and the two parts that R56 lists with it in that order, the id and the car of a COVER and the car
and the index or id of a target (assumption log 13). -/
def binding : Binding → List Byte
  | .segmentA => u8 0 ++ u8 0 ++ u8 0
  | .segmentB => u8 1 ++ u8 0 ++ u8 0
  | .cover id c => u8 2 ++ u8 id ++ car c
  | .mode => u8 3 ++ u8 0 ++ u8 0
  | .targetSegment c i => u8 4 ++ car c ++ u8 i
  | .targetTsr c id => u8 5 ++ car c ++ u8 id
  | .terminus => u8 6 ++ u8 0 ++ u8 0

/-- The code of a verdict: 0 ADMIT, else the reason numbered from 1 (section 11.3). -/
def verdictCode : Verdict → List Byte
  | .entry _ => u8 0
  | .refuse r => u8 (r.ctorIdx + 1)

/-- A verdict as the poll carries it: its code and k, which is 0 for a refusal (section 11.3). -/
def verdict (v : Verdict) : List Byte :=
  verdictCode v ++ match v with
    | .entry k => u8 k
    | .refuse _ => u8 0

/-- A health counter's count and exponent. -/
def counter (c : Counter) : List Byte := u16 c.count ++ u8 c.exp

/-- The five counters in R179's order. -/
def counters (f : Counter → List Byte) (h : Health) : List Byte := f h.pos ++ f h.linkA ++ f h.linkB ++ f h.gates ++ f h.frames

/-- A DOOR cause; the fault causes follow the others (R123). -/
def doorCause : DoorCause → Nat
  | .fault f => 13 + f.ctorIdx
  | c => c.ctorIdx

/-- The time left on a timer. -/
def timer (n : Nat) (t : Timer) : List Byte := opt n (natBytes n) t

/-! ## Reports (the report tables of chapters 1 to 9) -/

/-- START_UP (R181). -/
def startUp (r : StartUpReport) : List Byte :=
  u8 r.cause.ctorIdx ++ flag r.loaded ++ u8 r.segments ++ u8 r.stops ++ u8 r.markers ++ u8 r.gates ++ u16 r.places
    ++ u16 r.day ++ u8 r.expected.value ++ counters counter r.health

/-- MODE (R183). -/
def mode (r : ModeReport) : List Byte :=
  u8 r.event.ctorIdx ++ u8 r.before.ctorIdx ++ u8 r.after.ctorIdx ++ opt 1 (fun c => u8 c.ctorIdx) r.cause
    ++ opt 2 variant r.variant ++ opt 1 (fun t => u8 t.ctorIdx) r.target ++ opt 1 unmet r.unmet ++ opt 1 overSet r.counters

/-- OVERSPEED (R59). -/
def overspeed (r : OverspeedReport) : List Byte :=
  u8 r.event.ctorIdx ++ u8 r.before.ctorIdx ++ u8 r.after.ctorIdx ++ u32 r.vMeas ++ u16 r.vPerm ++ opt 3 binding r.binding
    ++ i32 r.x ++ u8 r.dir.ctorIdx ++ u16 (openly .overspeedAEff r.aEff) ++ u8 r.order.ctorIdx ++ opt 4 u32 r.wrongWay

/-- BRAKE: the fields of R87's table in order (R198). The command that R71 names for FAULT stands in the report's record and has no
place in that table (assumption log 45). -/
def brake (r : BrakeReport) : List Byte :=
  u8 r.event.ctorIdx ++ opt 1 (fun b => u8 b.ctorIdx) r.brake ++ opt 1 (fun c => u8 c.ctorIdx) r.fault
    ++ opt 1 (fun k => u8 k.ctorIdx) r.kind ++ opt 1 (fun c => u8 c.ctorIdx) r.cause
    ++ opt 1 (fun t => u8 t.ctorIdx) r.result ++ opt 1 (fun a => u8 a.ctorIdx) r.abort ++ opt 4 u32 r.move
    ++ u8 r.sb.ctorIdx ++ u8 r.eb.ctorIdx ++ u8 r.sbReading.ctorIdx ++ u8 r.ebReading.ctorIdx ++ i32 r.x ++ u32 r.vMeas

/-- ALARM (R101). The other car's latch, listed as set or clear, goes as yes and no: set is 1 (DESIGN CHOICE, assumption log
13). -/
def alarm (r : AlarmReport) : List Byte :=
  car r.car ++ u8 (if r.latched then 0 else 1) ++ u8 r.before.ctorIdx ++ u8 r.after.ctorIdx ++ opt 1 u8 r.lastSeq
    ++ flag r.other ++ route r.route ++ u8 (openly .alarmAction r.action) ++ u8 r.haulage.ctorIdx ++ i32 r.x

/-- TICKET_QUERY (R162). -/
def ticketQuery (r : QueryReport) : List Byte := u8 r.gate ++ group r.group ++ car r.car ++ u8 r.number ++ u32 r.ticket

/-- TRIP (R44). -/
def trip (r : TripReport) : List Byte :=
  u8 r.event.ctorIdx ++ i32 r.x ++ u8 r.dir.ctorIdx ++ opt 1 u8 r.dest ++ opt 1 u8 r.stop ++ opt 4 i32 r.offset
    ++ flag r.atStop ++ flag r.onA ++ flag r.onB ++ opt 1 (fun k => u8 k.ctorIdx) r.kind ++ opt 1 u8 r.head
    ++ flag r.ready ++ flag r.fault

/-- DOOR (R123). -/
def door (r : DoorReport) : List Byte :=
  car r.car ++ u8 r.side.ctorIdx ++ u8 r.event.ctorIdx ++ u8 r.before.ctorIdx ++ u8 r.after.ctorIdx
    ++ u8 (openly .doorCause (r.cause.map doorCause)) ++ opt 1 (fun k => u8 k.ctorIdx) r.kind ++ opt 1 u8 r.stop
    ++ u8 r.retries ++ u8 r.freshness.ctorIdx ++ u8 r.haulage.ctorIdx

/-- WINDOW (R162). -/
def window (r : WindowReport) : List Byte :=
  group r.group ++ u8 r.before.ctorIdx ++ u8 r.after.ctorIdx ++ u8 r.cause.ctorIdx ++ opt 1 car r.car ++ opt 1 u8 r.stop
    ++ u8 r.pending

/-- ADMISSION (R162). The verdict is its code behind a presence byte; k is a field of its own further on. -/
def admission (r : AdmissionReport) : List Byte :=
  u8 r.gate ++ group r.group ++ u8 (openly .admissionCar (r.car.map Car.ctorIdx)) ++ u32 (r.ticket.getD 0)
    ++ u8 r.event.ctorIdx ++ opt 1 verdictCode r.verdict ++ u8 (openly .admissionSeats r.k) ++ u8 r.passed
    ++ u8 (r.remainder.getD 0) ++ u16 (r.aEff.getD 0) ++ u8 (openly .admissionMin r.aboardMin)
    ++ u8 (openly .admissionMax r.aboardMax) ++ u8 (openly .admissionFlight r.inFlight)

/-- GATE (R162). -/
def gate (r : GateReport) : List Byte :=
  u8 r.gate ++ group r.group ++ u8 r.event.ctorIdx ++ u8 r.before.ctorIdx ++ u8 r.after.ctorIdx ++ u8 r.misses
    ++ opt 1 u8 r.code

/-- ACCESS_DONE (R162). -/
def accessDone (r : AccessReport) : List Byte :=
  u8 (r.slot.ctorIdx + 1) ++ u8 r.gate ++ u8 r.command.ctorIdx ++ u8 r.argument ++ u8 r.result.ctorIdx ++ opt 2 u16 r.data

/-- HEALTH (R183). -/
def health (r : HealthReport) : List Byte :=
  u8 r.counter.ctorIdx ++ u8 (if r.isOver then 0 else 1) ++ u16 r.count ++ u8 r.exp ++ u8 r.mode.ctorIdx

/-- CAR_LINK (R101). -/
def carLink (r : CarLinkReport) : List Byte :=
  car r.car ++ u8 r.event.ctorIdx ++ u8 r.before.ctorIdx ++ u8 r.after.ctorIdx ++ opt 1 flag r.value ++ opt 1 u8 r.lastSeq
    ++ u16 r.counter

/-- POSITION (R22). -/
def position (r : PositionReport) : List Byte :=
  u8 r.cause.ctorIdx ++ i32 r.before ++ i32 r.after ++ u8 r.validity.ctorIdx ++ u8 (r.marker.getD 0)
    ++ opt 1 (fun e => u8 e.ctorIdx) r.switch

/-- The class fields of a report (R198). -/
def reportFields : Report → List Byte
  | .startUp r => startUp r
  | .mode r => mode r
  | .overspeed r => overspeed r
  | .brake r => brake r
  | .alarm r => alarm r
  | .ticketQuery r => ticketQuery r
  | .trip r => trip r
  | .door r => door r
  | .window r => window r
  | .admission r => admission r
  | .gate r => gate r
  | .accessDone r => accessDone r
  | .health r => health r
  | .carLink r => carLink r
  | .position r => position r

/-! ## Refusals (R189, R198) -/

/-- The detail of a refusal; sets of inhibits and reasons are 2-byte masks (R198). -/
def detail : Detail → List Byte
  | .empty => []
  | .kind k => [k]
  | .length n => u8 n
  | .field o => u8 o
  | .mode m => u8 m.ctorIdx
  | .inhibits l => maskOf 2 (l.map Inhibit.ctorIdx)
  | .tripReasons l => maskOf 2 (l.map TripReason.ctorIdx)
  | .testReasons l => maskOf 2 (l.map TestReason.ctorIdx)
  | .releaseReasons l => maskOf 2 (l.map ReleaseReason.ctorIdx)
  | .evacReasons l => maskOf 2 (l.map EvacReason.ctorIdx)
  | .modeReasons l => maskOf 2 (l.map ModeReason.ctorIdx)
  | .alarm active => flag active
  | .door moving => flag moving
  | .config c => u8 c.ctorIdx
  | .counters o => overSet o
  | .day d => u16 d
  | .window w => u8 w.ctorIdx
  | .insert o => u8 o.ctorIdx
  | .code c => u8 c.value

/-! ## Reply data (the owners' rules) -/

/-- POSITION_READ (R23). -/
def positionData (d : PositionData) : List Byte :=
  i32 d.x ++ i32 d.xc ++ u8 d.validity.ctorIdx ++ u16 d.u ++ u32 d.sm ++ u32 d.vMeas ++ flag d.standstill ++ opt 1 u8 d.segA
    ++ opt 1 u8 d.segB ++ flag d.lower ++ flag d.upper ++ flag d.otLower ++ flag d.otUpper ++ flag d.loaded

/-- The berth record (R25). -/
def berth (b : Berth) : List Byte := opt 1 u8 b.stop ++ flag b.onA ++ flag b.onB

/-- HAULAGE_READ (R45). -/
def haulageData (d : HaulageData) : List Byte :=
  u8 d.state.ctorIdx ++ berth d.berth ++ opt 1 u8 d.dest ++ u8 d.dir.ctorIdx ++ list u8 d.plan ++ flag d.legMark
    ++ u16 d.vRef ++ flag d.ramp ++ flag d.ready ++ flag d.fault ++ maskOf 2 (d.inhibits.map Inhibit.ctorIdx)
    ++ flag d.notHeld

/-- The six values of a load snapshot (R48, R67). -/
def loads (l : PerCar CarLoad) : List Byte :=
  u8 l.a.aboardMin ++ u8 l.a.aboardMax ++ u8 l.b.aboardMin ++ u8 l.b.aboardMax ++ opt 2 u16 l.a.reported
    ++ opt 2 u16 l.b.reported

/-- A TSR entry (R64). -/
def tsr (z : Tsr) : List Byte := u8 z.id ++ i32 z.start ++ i32 z.stop ++ u16 z.speed

/-- ENVELOPE_READ (R67). -/
def envelopeData (d : EnvelopeData) : List Byte :=
  car d.braking.descending ++ u16 d.braking.wD ++ u16 d.braking.wA ++ u16 d.braking.excess ++ opt 10 loads d.snapshot
    ++ u16 (openly .envelopeTerm d.sine) ++ u16 (openly .envelopeTerm d.penalty) ++ u16 d.braking.aEff ++ flag d.braking.imbalance
    ++ u16 (openly .envelopeTerm d.c) ++ u16 d.vPerm ++ opt 3 binding d.binding ++ u8 d.level.ctorIdx
    ++ u16 (openly .envelopeTerm d.mS) ++ u16 (openly .envelopeTerm d.mE) ++ u32 d.acc ++ flag d.ordered ++ list tsr d.tsrs

/-- A brake's command, state, reading and whether its timer runs (R88). -/
def brakeRec (r : BrakeRec) (x : Reading) : List Byte :=
  u8 r.cmd.ctorIdx ++ u8 r.state.ctorIdx ++ u8 x.ctorIdx ++ flag r.timer.isSome

/-- The state of a deceleration check, absent for a kind without one (R77). -/
def check : DecelCheck → List Byte
  | .absent => u8 0 ++ u8 0
  | .running _ => u8 1 ++ u8 0
  | .passed => u8 1 ++ u8 1
  | .failed => u8 1 ++ u8 2

/-- The stop record (R74). -/
def stopRecord (r : StopRecord) : List Byte :=
  u8 r.kind.ctorIdx ++ u8 r.cause.ctorIdx ++ i32 r.x ++ u32 r.vMeas ++ check r.check

/-- BRAKE_READ (R88). -/
def brakeData (d : BrakeData) : List Byte :=
  brakeRec d.recs.sb d.readings.sb ++ brakeRec d.recs.eb d.readings.eb ++ opt 12 stopRecord d.stop
    ++ opt 1 (fun c => u8 c.ctorIdx) d.latch ++ flag d.railTrip
    ++ opt 6 (fun (t : BrakeTest) => u8 t.brake.ctorIdx ++ u8 t.phase.ctorIdx ++ u32 t.move) d.test ++ flag d.torqueLine
    ++ maskOf 2 (d.reasons.map TripReason.ctorIdx)

/-- The fields of a status frame in R90's order. -/
def status (c : Car) (x : CarStatus) : List Byte :=
  car c ++ u8 x.seq ++ u8 x.doors.left.leaf.ctorIdx ++ u8 x.doors.right.leaf.ctorIdx ++ flag x.doors.left.ack
    ++ flag x.doors.right.ack ++ flag x.doors.left.obstruction ++ flag x.doors.right.obstruction ++ flag x.alarm
    ++ flag x.crewKey ++ flag x.rail ++ opt 2 u16 x.load
    ++ opt 2 (fun (m : MarkerField) => u8 m.id ++ u8 m.passage) x.marker

/-- The levels of a command frame as five fields (R92). -/
def levels (l : CommandLevels) : List Byte :=
  flag l.releaseLeft ++ flag l.releaseRight ++ flag l.closeLeft ++ flag l.closeRight ++ flag l.railTrip

/-- A car record (R102). -/
def carRec (c : Car) (r : CarRec) : List Byte :=
  u8 r.freshness.ctorIdx ++ opt 17 (status c) r.status ++ opt 1 u8 r.lastSeq ++ opt 2 u16 r.since ++ u8 r.discards
    ++ u16 r.accepted ++ u16 r.discarded ++ u16 r.duplicates ++ flag r.alarm ++ flag r.running

/-- CAR_READ (R102). -/
def carData (d : CarData) : List Byte :=
  carRec .a d.recs.a ++ carRec .b d.recs.b ++ route d.route ++ flag d.lowerLine ++ flag d.upperLine
    ++ levels d.recs.a.lastSent ++ levels d.recs.b.lastSent

/-- A door-side record (R124). -/
def doorSide (r : DoorSide) : List Byte :=
  u8 r.state.ctorIdx ++ flag r.state.releaseLevel ++ flag r.state.closeLevel ++ opt 1 (fun k => u8 k.ctorIdx) r.kind
    ++ opt 1 u8 r.stop ++ u8 r.retries ++ timer 2 r.ackTimer ++ timer 2 r.closeTimer ++ timer 2 r.retryTimer
    ++ opt 1 (fun f => u8 f.ctorIdx) r.faultCause

/-- DOOR_READ (R124). -/
def doorData (d : DoorData) : List Byte :=
  doorSide d.sides.a.left ++ doorSide d.sides.a.right ++ doorSide d.sides.b.left ++ doorSide d.sides.b.right
    ++ flag d.cleared.a ++ flag d.cleared.b

/-- The outcome of a PASS_INSERT: its name, the position of the entry where there is one, counted from 0, and the field where
there is one (R129, assumption log 13). -/
def insertEnd : InsertEnd → List Byte
  | .complete => u8 0 ++ opt 1 u8 none ++ opt 1 u8 none
  | .tableFull i => u8 1 ++ opt 1 u8 (some i) ++ opt 1 u8 none
  | .badField i o => u8 2 ++ opt 1 u8 (some i) ++ opt 1 u8 (some o)

/-- A recorded admission of a PERIOD entry. -/
def passUse (x : PassUse) : List Byte := group x.group ++ u16 x.day ++ u32 x.second

/-- A pass table entry in R126's order. -/
def passEntry (e : PassEntry) : List Byte :=
  u32 e.id ++ u8 e.kind.ctorIdx ++ u8 e.state.ctorIdx ++ opt 1 u8 e.rides ++ opt 2 u16 e.loaded ++ opt 2 u16 e.validFrom
    ++ opt 2 u16 e.validTo ++ opt 7 passUse e.last ++ opt 7 passUse e.prior ++ flag e.wasConsumed ++ u8 e.held
    ++ flag e.removal

/-- The table summary (R132). -/
def summary (x : PassSummary) : List Byte :=
  u16 x.day ++ u32 x.clock ++ u16 x.places ++ u16 x.marked ++ u16 x.withHeld ++ u16 x.heldSum

/-- A gate's current admission (R143). -/
def admissionRec (a : Admission) : List Byte :=
  u32 (a.ticket.getD 0) ++ car a.car ++ u8 a.k ++ u8 a.pending ++ u8 a.passed ++ timer 2 a.deadline

/-- A gate record (R143). -/
def gateRec (g : GateRec) : List Byte :=
  u8 g.address ++ group g.group ++ u8 g.state.ctorIdx ++ u8 g.misses ++ opt 1 u8 g.code ++ flag g.lockNote
    ++ opt 2 verdict g.verdict ++ opt 11 admissionRec g.admission ++ u8 g.queryNumber ++ u32 (g.queryTicket.getD 0)
    ++ timer 2 g.queryTimer
    ++ opt 6 (fun (q : EndedQuery) => u8 q.number ++ u32 q.ticket ++ u8 q.how.ctorIdx) g.lastQuery

/-- A boarding window (R163). -/
def windowRec (w : Window) : List Byte :=
  u8 w.state.ctorIdx ++ opt 1 car w.car ++ opt 1 u8 w.stop ++ timer 4 w.dwell

/-- The request an access slot holds (R163). -/
def slot (r : AccessRequest) : List Byte := u8 r.gate ++ u8 r.command.ctorIdx ++ u8 r.argument ++ u8 r.polls

/-- The tally of a car (R163). -/
def tally (t : Tally) : List Byte := u8 t.aboardMin ++ u8 t.aboardMax ++ u8 t.inFlight ++ flag t.unknown

/-- BOARDING_READ (R163). -/
def boardingData (d : BoardingData) : List Byte :=
  list gateRec d.gates ++ windowRec d.windows.g1 ++ windowRec d.windows.g2 ++ windowRec d.windows.g3
    ++ windowRec d.windows.g4 ++ opt 4 slot d.slots.s1 ++ opt 4 slot d.slots.s2 ++ tally d.tally.a ++ tally d.tally.b
    ++ flag d.running

/-- The supervision timer: its state and the time left while it runs (R176). -/
def supTimer : SupTimer → List Byte
  | .notStarted => u8 0 ++ timer 2 none
  | .running n => u8 1 ++ timer 2 (some n)
  | .stopped => u8 2 ++ timer 2 none

/-- MODE_READ (R183). -/
def modeData (d : ModeData) : List Byte :=
  u8 d.mode.ctorIdx ++ opt 2 variant d.variant ++ opt 1 (fun t => u8 t.ctorIdx) d.target ++ timer 2 d.warmTimer
    ++ u8 d.expected.value ++ supTimer d.supTimer ++ flag d.lost ++ u8 d.cause.ctorIdx

/-- The totals of LINK_READ in R195's order. -/
def totals (t : LinkTotals) : List Byte :=
  u16 t.received ++ u16 t.skipped ++ u16 t.abandoned ++ u16 t.lengthDiscards ++ u16 t.checkDiscards ++ u16 t.badRefusals
    ++ u16 t.overloads ++ u16 t.unanswered ++ u16 t.repliesSent ++ u16 t.reportsSent ++ u16 t.reportsLost

/-- LINK_READ (R195). -/
def linkData (d : LinkData) : List Byte :=
  u8 d.places ++ u8 d.overloads ++ u8 d.queued ++ u16 d.mask.toNat ++ u8 d.lost ++ totals d.totals

/-- The data of an ACCEPTED reply (R189, R198). -/
def replyData : ReplyData → List Byte
  | .none => []
  | .position d => positionData d
  | .queueLength n => u8 n
  | .departed stop pos dir => u8 stop ++ i32 pos ++ u8 dir.ctorIdx
  | .haulageState h => u8 h.ctorIdx
  | .haulage d => haulageData d
  | .tsrAdded speed replaced held => u16 speed ++ flag replaced ++ u8 held
  | .tsrRemoved removed held => flag removed ++ u8 held
  | .envelope d => envelopeData d
  | .brakes d => brakeData d
  | .alarmCleared wasSet => flag wasSet
  | .route r => route r
  | .cars d => carData d
  | .released yes => flag yes
  | .doorState d => u8 d.ctorIdx
  | .doors d => doorData d
  | .inserted new replaced how places => u8 new ++ u8 replaced ++ insertEnd how ++ u16 places
  | .deleted notFound deleted deferred places => u8 notFound ++ u8 deleted ++ u8 deferred ++ u16 places
  | .blocked changed left notFound => u8 changed ++ u8 left ++ u8 notFound
  | .pass e x => (e.map passEntry).getD [] ++ summary x
  | .dayset purged deferred places => u16 purged ++ u16 deferred ++ u16 places
  | .extended seconds => u16 seconds
  | .windowState w => u8 w.ctorIdx
  | .answered v o => verdict v ++ u8 o.ctorIdx
  | .boarding d => boardingData d
  | .modeSet already m => flag already ++ u8 m.ctorIdx
  | .supervised code wasLost => u8 code.value ++ flag wasLost
  | .healthSet count exp isOver => u16 count ++ u8 exp ++ flag isOver
  | .health h => counters (fun c => counter c ++ flag c.isOver) h
  | .mode d => modeData d
  | .mask m => u16 m.toNat
  | .link d => linkData d

/-! ## Frames (R184, R197 to R200) -/

/-- The frame of a reply: ACCEPTED 0x40 or REFUSED 0x41 with the kind answered first (R198). -/
def replyFrame (r : Reply) : List Byte :=
  match r.answer with
  | .accepted d => frameBytes 0x40 r.tag (r.kind :: replyData d)
  | .refused reason x => frameBytes 0x41 r.tag (r.kind :: u8 (reason.ctorIdx + 1) ++ detail x)

/-- The frame of a report with the lost count it carries and tag 0 (R190, R192, R198). -/
def reportFrame (lost : Nat) (r : Report) : List Byte :=
  frameBytes (BitVec.ofNat 8 (0x80 + r.cls.index)) 0 (u8 lost ++ reportFields r)

/-- The bytes of the frame on the transmit line (R194). -/
def sendingFrame : Sending → List Byte
  | .reply r => replyFrame r
  | .report lost r => reportFrame lost r

/-- A command frame of a car link (R92, R199). -/
def commandFrame (c : Car) (l : CommandLevels) : List Byte :=
  let levels := maskOf 1 ((if l.releaseLeft then [0] else []) ++ (if l.releaseRight then [1] else [])
    ++ (if l.closeLeft then [2] else []) ++ (if l.closeRight then [3] else []) ++ (if l.railTrip then [4] else []))
  let body := carId c :: levels
  0x6C :: body ++ checkBytes (crc16 body)

/-- A poll frame (R144, R200). -/
def pollFrame (p : Poll) : List Byte :=
  let bits := maskOf 1 ((if p.windowOpen then [0] else []) ++ (if p.verdict.isSome then [1] else [])
    ++ (if p.access.isSome then [2] else []))
  let access : List Byte := match p.access with
    | some a => u8 (a.slot.ctorIdx + 1) ++ u8 a.command.ctorIdx ++ u8 a.argument
    | none => [0, 0, 0]
  let body := u8 p.address ++ bits ++ (p.verdict.map verdict).getD [0, 0] ++ access
  body ++ checkBytes (crc16 body)

/-- The drive word (R41, R200). -/
def driveFrame (w : DriveWord) : List Byte :=
  let body := u16 w.vRef ++ u8 w.dir.ctorIdx
  0x71 :: body ++ [~~~(body.foldl (· + ·) 0)]

end Sys2Proof.Machine.Layout
end

