-- ==== Sys2Proof/Tests/Slice0.lean ====
section
/-! SUPPORT. Tests: commands that WellFormed refuses, values that the spec's worked examples give, and for each statement with
hypotheses a state and operands that meet them. -/

namespace Sys2Proof.Tests

/- One theorem after the other: many small theorems at once take many threads. -/
set_option Elab.async false

open Sys2Proof Sys2Proof.Machine

/-! ## Small states -/

/-- The line of chapter 2's worked example; the fields that it leaves out are taken within R3's ranges. -/
def line : LineFields :=
  { lineLength := 1200000, vLineMax := 10000, vReduced := 4000, vCreep := 300, dCreep := 2000, berthTol := 20, platWindow := 80,
    aAcc := 600, aDec := 500, aSs := 400, aEb := 1200, aFloor := 600, tR := 800, overrun := 4000, u0 := 200, uPm := 2,
    uMax := 3000, mEq := 36000, mP := 75, capacity := 60, guard := 300, mSPm := 50, mEPm := 100, mSAbs := 300, mEAbs := 600,
    vRail := 12500, aCheck := 800, tCheck := 1000, vStill := 10, tStill := 500, tSbResp := 1000, tEbResp := 1500,
    scaleP := 250, scaleC := 400, tEnc := 300, wQuiet := 500, wCorr := 1000, dwell := 40, tPass := 10, tClose := 8,
    passback := 300, tSup := 1000, tWarm := 8, tTest := 5, alarmAction := 1, autoClose := 0, queryEnable := 1 }

/-- A stop record with platforms for car A on the left and for car B on both sides. -/
def stopAt (index pos : Nat) : StopRec :=
  { index := index, pos := pos
    car := ⟨{ sides := .left, group := some .g1, terminal := false }, { sides := .both, group := some .g2, terminal := false }⟩ }

/-- A door side that stands SECURED. -/
def shutSide : DoorSide := { DoorSide.reset with state := .secured }

/-- The status of a car whose doors are locked. -/
def quiet : CarStatus :=
  { seq := 7, doors := ⟨{ leaf := .locked, ack := false, obstruction := false }, { leaf := .locked, ack := false, obstruction := false }⟩,
    alarm := false, crewKey := false, rail := false, load := none, marker := none }

/-- A car record that is FRESH. -/
def freshCar : CarRec := { CarRec.reset with freshness := .fresh, status := some quiet, lastSeq := some 7, since := some 20 }

/-- A running line in SERVICE: HELD at stop 0 with a plan, every side SECURED, both cars FRESH, SB applied and EB released, the
transmitter sending. -/
def idle : State :=
  { State.reset with
    line := some line
    segs := [{ start := 0, vLimit := 10000, vCruise := 8000, sinePm := 100, walkway := .left }]
    stops := [stopAt 0 0, stopAt 1 300000, stopAt 2 520000]
    ptr := { Tracker.reset with
      x := 300000, xc := 300000, first := .ordinary, standstill := true, still := some 600, validity := .valid,
      hist := [{ p := 300000, c := 300000 }], countP := 1200000, countC := 750000, u := 200 }
    hac := { Haulage.reset with berth := { stop := some 1, onA := true, onB := true }, plan := [2, 0] }
    osp := { Supervisor.reset with vPerm := 10000, binding := some .segmentA, fresh := false, heldRef := 300000 }
    bsq := { Brakes.reset with
      recs := ⟨{ cmd := .apply, state := .applied, timer := none }, { cmd := .release, state := .released, timer := none }⟩
      contacts := ⟨{ applied := true, released := false }, { applied := false, released := true }⟩ }
    clu := { CarLinks.reset with recs := ⟨freshCar, freshCar⟩ }
    dru := { Doors.reset with sides := ⟨⟨shutSide, shutSide⟩, ⟨shutSide, shutSide⟩⟩ }
    glm := { GateLoop.reset with
      gates := [{ GateRec.fresh 1 .g1 with state := .shut }, { GateRec.fresh 2 .g1 with state := .shut },
                { GateRec.fresh 5 .g2 with state := .shut }]
      poll := some { address := 1, windowOpen := false, verdict := none, access := none, timer := some 8 }
      cursor := 1, cycle := 1 }
    tally := ⟨{ Tally.reset with aboardMax := 60, unknown := false }, { Tally.reset with unknown := false }⟩
    lmu := { LineMode.reset with mode := .service, expected := .cC3, supTimer := .running 900 } }

/-- A brake record at rest. -/
def resting (cmd : BrakeCmd) (state : BrakeState) : BrakeRec := { cmd := cmd, state := state, timer := none }

/-- Both brakes commanded APPLY and applied. -/
def braked (s : State) : State :=
  { s with bsq := { s.bsq with
      recs := ⟨resting .apply .applied, resting .apply .applied⟩
      contacts := ⟨{ applied := true, released := false }, { applied := true, released := false }⟩ } }

/-- Both brakes released. -/
def lifted (s : State) : State :=
  { s with bsq := { s.bsq with
      recs := ⟨resting .release .released, resting .release .released⟩
      contacts := ⟨{ applied := false, released := true }, { applied := false, released := true }⟩ } }

/-- The line in another mode. -/
def inMode (m : Mode) (s : State) : State := { s with lmu := { s.lmu with mode := m } }

/-- PARKED with both flags kept. -/
def parkedLine : State :=
  braked { idle with
    lmu := { idle.lmu with mode := .parked, variant := some { keepLinks := true, keepLoop := true } }
    osp := { idle.osp with vPerm := 0, binding := none, fresh := true } }

/-- A trip to stop 2 under way at 3,000 mm/s. -/
def moving : State :=
  lifted { idle with
    ptr := { idle.ptr with standstill := false, still := none, vMeas := 3000 }
    hac := { idle.hac with
      state := .motoring, berth := .offStop, dest := some 2, legMark := true, vRef := 3000, stalled := true }
    osp := { idle.osp with snapshot := some ⟨{ aboardMin := 0, aboardMax := 60, reported := none },
                                             { aboardMin := 0, aboardMax := 0, reported := none }⟩ } }

/-- The same trip with car A at a position. -/
def movingAt (x : Int) : State := { moving with ptr := { moving.ptr with x := x } }

/-- A stop of a kind in the record of a trip that comes to rest. -/
def stopped (kind : StopKind) (check : DecelCheck) : State :=
  { moving with
    hac := { moving.hac with state := .stopping, vRef := 0 }
    bsq := { moving.bsq with
      recs := ⟨{ cmd := .apply, state := .setting, timer := some 900 }, resting .release .released⟩
      contacts := ⟨.bothOpen, { applied := false, released := true }⟩
      stop := some { kind := kind, cause := .overspeed, x := 300000, vMeas := 3000, check := check } } }

/-- A brake of the idle line with a record and contacts of its own. -/
def brakeAs (b : BrakeId) (cmd : BrakeCmd) (state : BrakeState) (timer : Timer) (x y : Bool) (s : State) : State :=
  { s with bsq := { s.bsq with
      recs := s.bsq.recs.set b { cmd := cmd, state := state, timer := timer }
      contacts := s.bsq.contacts.set b { applied := x, released := y } } }

/-- A torque test of SB in progress. -/
def testing : State :=
  { idle with bsq := { idle.bsq with
      torqueLine := true, test := some { brake := .sb, phase := .torque, ref := 300000, move := 0, timer := some 5000 } } }

/-- TRIPPED and at rest with every reason against a TRIP_RESET gone. -/
def tripped : State :=
  braked { idle with
    lmu := { idle.lmu with mode := .tripped }, bsq := { idle.bsq with latch := some .rail, railTrip := true } }

/-- EVACUATION at rest between stops. -/
def evacuation : State :=
  { idle with
    lmu := { idle.lmu with mode := .evacuation }, hac := { idle.hac with berth := .offStop } }

/-- Car A with a changed record. -/
def withCar (f : CarRec → CarRec) (s : State) : State := s.setCar .a (f (s.car .a))

/-- Car A's left side with a changed record. -/
def withSide (f : DoorSide → DoorSide) (s : State) : State := s.setSide .a .left (f (s.side .a .left))

/-- An entry of the Pass Table. -/
def entry (id : Nat) (kind : PassKind) (rides : Option Nat) : PassEntry :=
  { id := id, kind := kind, state := .active, rides := rides, loaded := if kind = .multi then rides else none, validFrom := none,
    validTo := some 410, last := none, prior := none, wasConsumed := false, held := 0, removal := false }

/-- A Pass Table with a party ticket, a ticket with one person held, a blocked one and one that is spent. -/
def tickets : PassTable :=
  { entries := [entry 7001 .party (some 4), { entry 7002 .multi (some 2) with loaded := some 3, held := 1 },
                { entry 7003 .single none with state := .blocked, wasConsumed := true, validTo := some 420 },
                { entry 7004 .single none with state := .consumed, validTo := none }]
    day := 405, clock := 3600 }

/-- A gate with a changed record. -/
def withGate (a : Nat) (f : GateRec → GateRec) (s : State) : State := onGate a f s

/-- The boarding window of group 1 OPEN for car A, its gates READY, tickets held. -/
def boarding : State :=
  withGate 2 (fun g => { g with state := .ready, misses := 0 }) (withGate 1 (fun g => { g with state := .ready, misses := 0 })
    { withSide (fun r => { r with state := .opened, kind := some .auto, stop := some 1 }) idle with
      ptb := tickets
      glm := { idle.glm with
        windows := idle.glm.windows.set .g1 { state := .opened, car := some .a, stop := some 1, dwell := some 30000 } } })

/-- A ticket query in flight at gate 2. -/
def querying : State :=
  withGate 2 (fun g => { g with state := .query, queryNumber := 3, queryTicket := some 9100, queryTimer := some 700 }) boarding

/-- An admission of four persons on ticket 7001, one of them through. -/
def party : Admission :=
  { ticket := some 7001, car := .a, k := 4, pending := 3, passed := 1, deadline := some 4000, staff := none }

/-- Four persons of ticket 7001 passing at gate 2, one of them through. -/
def passing : State :=
  withGate 2 (fun g => { g with state := .passing, admission := some party })
    { boarding with
      ptb := tickets.put { entry 7001 .party (some 4) with state := .consumed, held := 3 }
      tally := boarding.tally.set .a { aboardMin := 1, aboardMax := 1, inFlight := 3, unknown := false } }

/-- WARMING for SERVICE. -/
def warming : State :=
  brakeAs .eb .release .lifting (some 900) false false { idle with
    lmu := { idle.lmu with mode := .warming, target := some .service, warmTimer := some 2000 }
    osp := { idle.osp with vPerm := 0, binding := none, fresh := true } }

/-- The device held by the reset line. -/
def held : State := { idle with inReset := some .resetLine }

/-- The link changed. -/
def withLink (f : Link → Link) (s : State) : State := { s with slp := f s.slp }

/-- A waiting reply of a tag. -/
def waitingReply (tag : Byte) : Waiting := { overload := false, reply := { tag := tag, kind := 0x2E, answer := .accepted .none } }

/-- A report of a maskable class. -/
def offlineReport : Report :=
  .gate { gate := 1, group := .g1, event := .offline, before := .shut, after := .offline, misses := 3, code := none }

/-- A report of an unmaskable class. -/
def queryReport : Report := .ticketQuery { gate := 2, group := .g1, car := .a, number := 1, ticket := 9100 }

/-- A segment record of LOAD_SEGMENTS. -/
def segmentFields (start : Nat) : SegmentFields := { start := start, vLimit := 1000, vCruise := 800, sinePm := 100, walkway := 1 }

/-- A stop record of LOAD_STOPS. -/
def stopFields (index pos : Nat) : StopFields :=
  { index := index, pos := pos, carA := { sides := 1, group := 1, terminal := 0 }, carB := { sides := 0, group := 0, terminal := 1 } }

/-- A pass entry as PASS_INSERT carries it, a PERIOD ticket. -/
def passFields (id : Nat) : PassFields :=
  { id := id, kind := 2, state := 0, ridesPresent := 0, rides := 0, fromPresent := 1, validFrom := 400, toPresent := 1, validTo := 420 }

/-! ## Well-formed commands: each check refuses an ill-formed command -/

theorem test_listFits_refuses :
    (Instr.loadSegments 0 (List.replicate 35 (segmentFields 0))).wellFormed = false ∧
      (Instr.loadStops 0 (List.replicate 22 (stopFields 0 0))).wellFormed = false ∧
      (Instr.loadMarkers 0 (List.replicate 40 ⟨1, 0, 0⟩)).wellFormed = false ∧
      (Instr.loadGates 0 (List.replicate 120 ⟨1, 1⟩)).wellFormed = false ∧
      (Instr.planSet 0 (List.replicate 240 1)).wellFormed = false ∧
      (Instr.passInsert 0 (List.replicate 18 (passFields 1))).wellFormed = false ∧
      (Instr.passDelete 0 (List.replicate 60 1)).wellFormed = false ∧
      (Instr.passBlock 0 (List.replicate 60 1)).wellFormed = false ∧
      (Instr.passUnblock 0 (List.replicate 60 1)).wellFormed = false := by decide +kernel

theorem test_records_refused :
    (Instr.loadSegments 0 [segmentFields (2 ^ 22)]).wellFormed = false ∧
      (Instr.loadSegments 0 [{ segmentFields 0 with vLimit := 2048 }]).wellFormed = false ∧
      (Instr.loadSegments 0 [{ segmentFields 0 with vCruise := 2048 }]).wellFormed = false ∧
      (Instr.loadSegments 0 [{ segmentFields 0 with sinePm := 1024 }]).wellFormed = false ∧
      (Instr.loadSegments 0 [{ segmentFields 0 with walkway := 4 }]).wellFormed = false ∧
      (Instr.loadStops 0 [stopFields 256 0]).wellFormed = false ∧
      (Instr.loadStops 0 [stopFields 0 (256 ^ 4)]).wellFormed = false ∧
      (Instr.loadStops 0 [{ stopFields 0 0 with carA := { sides := 256, group := 0, terminal := 0 } }]).wellFormed = false ∧
      (Instr.loadStops 0 [{ stopFields 0 0 with carB := { sides := 0, group := 256, terminal := 0 } }]).wellFormed = false ∧
      (Instr.loadMarkers 0 [⟨256, 0, 0⟩]).wellFormed = false ∧ (Instr.loadMarkers 0 [⟨1, 256 ^ 4, 0⟩]).wellFormed = false ∧
      (Instr.loadMarkers 0 [⟨1, 0, 256⟩]).wellFormed = false ∧ (Instr.loadGates 0 [⟨256, 1⟩]).wellFormed = false ∧
      (Instr.loadGates 0 [⟨1, 256⟩]).wellFormed = false ∧ (Instr.passInsert 0 [passFields (256 ^ 4)]).wellFormed = false ∧
      (Instr.passInsert 0 [{ passFields 1 with validTo := 65536 }]).wellFormed = false ∧
      (Instr.planSet 0 [256]).wellFormed = false ∧ (Instr.passDelete 0 [256 ^ 4]).wellFormed = false := by decide

theorem test_fields_refused :
    (Instr.configureLine 0 { line with vLineMax := 65536 }).wellFormed = false ∧
      (Instr.configureLine 0 { line with lineLength := 256 ^ 4 }).wellFormed = false ∧
      (Instr.configureLine 0 { line with queryEnable := 256 }).wellFormed = false ∧
      (Instr.tsrAdd 0 256 0 1 1).wellFormed = false ∧ (Instr.tsrAdd 0 1 (256 ^ 4) 1 1).wellFormed = false ∧
      (Instr.tsrAdd 0 1 0 (256 ^ 4) 1).wellFormed = false ∧ (Instr.tsrAdd 0 1 0 1 65536).wellFormed = false ∧
      (Instr.planAppend 0 256).wellFormed = false ∧ (Instr.tsrRemove 0 256).wellFormed = false ∧
      (Instr.brakeTest 0 256).wellFormed = false ∧ (Instr.alarmClear 0 256).wellFormed = false ∧
      (Instr.alarmRouteSet 0 256).wellFormed = false ∧ (Instr.alarmRouteClear 0 256).wellFormed = false ∧
      (Instr.doorRelease 0 256 0).wellFormed = false ∧ (Instr.evacRelease 0 0 256).wellFormed = false ∧
      (Instr.doorClose 0 256 0).wellFormed = false ∧ (Instr.passRead 0 (256 ^ 4)).wellFormed = false ∧
      (Instr.setDay 0 65536).wellFormed = false ∧ (Instr.boardingExtend 0 1 65536).wellFormed = false ∧
      (Instr.boardingClose 0 256).wellFormed = false ∧ (Instr.ticketAnswer 0 1 256 0 0 (passFields 1)).wellFormed = false ∧
      (Instr.gateAccess 0 1 1 0 256).wellFormed = false ∧ (Instr.setMode 0 256 0 0).wellFormed = false ∧
      (Instr.supervise 0 256).wellFormed = false ∧ (Instr.healthSet 0 0 65536 0).wellFormed = false ∧
      (Instr.reportMaskSet 0 65536).wellFormed = false ∧ (Instr.reportMaskClear 0 65536).wellFormed = false := by decide

theorem test_events_refused :
    (Instr.dwellExpiry 0).wellFormed = false ∧ (Instr.dwellExpiry 5).wellFormed = false ∧
      (Instr.queryTimeout 17).wellFormed = false ∧ (Instr.passageDeadline 0).wellFormed = false ∧
      (Instr.badLengthDiscard 240).wellFormed = false ∧
      (Instr.supervisoryFrame 0 0 (List.replicate 241 0) 0).wellFormed = false := by decide +kernel

/-! ## Values that the manual's worked examples and conventions give -/

/-- The check that R184 gives for the nine ASCII bytes of the digits 1 to 9. -/
theorem test_crc_of_digits : crc16 [0x31, 0x32, 0x33, 0x34, 0x35, 0x36, 0x37, 0x38, 0x39] = 0x29B1 := by decide +kernel

/-- The table spells no command by bits (assumption log 1). -/
theorem test_no_table_word : decodeTableWord 8 5 = none ∧ idle.withFetchWord 8 5 = idle := ⟨rfl, rfl⟩

/-- Roots of chapters 2 and 3. -/
theorem test_roots :
    isqrt 218000000 = 14764 ∧ isqrt 148000000 = 12165 ∧ isqrt 59280000 = 7699 ∧ isqrt 113608516 = 10658 ∧ isqrt 39589921 = 6292 := by
  decide

/-- Chapter 2's first update in MOTORING: the reference rises by 12. -/
theorem test_first_update :
    (match exec (.driveReferenceUpdate true false) { moving with hac := { moving.hac with vRef := 0 } } with
      | .next t => some (t.hac.state, t.hac.vRef)
      | _ => none) = some (.motoring, 12) := by decide

/-- Chapter 2's update k on the approach curve: 8,000 becomes 7,999. -/
theorem test_approach_update :
    (match exec (.driveReferenceUpdate true false) { movingAt 458720 with hac := { moving.hac with vRef := 8000 } } with
      | .next t => some (t.hac.state, t.hac.vRef)
      | _ => none) = some (.approaching, 7999) := by decide

/-- Chapter 3's first example: a_eff 942, c 754 and v_perm 9,904, bound by the terminus. -/
theorem test_envelope_example :
    let p : LineFields := { line with lineLength := 900000, vLineMax := 12000 }
    let s : State := { moving with
      line := some p
      segs := [⟨0, 10000, 8000, 420, .none⟩, ⟨150000, 12000, 8000, 300, .none⟩, ⟨600000, 11000, 8000, 300, .none⟩,
               ⟨780000, 10000, 8000, 450, .none⟩]
      ptr := { moving.ptr with x := 58000, u := 2000 }
      hac := { moving.hac with tripDir := .down }
      osp := { moving.osp with snapshot := some ⟨⟨0, 40, none⟩, ⟨10, 20, none⟩⟩ } }
    let e := s.envelope p
    (e.eval.braking.aEff, e.eval.c, e.vPerm, e.binding, e.eval.mS, e.eval.mE) = (942, 754, 9904, some .terminus, 495, 990) := by
  decide +kernel

/-- Chapter 7's worked example: a second presentation 80 s after the admission at the same group meets PASSBACK, at another group it is
eligible. -/
theorem test_passback_example :
    let t : PassTable := { entries := [{ entry 7003 .period none with last := some ⟨.g1, 405, 3620⟩ }], day := 405, clock := 3700 }
    t.lookup 300 7003 .g1 = .refused .passback ∧ t.lookup 300 7003 .g3 = .eligible .period 1 := by decide

/-! ## Witnesses: states and operands that meet the hypotheses of each statement -/

/-- A step with one command at the front of the queue. -/
def stepWith (c : Instr) (s : State) : Option State :=
  match step { s with pending := [c] } with
  | .next t => some t
  | _ => none

/-- No window of these states is OPEN. -/
theorem noneOpen_of {s : State} (h : s.glm.windows = idle.glm.windows) : s.noneOpen := by
  intro g
  unfold State.window
  rw [h]
  cases g <;> decide

/-- An emergency stop sets off nothing else in such a state. -/
theorem plain_of {s : State} (h : s.ptr.standstill = false ∧ s.bsq.test = none ∧ s.lmu.mode ≠ .parked ∧ s.allSecured = true)
    (hw : s.glm.windows = idle.glm.windows) : s.plain :=
  ⟨h.1, h.2.1, h.2.2.1, h.2.2.2, noneOpen_of hw⟩

/-- A change of a side sets off nothing in such a state. -/
theorem undisturbed_of {s : State} (h : (s.brake .sb).cmd = .apply ∧ s.lmu.mode ≠ .warming)
    (hw : s.glm.windows = idle.glm.windows) : s.undisturbed :=
  ⟨h.1, noneOpen_of hw, h.2⟩

theorem witness_FrontCommandRuns :
    (stepWith .lineClockTick idle).isSome = true := by decide

theorem witness_IdleMillisecond :
    idle.pending = [] ∧ idle.isRunning := by decide

theorem witness_HeldDeviceIgnoresCommands :
    held.inReset = some .resetLine ∧ Instr.lineClockTick ≠ .powerOn ∧ Instr.lineClockTick ≠ .resetLine ∧
      ∀ b x y, Instr.lineClockTick ≠ .brakeContactChange b x y := by
  refine ⟨rfl, by decide, by decide, ?_⟩
  intro b x y h
  cases h

theorem witness_ResetsGiveResetValues :
    idle.inReset = none ∧ held.inReset = some .resetLine ∧ ResetCause.resetLine ≠ .restart := by decide

/-- PARKED with the reply of an accepted RESTART on the line. -/
def restarting : State :=
  withLink (fun l => { l with
    sending := some (.reply { tag := 5, kind := ReqKind.restart.code, answer := .accepted .none }), restarting := true }) parkedLine

theorem witness_RestartKeepsConfiguration :
    restarting.isRunning ∧ restarting.slp.sending =
      some (.reply { tag := 5, kind := ReqKind.restart.code, answer := .accepted .none }) := by decide

theorem witness_RequestRoundTrip :
    (Instr.tsrAdd 9 255 0 4000000 65535).wellFormed = true ∧ (wireOf (.tsrAdd 9 255 0 4000000 65535)).isSome = true := by decide

theorem witness_FrameBecomesItsRequest :
    (Instr.setDay 9 65535).wellFormed = true ∧ (wireOf (.setDay 9 65535)).isSome = true ∧ idle.listening ∧
      reqKindOf? 0x05 = some .positionRead ∧ reqKindOf? 0x77 = none ∧ (List.replicate 240 (0 : Byte)).length ≤ 240 ∧
      reqKindOf? 0x01 = some .configureLine ∧ requestOf .configureLine 9 [1] = none := by decide +kernel

theorem witness_BytesSpellTheFrame :
    (List.replicate 240 (0 : Byte)).length ≤ 240 ∧ idle.isRunning ∧ idle.slp.receiver = .hunting := by decide +kernel

theorem witness_PassTableLawKept :
    passing.ptb.law ∧ (stepWith (.passageDeadline 2) passing).isSome = true := by decide

theorem witness_InterlockLawKept :
    moving.interlocked ∧ (moving.brake .sb).cmd = .release ∧ (stepWith (.carStaleTimeout .b) moving).isSome = true := by decide

theorem witness_EmergencyLatchHoldsBrake :
    tripped.latchHolds ∧ tripped.bsq.latch.isSome = true ∧ (stepWith (.setMode 5 4 0 0) tripped).isSome = true := by decide

theorem witness_ForcedLawKept :
    idle.unforced ∧ idle.lmu.mode = .service ∧ (stepWith (.healthSet 5 0 65535 0) idle).isSome = true := by decide

theorem witness_DriveReferenceLawKept :
    moving.haulageLaw ∧ moving.hac.vRef ≠ 0 ∧ (stepWith (.driveReferenceUpdate true false) moving).isSome = true := by decide

theorem witness_PlanAndTsrLawsKept :
    idle.hac.planLaw ∧ tsrLaw [⟨2, 100, 200, 500⟩, ⟨255, 100, 4000000, 100⟩] ∧ (stepWith (.planAppend 5 1) idle).isSome = true := by decide

theorem witness_LinkBoundsKept :
    idle.slp.law ∧ (stepWith (.linkRead 5) idle).isSome = true := by decide

theorem witness_RouteTallyAndModeLawsKept :
    parkedLine.clu.route.law ∧ parkedLine.tallyLaw ∧ parkedLine.lmu.law ∧ warming.lmu.law ∧
      (stepWith .warmingTimeout warming).isSome = true := by decide

theorem witness_ConfigAndGateLawsKept :
    parkedLine.configLaw ∧ parkedLine.glm.law ∧ (stepWith (.loadGates 5 [⟨16, 4⟩, ⟨1, 1⟩]) parkedLine).isSome = true := by decide

theorem witness_EncoderCountMoves :
    idle.isRunning := by decide

theorem witness_SampleComputesPosition :
    let s := parkedLine
    s.isRunning ∧ s.line = some line ∧ s.lmu.mode = .parked ∧ s.hac.state = .held ∧ s.bsq.stop = none ∧ s.bsq.test = none ∧
      s.ptr.first = .ordinary ∧ s.ptr.offsetP = 0 ∧ s.ptr.offsetC = 0 ∧
      distanceTerm s.ptr.countP 250 = 300000 ∧ distanceTerm s.ptr.countC 400 = 300000 := by decide

/-- PARKED after a reset with the parameters loaded and a small difference between the encoders. -/
def unhomed : State :=
  { parkedLine with ptr := { Tracker.reset with countP := 4000, countC := 1750 }
                    hac := { Haulage.reset with plan := [0, 2] } }

theorem witness_FirstSampleHomes :
    let s := unhomed
    s.isRunning ∧ s.line = some line ∧ s.lmu.mode = .parked ∧ s.hac.state = .held ∧ s.bsq.stop = none ∧ s.bsq.test = none ∧
      s.ptr.first ≠ .ordinary ∧ (s.ptr.offsetP + distanceTerm s.ptr.countP line.scaleP -
        (s.ptr.offsetC + distanceTerm s.ptr.countC line.scaleC)).natAbs = line.tEnc ∧
      s.stops.find? (fun r => r.pos == 0) = some (stopAt 0 0) ∧ s.stops.find? (fun r => r.pos == 1200000) = none := by decide

/-- The line before its parameters are loaded, the cars not known to be at rest. -/
def unloaded : State := { moving with line := none }

/-- The tracker changed. -/
def tracked (f : Tracker → Tracker) (s : State) : State := { s with ptr := f s.ptr }

/-- PARKED, with car A at a position in mm and the check encoder d mm further, the line at rest. -/
def parkedAt (x d : Nat) : State :=
  tracked (fun q => { q with countP := .ofNat 48 (x * 4), countC := .ofNat 48 (((x + d) * 5 + 1) / 2), hist := [] }) parkedLine

/-- The same with the cars rolling, the position valid or lost. -/
def rollingAt (v : Validity) (x d : Nat) : State :=
  tracked (fun q => { q with
    hist := List.replicate 10 { p := x - 500, c := x - 500 }, standstill := false, still := none, validity := v }) (parkedAt x d)

/-- Car A about to pass marker 3, whose position differs from x by e, after a passage numbered 4. -/
def marking (e : Int) (s : State) : State :=
  { s with markers := [{ id := 3, pos := (s.ptr.x + e).toNat, car := .a }], ptr := { s.ptr with lastPassage := ⟨some 4, none⟩ } }

/-- A burst of car A with its doors' state bytes, its flags, a marker and a passage number. -/
def carBurst (left right flags marker passage : Byte) : List Byte :=
  let l : List Byte := [0, 8, left, right, flags, 0, 0, marker, passage]
  0x6B :: (l ++ checkBytes (crc16 l))

/-- The frame that such a burst holds while the doors are locked. -/
def marked (f : Option MarkerField) : CarStatus := { quiet with seq := 8, marker := f }

/-- Errors 500, 501, 1000 and 1001 are the two sides of W_quiet and of W_corr, 300 and 301, 1200 and 1201 those of t_enc and of four
times t_enc. -/
theorem witness_PositionEventsAct :
    (unloaded.isRunning ∧ unloaded.line = none ∧ unloaded.plain ∧ unloaded.bsq.stop = none ∧ unloaded.ptr.otLower = false ∧
      unloaded.ptr.otUpper = false) ∧
    (moving.samples line ∧ moving.plain ∧ moving.ptr.otLower = false ∧ moving.ptr.otUpper = false ∧
      ∀ low ∈ [true, false], (moving.sampled line ⟨false, false, low, !low⟩).beyond = false) ∧
    (∀ s ∈ [parkedAt 1000 300, rollingAt .lost 1000 0, rollingAt .valid 1199000 0, rollingAt .valid 1001 0, parkedAt 300000 301,
        rollingAt .valid 300000 1200, rollingAt .valid 300000 1201],
      s.isRunning ∧ s.line = some line ∧ s.lmu.mode = .parked ∧ s.hac.state = .held ∧ s.bsq.stop = none ∧ s.bsq.test = none ∧
        s.ptr.first = .ordinary ∧ s.uncrossed .pos 1 ∧ (s.ptr.lower && s.ptr.upper) = false ∧ s.ptr.beyond = false) ∧
    (let q := (parkedAt 1000 300).sampled line ⟨true, false, false, false⟩;
      q.beyond = false ∧ q.standstill = true ∧ (q.x - (0 : Nat)).natAbs = line.wCorr ∧
        (parkedAt 1000 300).stops.find? (fun r => r.pos == 1200000) = none) ∧
    (let q := (rollingAt .lost 1000 0).sampled line ⟨true, false, false, false⟩;
      q.beyond = false ∧ q.standstill = false ∧ (rollingAt .lost 1000 0).ptr.validity = .lost) ∧
    (let q := (rollingAt .valid 1199000 0).sampled line ⟨false, true, false, false⟩;
      q.beyond = false ∧ q.standstill = false ∧ (q.x - (1200000 : Nat)).natAbs = line.wCorr) ∧
    (let q := (rollingAt .valid 1001 0).sampled line ⟨true, false, false, false⟩;
      q.beyond = false ∧ ¬(q.x - (0 : Nat)).natAbs ≤ line.wCorr) ∧
    ((parkedAt 1000 300).sampled line ⟨true, true, false, false⟩).beyond = false ∧
    (∀ s ∈ [(parkedAt 300000 301, 301), (rollingAt .valid 300000 1200, 1200), (rollingAt .valid 300000 1201, 1201)],
      let q := s.1.sampled line ⟨false, false, false, false⟩
      (q.x - q.xc).natAbs = s.2) ∧
    (∀ s ∈ [idle, marking 500 idle, marking (-501) idle, marking 1000 idle, marking (-1001) idle,
        tracked (fun q => { q with validity := .lost }) (marking 1001 idle), marking 1001 moving],
      s.isRunning ∧ s.line = some line ∧ s.nextFrame .a (carBurst 2 2 0 3 5) (marked (some { id := 3, passage := 5 })) ∧
        s.uncrossed .pos 1 ∧ (s.side .a .left).state = .secured ∧ (s.side .a .right).state = .secured) ∧
    (∀ e ∈ [500, -501, 1000, 1001], (marking e idle).markers.find? (fun m => m.id == 3 && m.car == .a) =
        some { id := 3, pos := (300000 + e).toNat, car := .a } ∧ (marking e idle).ptr.lastPassage.get .a = some 4) ∧
    idle.markers = [] ∧ idle.ptr.lastPassage.get .a = none ∧
    (marking 1001 moving).hac.state.drives = true ∧ (marking 1001 moving).ptr.standstill = false ∧
    (marking 1001 moving).bsq.stop = none ∧ (marking 1001 moving).ptr.validity = .valid := by
  refine ⟨⟨rfl, rfl, plain_of (by decide) rfl, rfl, rfl, rfl⟩, ⟨by decide +kernel, plain_of (by decide) rfl, rfl, rfl, by decide +kernel⟩, ?_⟩
  decide +kernel

/-- PARKED before the first CONFIGURE_LINE, SB on its way without a timer and car A's left side closing without one. -/
def unconfigured : State :=
  brakeAs .sb .apply .setting none false false (withSide (fun r => { r with state := .closing }) { parkedLine with line := none })

/-- Scales 250 and 300 make two axes of one line. -/
theorem witness_ConfigureLineAnswers :
    (unconfigured.listening ∧ unconfigured.lmu.mode = .parked ∧ unconfigured.line = none ∧ firstFault (lineChecks line) = none ∧
      (unconfigured.brake .sb).timer = none ∧ (unconfigured.brake .sb).state = .setting ∧
      (unconfigured.side .a .left).state = .closing ∧ (unconfigured.side .a .left).closeTimer = none) ∧
    (∀ s ∈ [parkedLine, tracked (fun q => { q with validity := .lost }) parkedLine],
      s.listening ∧ s.lmu.mode = .parked ∧ s.hac.state = .held ∧ s.line = some line) ∧
    (parkedLine.ptr.validity = .valid ∧ line.scaleP ≠ ({ line with scaleP := 300 } : LineFields).scaleP ∧
      firstFault (lineChecks { line with scaleP := 300 }) = none) ∧
    parkedLine.listening ∧ parkedLine.lmu.mode = .parked ∧ firstFault (lineChecks { line with wCorr := 99 }) = some 74 ∧
      firstFault (lineChecks { line with tTest := 11 }) = some 90 ∧ parkedLine.line = some line ∧
      firstFault (lineChecks { line with capacity := 250 }) = none ∧ idle.listening ∧ idle.lmu.mode ≠ .init ∧ idle.lmu.mode ≠ .parked := by decide

theorem witness_LoadSegmentsStoresAscending :
    parkedLine.listening ∧ parkedLine.lmu.mode = .parked ∧
      let l : List SegmentFields := [⟨4000000, 1500, 1500, 1000, 2⟩, ⟨0, 10, 10, 0, 0⟩]
      l.length ≤ 32 ∧ ∀ r ∈ l, r.start ≤ 4000000 ∧ 10 ≤ r.vLimit ∧ r.vLimit ≤ 1500 ∧ 10 ≤ r.vCruise ∧ r.vCruise ≤ r.vLimit ∧
        r.sinePm ≤ 1000 ∧ r.walkway ≤ 2 := by decide

theorem witness_LoadStopsAndMarkersStore :
    parkedLine.listening ∧ parkedLine.lmu.mode = .parked ∧
      (let l : List StopFields := [stopFields 5 4000000, stopFields 0 0]
      l.length ≤ 6 ∧ (l.map StopFields.index).Nodup ∧
        ∀ r ∈ l, r.index ≤ 5 ∧ r.pos ≤ 4000000 ∧ ∀ c ∈ [r.carA, r.carB], c.sides ≤ 3 ∧ c.group ≤ 4 ∧ c.terminal ≤ 1 ∧
          (c.sides = 0 → c.group = 0)) ∧
      (let l : List MarkerFields := [⟨1, 0, 0⟩, ⟨16, 4000000, 1⟩]
      l.length ≤ 16 ∧ (l.map MarkerFields.id).Nodup ∧ ∀ r ∈ l, 1 ≤ r.id ∧ r.id ≤ 16 ∧ r.pos ≤ 4000000 ∧ r.car ≤ 1) := by decide

theorem witness_ReadsAnswer :
    boarding.listening ∧ boarding.ptb.find? 7004 = some { entry 7004 .single none with state := .consumed, validTo := none } ∧
      boarding.ptb.find? 7000 = none := by decide

/-- The entries 5, 1 first, and a repeat are each a fault; the last list has none. -/
theorem witness_PlanSetExamined :
    moving.listening ∧ moving.hac.state ≠ .held ∧ idle.listening ∧ idle.hac.state = .held ∧ 8 < (List.replicate 9 1).length ∧
      (∀ r ∈ idle.stops, r.index ≠ 5) ∧ idle.hac.berth.stop = some 1 ∧
      (∀ k, ¬∃ i, ([2, 1, 2, 0, 2, 0, 2, 0] : List Nat)[k]? = some i ∧
        ((∀ r ∈ idle.stops, r.index ≠ i) ∨ (k = 0 ∧ idle.hac.berth.stop = some i) ∨
          (∃ j, k = j + 1 ∧ ([2, 1, 2, 0, 2, 0, 2, 0] : List Nat)[j]? = some i))) := by
  refine ⟨by decide, by decide, by decide, rfl, by decide, by decide, rfl, ?_⟩
  rintro k ⟨i, hi, h⟩
  obtain ⟨hk, -⟩ := List.getElem?_eq_some_iff.mp hi
  simp only [List.length_cons, List.length_nil] at hk
  have hs : idle.stops.map StopRec.index = [0, 1, 2] := rfl
  interval_cases k <;> simp at hi <;> subst hi <;> simp [idle, stopAt] at h

theorem witness_PlanAppendExamined :
    idle.listening ∧ (∃ r ∈ idle.stops, r.index = 1) ∧ (¬∃ r ∈ idle.stops, r.index = 3) ∧ idle.hac.plan.length < 8 ∧
      idle.hac.plan.getLast? = some 0 ∧
      8 ≤ ({ idle with hac := { idle.hac with plan := [0, 1, 0, 1, 0, 1, 0, 1] } } : State).hac.plan.length := by decide

/-- A trip to stop 2 that berths at a position, SB setting. -/
def berthing (x : Int) : State :=
  brakeAs .sb .apply .setting (some 900) false false { movingAt x with
    ptr := { (movingAt x).ptr with standstill := true, vMeas := 0 }, hac := { moving.hac with state := .berthing, vRef := 0 } }

/-- A trip that has come to rest in STOPPING, SB setting. -/
def halted : State :=
  { stopped .controlled .absent with ptr := { moving.ptr with standstill := true, vMeas := 0 } }

/-- Group 1's window SEALED for the berthed stop, a gate of it READY. -/
def sealedIdle : State :=
  withGate 1 (fun g => { g with state := .ready }) { idle with
    glm := { idle.glm with windows := idle.glm.windows.set .g1 { state := .sealed, car := some .a, stop := some 1, dwell := none } } }

/-- A trip that waits for SB to lift. -/
def releasing : State :=
  brakeAs .sb .release .lifting (some 900) false false { moving with hac := { moving.hac with state := .releasing, vRef := 0 } }

/-- Offsets 80 and 81 are the two sides of the platform window. -/
theorem witness_TripsBeginAndEnd :
    (moving.listening ∧ moving.hac.state ≠ .held ∧ parkedLine.listening ∧ parkedLine.hac.state = .held ∧ parkedLine.inhibits ≠ []) ∧
    (∀ s ∈ [idle, sealedIdle], s.listening ∧ s.hac.state = .held ∧ s.inhibits = [] ∧ s.hac.plan = [2, 0] ∧
      s.stopAt? 2 = some (stopAt 2 520000) ∧ s.bsq.stop = none ∧ (s.brake .sb).cmd = .apply ∧ s.reading .sb ≠ .released) ∧
    (sealedIdle.window .g1).state = .sealed ∧
    (∀ s ∈ [berthing 519920, berthing 520081, inMode .maintenance (berthing 520080),
        withCar (fun r => { r with freshness := .stale }) (berthing 520000)],
      s.isRunning ∧ (s.brake .sb).state = .setting ∧ s.reading .sb ≠ .applied ∧ (s.brake .sb).cmd = .apply ∧
        s.ptr.standstill = true ∧ s.bsq.test = none ∧ s.lmu.mode ≠ .warming ∧ s.hac.state = .berthing ∧ s.bsq.stop = none ∧
        s.line = some line ∧ s.hac.dest = some 2 ∧ s.stopAt? 2 = some (stopAt 2 520000) ∧ s.hac.berth = .offStop ∧
        s.dru.cleared = ⟨false, false⟩) ∧
    (∀ x, (berthing x).noneOpen) ∧
    (let s := berthing 519920;
      (s.ptr.x - ((520000 : Nat) : Int)).natAbs = line.platWindow ∧ .left ∈ s.platformSides .a 2 ∧ s.isFresh .a = true ∧
        (s.side .a .left).state = .secured ∧ s.lmu.mode = .service) ∧
    ((berthing 520081).ptr.x - ((520000 : Nat) : Int)).natAbs = line.platWindow + 1 ∧
    (let s := halted;
      s.isRunning ∧ (s.brake .sb).state = .setting ∧ s.reading .sb ≠ .applied ∧ (s.brake .sb).cmd = .apply ∧
        s.ptr.standstill = true ∧ s.bsq.test = none ∧ s.lmu.mode ≠ .warming ∧ s.hac.state = .stopping) ∧
    halted.noneOpen ∧
    (releasing.isRunning ∧ releasing.hac.state = .releasing ∧ (releasing.brake .sb).state = .lifting ∧
      releasing.reading .sb ≠ .released ∧ releasing.bsq.stop = none ∧ releasing.bsq.test = none ∧ releasing.lmu.mode ≠ .warming) := by
  refine ⟨by decide, by decide, rfl, by decide, fun _ => noneOpen_of rfl, by decide, by decide, by decide, noneOpen_of rfl, by decide⟩

theorem witness_StopRequestActs :
    idle.listening ∧ idle.hac.state = .held ∧ moving.listening ∧ moving.hac.state.drives = true ∧ moving.hac.vRef ≠ 0 ∧
      moving.bsq.stop = none ∧ moving.bsq.test = none ∧ moving.ptr.standstill = false ∧ (moving.brake .sb).state ≠ .lifting := by decide

theorem witness_DriveUpdateHeldSendsWord :
    idle.isRunning ∧ idle.hac.state = .held ∧ idle.bsq.stop = none := by decide

/-- A controlled ramp of that trip from a reference, its stop in the record. -/
def ramping (v : Nat) : State :=
  { moving with
    hac := { moving.hac with ramp := true, vRef := v }
    bsq := { moving.bsq with
      stop := some { kind := .controlled, cause := .host, x := 300000, vMeas := 3000, check := .absent } } }

/-- A ramp step of a_ss is 8: from 9 the reference becomes 1, from 8 it becomes 0. -/
theorem witness_TripUpdateSetsReference :
    (∀ s ∈ [ramping 9, ramping 8], s.isRunning ∧ s.line = some line ∧ s.hac.state.drives = true ∧ s.hac.ramp = true ∧
      s.ptr.standstill = false ∧ s.hac.ready = true ∧ s.hac.fault = false ∧ s.allSecured = true ∧ s.bsq.stop.isSome = true) ∧
    (line.aSs * 20 / 1000 = 8 ∧ (ramping 9).osp.vPerm = 10000) ∧
    (∀ s ∈ [releasing, stopped .brake .passed], s.isRunning ∧ s.hac.state ≠ .held ∧ s.hac.ready = true ∧ s.hac.fault = false ∧
      s.hac.state.drives = false ∧ s.line.isSome = true) ∧
    ((stopped .brake .passed).ptr.standstill = false ∧ (stopped .brake .passed).bsq.stop.isSome = true) ∧
    (releasing.hac.state = .releasing ∧ releasing.ptr.standstill = false ∧ releasing.bsq.stop = none ∧ releasing.bsq.test = none ∧
      (releasing.brake .sb).state = .lifting ∧ (releasing.brake .sb).cmd = .release ∧ releasing.reading .sb ≠ .applied ∧
      releasing.lmu.mode ≠ .warming ∧ releasing.hac.ramp = false) ∧
    (stepWith (.driveReferenceUpdate true false) moving).any (fun u => u.bsq.stop.isNone && u.hac.state.drives &&
      u.hac.vRef != 0 && u.bsq.test.isNone && (u.brake .sb).state != .lifting) = true ∧
    let near := movingAt 519980
    let far := movingAt 519979
    (∀ s ∈ [near, far], s.isRunning ∧ s.line = some line ∧ s.hac.state.drives = true ∧ s.hac.ramp = false ∧ s.hac.dest = some 2 ∧
      s.stopAt? 2 = some (stopAt 2 520000) ∧ s.bsq.stop = none ∧ s.ptr.standstill = false ∧ s.allSecured = true ∧
      s.hac.ready = true ∧ s.hac.fault = false ∧ s.hac.tripDir = .up) ∧
      (((520000 : Nat) : Int) - near.ptr.x).toNat = line.berthTol ∧ line.berthTol < (((520000 : Nat) : Int) - far.ptr.x).toNat ∧
      0 < line.vCreep ∧ ((far.segOf .a).map Segment.vCruise).getD 0 = 8000 ∧ ((far.segOf .b).map Segment.vCruise).getD 0 = 8000 ∧
      modeSpeed line far.lmu.mode = 10000 ∧ far.osp.vPerm - line.guard = 9700 := by decide

/-- Eight restrictions, the last two of equal start. -/
def restrictions : List Tsr :=
  [⟨1, 0, 5, 100⟩, ⟨2, 1, 5, 100⟩, ⟨3, 2, 5, 100⟩, ⟨4, 3, 5, 100⟩, ⟨5, 4, 5, 100⟩, ⟨6, 5, 9, 100⟩, ⟨7, 6, 9, 100⟩, ⟨8, 6, 9, 100⟩]

/-- Ids 0 and 256, start 4000001, stop at start, 8 entries with id 255 new and id 8 held. -/
theorem witness_TsrRequestsKeepList :
    let full : State := { idle with osp := { idle.osp with tsrs := restrictions } }
    idle.listening ∧ full.listening ∧ tsrLaw full.osp.tsrs ∧ (¬∃ z ∈ full.osp.tsrs, z.id = 255) ∧ (∃ z ∈ full.osp.tsrs, z.id = 8) ∧
      8 ≤ full.osp.tsrs.length ∧ idle.osp.tsrs.length < 8 := by decide

/-- A trip whose last sample stood at a level and which has moved d mm since, at ten times that a sample before. -/
def sampledAt (l : Level) (vPerm : Nat) (d : Int) : State :=
  { moving with
    osp := { moving.osp with level := l, vPerm := vPerm }
    ptr := { moving.ptr with hist := { p := 300000 - d, c := 300000 - d } :: List.replicate 9 { p := 300000 - d * 10, c := 300000 - d * 10 } } }

/-- v_perm is 10,000: SERVICE begins above 10,500, EMERGENCY above 11,000, RAIL above 12,500. -/
theorem witness_EnvelopeOrdersStops :
    (12000, Binding.mode) ∈ ({ moving with line := some { line with vLineMax := 12000 } } : State).ceilings
      { line with vLineMax := 12000 } .up 1138 911 ∧
    (∀ s ∈ [sampledAt .none 10000 50, sampledAt .none 10000 53, sampledAt .none 10000 56, sampledAt .none 10000 63,
        { sampledAt .none 10000 (-20) with osp := { (sampledAt .none 10000 (-20)).osp with acc := 190 } }],
      s.samples line ∧ s.lmu.mode ≠ .init ∧ s.ptr.otLower = false ∧ s.ptr.otUpper = false ∧ s.hac.state = .motoring ∧
        s.hac.ramp = false ∧ s.lmu.mode ≠ .warming ∧ s.osp.fresh = false ∧ s.osp.ordered = false ∧ s.hac.tripDir = .up ∧
        (s.sampled line ⟨false, false, false, false⟩).beyond = false) ∧
    (∀ l v d, (sampledAt l v d).plain) ∧
    (let level (d : Int) := ((sampledAt .none 10000 d).keeping ((sampledAt .none 10000 d).sampled line ⟨false, false, false, false⟩)).envelope line |>.level;
      level 50 = .none ∧ level 53 = .service ∧ level 56 = .emergency ∧ level 63 = .rail ∧ level (-20) = .none) := by
  refine ⟨by decide, by decide +kernel, fun _ _ _ => plain_of ⟨rfl, rfl, (fun h => nomatch h), rfl⟩ rfl, by decide +kernel⟩

theorem witness_ContactsMoveRecord :
    (∀ s ∈ [idle, brakeAs .sb .release .lifting (some 900) false false idle, brakeAs .sb .apply .setting (some 900) false false idle,
        brakeAs .sb .apply .applied (some 5) true true idle, brakeAs .eb .release .released (some 5) true true idle,
        brakeAs .sb .apply .fault none false false idle],
      s.isRunning ∧ s.hac.state = .held ∧ s.bsq.stop = none ∧ s.bsq.test = none ∧ s.lmu.mode ≠ .warming) ∧
      (brakeAs .sb .release .lifting (some 900) false false idle).reading .sb ≠ .released ∧
      (brakeAs .sb .apply .setting (some 900) false false idle).reading .sb ≠ .applied ∧
      (brakeAs .sb .apply .applied (some 5) true true idle).reading .sb ≠ .applied ∧
      (brakeAs .eb .release .released (some 5) true true idle).reading .eb ≠ .released ∧ idle.reading .sb ≠ .between ∧
      (brakeAs .sb .apply .fault none false false idle).reading .sb ≠ .applied ∧
      (idle.brake .sb).state = .applied ∧ idle.reading .sb ≠ .released ∧ (idle.brake .eb).state = .released ∧
      idle.reading .eb ≠ .applied ∧ idle.lmu.mode ≠ .parked ∧ idle.allSecured = true ∧ idle.noneOpen ∧
      (∃ s : State, s = brakeAs .sb .release .released none false true idle ∧ s.isRunning ∧ (s.brake .sb).state = .released ∧
        s.reading .sb ≠ .applied ∧ s.noneOpen) := by
  have h : idle.noneOpen := noneOpen_of rfl
  exact ⟨by decide, by decide, by decide, by decide, by decide, by decide, by decide, rfl, by decide, rfl, by decide, by decide, rfl,
    h, _, rfl, rfl, rfl, by decide, noneOpen_of rfl⟩

/-- EB off its released contact while the line moves. -/
def wandering : State := brakeAs .eb .release .released (some 10) true false moving

/-- A BRAKE stop whose deceleration check runs. -/
def checked : State := stopped .brake (.running (some 500))

theorem witness_TimersOrderEmergency :
    (wandering.isRunning ∧ wandering.plain ∧ wandering.bsq.stop = none ∧ (wandering.brake .eb).timer.isSome = true ∧
      (wandering.brake .eb).state ≠ .fault) ∧ (idle.isRunning ∧ (idle.brake .sb).timer = none ∧ idle.bsq.stop = none) ∧
      checked.isRunning ∧ checked.plain ∧
      checked.bsq.stop = some { kind := .brake, cause := .overspeed, x := 300000, vMeas := 3000, check := .running (some 500) } := ⟨⟨rfl, plain_of (by decide) rfl, rfl, by decide, by decide⟩, by decide, rfl, plain_of (by decide) rfl, rfl⟩

/-- A test of EB in a phase. -/
def inPhase (ph : TestPhase) (s : State) : State :=
  { s with bsq := { s.bsq with
      torqueLine := ph == .torque, test := some { brake := .eb, phase := ph, ref := 300000, move := 10, timer := none } } }

/-- EB applied for its test. -/
def ebSet (ph : TestPhase) : State := inPhase ph (brakeAs .eb .apply .applied none true false idle)

/-- TORQUE on a rolling line, d millimetres from the test reference at the next sample. -/
def rolling (d : Nat) : State :=
  let s := brakeAs .sb .release .released none false true (ebSet .torque)
  { s with
    ptr := { s.ptr with
      standstill := false, still := none, vMeas := 100
      hist := { p := 299995, c := 299995 } :: List.replicate 9 { p := 299950, c := 299950 } }
    bsq := { s.bsq with test := s.bsq.test.map (fun x => { x with ref := 300000 - d }) } }

/-- EB setting in PREPARING, with both cars FRESH or not; SB lifting; TORQUE; SB setting and then EB lifting in RESTORING. -/
theorem witness_BrakeTestsRun :
    (idle.listening ∧ testing.listening ∧ testing.bsq.test.isSome = true ∧ parkedLine.listening ∧ parkedLine.bsq.test = none ∧
      parkedLine.testReasons .sb ≠ [] ∧ parkedLine.testReasons .eb ≠ [] ∧ idle.bsq.test = none ∧ idle.testReasons .sb = [] ∧
      testing.isRunning ∧ testing.bsq.test =
        some { brake := .sb, phase := .torque, ref := 300000, move := 0, timer := some 5000 }) ∧
    (idle.testReasons .eb = [] ∧ (idle.brake .eb).cmd = .release ∧ idle.reading .eb ≠ .applied) ∧
    (let preparing := inPhase .preparing (brakeAs .eb .apply .setting (some 5) false false idle)
     let silent := withCar (fun r => { r with freshness := .stale }) preparing
     let lifting := brakeAs .sb .release .lifting (some 5) false false (ebSet .preparing)
     let torque := brakeAs .sb .release .released none false true (ebSet .torque)
     let setting := brakeAs .sb .apply .setting (some 5) false false (ebSet .restoring)
     let freeing := inPhase .restoring (brakeAs .eb .release .lifting (some 5) false false idle)
     (∀ s ∈ [preparing, silent, lifting, torque, setting, freeing], s.isRunning ∧ s.hac.state = .held ∧ s.bsq.stop = none ∧
        s.lmu.mode ≠ .warming ∧ s.bsq.latch = none ∧ s.bsq.test.any (fun x => x.brake == .eb) = true) ∧
     (∀ s ∈ [preparing, silent], (s.brake .eb).state = .setting ∧ (s.brake .eb).cmd = .apply ∧ s.reading .eb ≠ .applied ∧
        (s.brake .sb).state = .applied ∧ (s.brake .sb).cmd = .apply ∧ s.reading .sb ≠ .released) ∧
     preparing.interlockHolds = true ∧ silent.interlockHolds = false ∧
     ((lifting.brake .sb).state = .lifting ∧ (lifting.brake .sb).cmd = .release ∧ lifting.reading .sb ≠ .released ∧
        (lifting.brake .eb).state = .applied ∧ (lifting.brake .eb).cmd = .apply) ∧
     ((torque.brake .sb).state = .released ∧ (torque.brake .sb).cmd = .release ∧ torque.reading .sb ≠ .applied) ∧
     ((setting.brake .sb).state = .setting ∧ (setting.brake .sb).cmd = .apply ∧ setting.reading .sb ≠ .applied ∧
        (setting.brake .eb).state = .applied ∧ (setting.brake .eb).cmd = .apply ∧ setting.reading .eb ≠ .released) ∧
     (freeing.brake .eb).state = .lifting ∧ (freeing.brake .eb).cmd = .release ∧ freeing.reading .eb ≠ .released ∧
        (freeing.brake .sb).state = .applied) ∧
    (∀ d, (rolling d).isRunning ∧ (rolling d).noneOpen) ∧
    (∀ d ∈ [50, 51], let s := rolling d
      let q := s.sampled line ⟨false, false, false, false⟩
      s.line = some line ∧ s.ptr.first = .ordinary ∧ s.ptr.standstill = false ∧ s.ptr.still = none ∧ 0 < line.tStill ∧
        s.allSecured = true ∧ s.hac.state = .held ∧ q.beyond = false ∧
        ((s.keeping q).envelope line).level.rank ≤ s.osp.level.rank ∧ (q.dp - s.osp.heldRef).natAbs ≤ 200 ∧
        s.bsq.test.any (fun x => x.phase == .torque && (q.dp - x.ref).natAbs == d) = true) := by
  refine ⟨by decide, by decide, by decide, fun _ => ⟨rfl, noneOpen_of rfl⟩, by decide +kernel⟩

theorem witness_TripResetAnswers :
    idle.listening ∧ idle.tripReasons ≠ [] ∧ tripped.listening ∧ tripped.tripReasons = [] ∧ tripped.hac.state = .held ∧
      tripped.bsq.stop = none ∧ tripped.bsq.test = none ∧
      (tripped.brake .sb).cmd = .apply ∧ (tripped.brake .sb).state = .applied ∧ (tripped.brake .eb).cmd = .apply ∧
      (tripped.brake .eb).state = .applied := by decide

/-- A burst of car A with a sequence number and good check whose doors are locked. -/
def burst (seq : Byte) : List Byte :=
  0x6B :: ([0, seq, 2, 2, 0, 0, 0, 0, 0] ++ checkBytes (crc16 [0, seq, 2, 2, 0, 0, 0, 0, 0]))

theorem witness_StatusFrameOutcomes :
    idle.isRunning ∧ (idle.car .a).running = true ∧ statusOf? .a (burst 8) = some { quiet with seq := 8 } ∧
      statusOf? .a (burst 7) = some quiet ∧ statusOf? .b (burst 8) = none ∧ (idle.car .a).lastSeq = some 7 ∧
      (idle.car .a).freshness = .fresh ∧ (idle.car .a).status = some quiet ∧ (idle.side .a .left).state = .secured ∧
      (idle.side .a .right).state = .secured ∧ ({ quiet with seq := 8 } : CarStatus).door .left = quiet.door .left ∧
      (quiet.door .left).leaf = .locked ∧ (quiet.door .right).leaf = .locked ∧ (idle.car .a).timer.isSome = true ∧
      idle.lmu.health.linkA.count + 1 < 2 ^ idle.lmu.health.linkA.exp ∧
      (withCar (fun r => { r with running := false, timer := none }) idle).isRunning ∧
      ((withCar (fun r => { r with running := false, timer := none }) idle).car .a).running = false ∧
      ((withCar (fun r => { r with running := false, timer := none }) idle).car .a).timer = none := by decide +kernel

/-- Car A STALE. -/
def stale : State := withCar (fun r => { r with freshness := .stale }) idle

/-- A moving line whose car A is STALE, SB being applied, in a haulage state and with a stop record. -/
def silentTrip (h : HState) (stop : Option StopRecord) : State :=
  let s := brakeAs .sb .apply .applied none true false moving
  withCar (fun r => { r with freshness := .stale })
    { s with hac := { s.hac with state := h }, bsq := { s.bsq with stop := stop } }

theorem witness_SilenceUnprovesCar :
    (idle.isRunning ∧ idle.undisturbed ∧ idle.isFresh .a = true ∧ (idle.side .a .left).state = .secured ∧
      (idle.car .a).freshness ≠ .stale) ∧
    (stale.isRunning ∧ stale.undisturbed ∧ stale.isFresh .a = false ∧ (stale.car .a).freshness = .stale ∧ stale.hac.state = .held ∧
      stale.lmu.health.linkA.count + 1 < 2 ^ stale.lmu.health.linkA.exp) ∧
    (moving.isRunning ∧ moving.isFresh .a = true ∧ moving.hac.state.drives = true ∧ (moving.brake .sb).cmd = .release ∧
      moving.bsq.stop = none ∧ moving.bsq.test = none ∧ moving.ptr.standstill = false ∧ moving.noneOpen ∧ moving.lmu.mode ≠ .warming) ∧
    (∀ h stop, (silentTrip h stop).undisturbed) ∧
    (∀ h ∈ [HState.berthing, .motoring], let s := silentTrip h none
      s.isRunning ∧ (s.car .a).freshness = .stale ∧ s.hac.state ≠ .held ∧ s.uncrossed .linkA 1 ∧ s.bsq.test = none ∧
        s.ptr.standstill = false ∧ (s.brake .sb).state ≠ .lifting ∧ (h = .motoring → s.hac.state.drives = true ∧ s.hac.vRef ≠ 0)) ∧
    (silentTrip .stopping checked.bsq.stop).bsq.stop.isSome = true ∧ (silentTrip .stopping checked.bsq.stop).hac.state ≠ .held := by
  refine ⟨⟨rfl, undisturbed_of (by decide) rfl, by decide, rfl, by decide⟩, ⟨rfl, undisturbed_of (by decide) rfl, ?_⟩,
    ⟨rfl, rfl, rfl, rfl, rfl, rfl, rfl, noneOpen_of rfl, nofun⟩, fun _ _ => undisturbed_of ⟨rfl, nofun⟩ rfl, by decide, rfl, nofun⟩
  decide

/-- Car A's left side waiting for an acknowledgement. -/
def pendingSide : State :=
  withSide (fun r => { r with state := .releasePending, kind := some .manual, stop := some 1, ackTimer := some 20 }) idle

/-- Car A's left side closing after a number of retries. -/
def closingSide (retries : Nat) : State :=
  withSide (fun r => { r with state := .closing, kind := some .manual, stop := some 1, closeTimer := some 20, retries := retries }) idle

/-- Car A's left side open and waiting for a retry. -/
def retrySide : State :=
  withSide (fun r => { r with state := .opened, kind := some .manual, stop := some 1, retryTimer := some 20, retries := 1 }) idle

/-- Car A showing its alarm; its latch set; its status unknown. -/
def alarmShown : State := withCar (fun r => { r with alarm := true, status := some { quiet with alarm := true } }) idle
def alarmLatched : State := withCar (fun r => { r with alarm := true }) idle
def alarmSilent : State := withCar (fun r => { r with status := none }) idle

/-- A trip on a line whose alarm action is STOP_NOW. -/
def stopNow : State := { moving with line := some { line with alarmAction := 0 } }

/-- The frame that a burst of car A's door bytes and flags holds. -/
def doorFrame (left : DoorStatus) (alarm : Bool) : CarStatus :=
  { quiet with seq := 8, doors := ⟨left, { leaf := .locked, ack := false, obstruction := false }⟩, alarm := alarm }

/-- A pending release of car A's left side that began at a stop, that stop being a terminal for the car. -/
def terminalSide : State :=
  { pendingSide with stops := [stopAt 0 0, { stopAt 1 300000 with
      car := ⟨{ sides := .left, group := some .g1, terminal := true }, { sides := .both, group := some .g2, terminal := false }⟩ },
    stopAt 2 520000] }

/-- The bursts' door bytes: 2 locked, 1 closed, 0 open; flags: 1 acknowledged, 4 an obstruction, 16 the alarm. -/
theorem witness_AlarmsAndDoorsFollowFrames :
    (∀ s ∈ [idle, alarmShown, alarmLatched, alarmSilent], s.listening) ∧ (alarmSilent.car .a).status = none ∧
    (alarmShown.car .a).status = some { quiet with alarm := true } ∧ (alarmLatched.car .a).status = some quiet ∧
    (alarmLatched.car .a).alarm = true ∧ (idle.car .a).status = some quiet ∧ (idle.car .a).alarm = false ∧
    idle.clu.route = { report := true, lower := false, upper := false } ∧
    (∀ s ∈ [idle, alarmLatched, moving, stopNow],
      s.isRunning ∧ s.nextFrame .a (carBurst 2 2 16 0 0) (doorFrame ⟨.locked, false, false⟩ true) ∧
        (s.side .a .left).state = .secured ∧ (s.side .a .right).state = .secured ∧ s.bsq.test = none) ∧
    (stopNow.hac.state.drives = true ∧ stopNow.hac.vRef ≠ 0 ∧ stopNow.bsq.stop = none ∧ stopNow.ptr.standstill = false ∧
      (stopNow.brake .sb).state ≠ .lifting) ∧
    (∀ s ∈ [idle, pendingSide, terminalSide, retrySide, closingSide 2, closingSide 3, withSide (fun r => { r with state := .released }) idle,
        withSide (fun r => { r with state := .unproven }) idle, withSide (fun r => { r with state := .fault }) idle],
      s.isRunning ∧ s.hac.state = .held ∧ (s.brake .sb).cmd = .apply ∧ s.lmu.mode ≠ .warming ∧
        (s.side .a .right).state = .secured ∧
        ∀ b ∈ [(carBurst 2 2 0 0 0, doorFrame ⟨.locked, false, false⟩ false), (carBurst 2 2 1 0 0, doorFrame ⟨.locked, true, false⟩ false),
            (carBurst 1 2 1 0 0, doorFrame ⟨.closed, true, false⟩ false), (carBurst 0 2 0 0 0, doorFrame ⟨.opened, false, false⟩ false),
            (carBurst 1 2 4 0 0, doorFrame ⟨.closed, false, true⟩ false)],
          s.nextFrame .a b.1 b.2) ∧
    (pendingSide.undisturbed ∧ terminalSide.undisturbed ∧ retrySide.undisturbed ∧ idle.undisturbed ∧ ∀ n, (closingSide n).undisturbed) ∧
    (terminalSide.dru.cleared.get .a = false ∧ (terminalSide.side .a .left).stop = some 1 ∧ (terminalSide.window .g1).state = .shut ∧
      (terminalSide.stopAt? 1).any (fun z => (z.car.get .a).terminal && (z.car.get .a).group == some .g1) = true) ∧
    (moving.hac.state.drives = true ∧ moving.bsq.stop = none ∧ moving.ptr.standstill = false ∧ moving.lmu.mode ≠ .warming ∧
      (moving.brake .sb).cmd = .release ∧ moving.nextFrame .a (carBurst 1 2 0 0 0) (doorFrame ⟨.closed, false, false⟩ false)) ∧
    moving.noneOpen := by
  refine ⟨by decide, rfl, rfl, rfl, rfl, rfl, rfl, rfl, by decide +kernel, by decide, by decide +kernel,
    ⟨undisturbed_of (by decide) rfl, undisturbed_of (by decide) rfl, undisturbed_of (by decide) rfl, undisturbed_of (by decide) rfl,
      fun _ => undisturbed_of ⟨rfl, fun h => nomatch h⟩ rfl⟩, by decide, by decide +kernel, noneOpen_of rfl⟩

/-- Retries 2 and 3 are the two sides of the bound. -/
theorem witness_DoorTimersAct :
    (pendingSide.isRunning ∧ pendingSide.undisturbed ∧ (pendingSide.side .a .left).ackTimer.isSome = true ∧
      (pendingSide.side .a .left).state = .releasePending) ∧
      (∀ n, (closingSide n).isRunning ∧ (closingSide n).undisturbed ∧ ((closingSide n).side .a .left).closeTimer.isSome = true ∧
        ((closingSide n).side .a .left).state = .closing ∧ ((closingSide n).side .a .left).retries = n) ∧
      (retrySide.isRunning ∧ retrySide.undisturbed ∧ (retrySide.side .a .left).retryTimer.isSome = true ∧
        (retrySide.side .a .left).state = .opened) ∧
      idle.undisturbed ∧ (idle.side .a .left).ackTimer = none ∧ (idle.side .a .left).closeTimer = none ∧
      (idle.side .a .left).retryTimer = none := ⟨⟨rfl, undisturbed_of (by decide) rfl, by decide, rfl⟩,
    fun _ => ⟨rfl, undisturbed_of ⟨rfl, fun h => nomatch h⟩ rfl, rfl, rfl, rfl⟩,
    ⟨rfl, undisturbed_of (by decide) rfl, by decide, rfl⟩, undisturbed_of (by decide) rfl, rfl, rfl, rfl⟩

theorem witness_ReleaseRequestsAct :
    (idle.listening ∧ idle.undisturbed ∧ idle.releaseReasons .a .left = [] ∧ (idle.side .a .left).state = .secured ∧
      idle.releaseReasons .a .right ≠ [] ∧ idle.evacReasons .a .left ≠ []) ∧
      (retrySide.listening ∧ retrySide.undisturbed ∧ retrySide.releaseReasons .a .left = [] ∧
        (retrySide.side .a .left).state ≠ .secured) ∧
      (evacuation.listening ∧ evacuation.undisturbed ∧ evacuation.evacReasons .a .left = [] ∧
        (evacuation.side .a .left).state = .secured) ∧
      let out := withSide (fun r => { r with state := .released, kind := some .evac }) evacuation
      out.listening ∧ out.undisturbed ∧ out.evacReasons .a .left = [] ∧ (out.side .a .left).state ≠ .secured := ⟨⟨by decide, undisturbed_of (by decide) rfl, by decide, rfl, by decide, by decide⟩,
    ⟨by decide, undisturbed_of (by decide) rfl, by decide, by decide⟩,
    ⟨by decide, undisturbed_of (by decide) rfl, by decide, rfl⟩,
    by decide, undisturbed_of (by decide) rfl, by decide, by decide⟩

/-- Car A with its left door reported OPEN, that side as given. -/
def unprovenSide (f : DoorSide → DoorSide) (s : State) : State :=
  withSide f (withCar (fun r => { r with
    status := some { quiet with doors := quiet.doors.set .left { leaf := .opened, ack := false, obstruction := false } } }) s)

theorem witness_DoorCloseByState :
    (∀ s ∈ [idle, pendingSide, retrySide, closingSide 0, withSide (fun r => { r with state := .unproven }) idle,
        withSide (fun r => { r with state := .unproven }) stale, withSide (fun r => { r with state := .fault }) idle,
        withSide (fun r => { r with state := .fault }) stale, unprovenSide (fun r => { r with state := .fault }) idle,
        unprovenSide (fun r => { r with state := .fault }) checked],
      s.listening ∧ s.undisturbed) ∧
      idle.isFresh .a = true ∧ stale.isFresh .a = false ∧ (idle.car .a).status = some quiet ∧ (quiet.door .left).leaf = .locked ∧
      (quiet.door .left).ack = false ∧ idle.hac.state = .held ∧ checked.hac.state ≠ .held ∧
      ((unprovenSide id idle).car .a).status.all (fun x => (x.door .left).leaf != .locked) = true := by
  refine ⟨?_, by decide, by decide, rfl, rfl, rfl, rfl, by decide, by decide⟩
  intro s hs
  simp only [List.mem_cons, List.not_mem_nil, or_false] at hs
  rcases hs with rfl | rfl | rfl | rfl | rfl | rfl | rfl | rfl | rfl | rfl <;>
    exact ⟨by decide, undisturbed_of (by decide) rfl⟩

theorem witness_SetDayPurges :
    boarding.listening ∧ boarding.isRunning ∧ boarding.ptb.day = 405 := by decide

theorem witness_PassInsertHolds :
    boarding.listening ∧ boarding.ptb.law ∧
      ([passFields 7001, passFields 1].map offerOf =
        [⟨7001, .period, .active, none, some 400, some 420⟩, ⟨1, .period, .active, none, some 400, some 420⟩].map Offer.good) ∧
      ([7001, 1] : List Nat).Nodup ∧ boarding.ptb.entries.length + 2 ≤ 4096 := by decide

theorem witness_PassDeleteRemoves :
    boarding.listening ∧ boarding.ptb.law ∧ 0 ∉ ([7001, 7002, 9] : List Nat) ∧ ([7001, 7002, 9] : List Nat).Nodup ∧
      ([7001, 0, 0] : List Nat)[1]? = some 0 ∧ ([7001, 0, 0] : List Nat)[0]? ≠ some 0 ∧ 12 < (List.replicate 13 1).length := by decide

theorem witness_PassBlockAndUnblock :
    boarding.listening ∧ boarding.ptb.law ∧ 0 ∉ ([7001, 7003, 7004, 9] : List Nat) ∧ ([7001, 7003, 7004, 9] : List Nat).Nodup := by decide

theorem witness_TakingFollowsLookup :
    tickets.law ∧ tickets.lookup 300 7001 .g1 = .eligible .party 4 ∧
      tickets.find? 7001 = some (entry 7001 .party (some 4)) ∧ (tickets.take 7001 4 .g1).isLeft = true := by decide

theorem witness_GateExchangesPoll :
    let s := { idle with glm := { idle.glm with cycle := 0 } }
    let g : GateRec := { GateRec.fresh 1 .g1 with state := .shut, misses := 1 }
    let u := withGate 1 (fun _ => g) s
    let p : Poll := { address := 1, windowOpen := false, verdict := none, access := none, timer := some 8 }
    let h : GateRec := { GateRec.fresh 2 .g1 with state := .shut }
    u.isRunning ∧ u.glm.law ∧ u.glm.running = true ∧ u.glm.poll = some p ∧ u.glm.cursor = 1 ∧ u.gate? 1 = some g ∧
      g.state ≠ .offline ∧ g.state ≠ .fault ∧ u.glm.slots.s1 = none ∧ u.glm.slots.s2 = none ∧ h ∈ u.glm.gates ∧
      h.state ≠ .offline ∧ (∀ x ∈ u.glm.gates, 1 < x.address → x.state ≠ .offline → 2 ≤ x.address) ∧
      (∀ x ∈ u.glm.gates, 1 < x.address → 2 ≤ x.address) ∧ g.carried = false ∧ g.misses < 2 ∧
      gateReplyOf? 1 ([1, 2, 0, 0, 0, 0] ++ checkBytes (crc16 [1, 2, 0, 0, 0, 0])) = some .idle := by decide +kernel

/-- Boarding with auto-close on, car A's left side changed. -/
def closingLine (f : DoorSide → DoorSide) : State := withSide f { boarding with line := some { line with autoClose := 1 } }

/-- Boarding with gate 1 polled and car A empty, gate 1 changed. -/
def atGate (f : GateRec → GateRec) : State :=
  withGate 1 f { boarding with
    tally := ⟨{ Tally.reset with unknown := false }, { Tally.reset with unknown := false }⟩ }

/-- A reply of gate 1 that presents a ticket below 65,536, and one that counts persons passed. -/
def presenting (ticket : Nat) : List Byte :=
  let l : List Byte := [1, 1, 0, 0, .ofNat 8 (ticket / 256), .ofNat 8 ticket]
  l ++ checkBytes (crc16 l)
def passedBy (n : Byte) : List Byte := [1, 2, n, 0, 0, 0] ++ checkBytes (crc16 [1, 2, n, 0, 0, 0])

/-- The gate poll that is out in these states. -/
def firstPoll : Poll := { address := 1, windowOpen := false, verdict := none, access := none, timer := some 8 }

/-- Car A with 57 and with 56 persons aboard: a party of four finds no room, and room. -/
def laden (n : Nat) : State :=
  { atGate id with tally := ⟨{ aboardMin := 0, aboardMax := n, inFlight := 0, unknown := false }, { Tally.reset with unknown := false }⟩ }

/-- Car A about to descend with a floor that its projection does not meet. -/
def steep : State :=
  { atGate id with line := some { line with aFloor := 2000 }, hac := { idle.hac with plan := [0] } }

/-- A side in a retry wait stays and one without takes the close, the seats run short at 57, the third miss is the last. -/
theorem witness_BoardingEventsAct :
    (boarding.listening ∧ groupOf? 0 = none ∧ groupOf? 5 = none ∧ groupOf? 1 = some .g1 ∧ groupOf? 4 = some .g4 ∧
      (boarding.window .g1).state = .opened ∧ (boarding.window .g4).state ≠ .opened ∧ boarding.param LineFields.autoClose ≠ 1 ∧
      (boarding.window .g1).dwell.isSome = true) ∧
    (∀ s ∈ [closingLine id, closingLine (fun r => { r with retryTimer := some 20 })],
      s.listening ∧ (s.window .g1).state = .opened ∧ (s.window .g1).dwell.isSome = true ∧ (s.brake .sb).cmd = .apply ∧
        s.lmu.mode ≠ .warming ∧ s.sealingEnd .g1 = .sealed ∧ s.param LineFields.autoClose = 1 ∧ (s.window .g1).car = some .a ∧
        (s.window .g1).stop = some 1 ∧ .left ∈ s.platformSides .a 1 ∧ (s.window .g2).state ≠ .opened ∧
        (s.window .g3).state ≠ .opened ∧ (s.window .g4).state ≠ .opened) ∧
    ((closingLine id).takesClose .a .left = true ∧
      (closingLine (fun r => { r with retryTimer := some 20 })).takesClose .a .left = false) ∧
    (querying.isRunning ∧ (querying.gate? 2).any (fun g => g.queryTimer.isSome && decide (g.queryTicket = some 9100)) = true ∧
      (querying.window .g1).state ≠ .sealing) ∧
    (passing.isRunning ∧ (passing.gate? 2).any (fun g => decide (g.admission = some party)) = true ∧
      party.deadline.isSome = true ∧ (passing.window .g1).state ≠ .sealing) ∧
    (∀ s ∈ [atGate id, atGate (fun g => { g with state := .shut }), laden 57, laden 56, steep,
        atGate (fun g => { g with state := .passing, admission := some party, misses := 2 }),
        { atGate id with line := some { line with queryEnable := 0 } }],
      s.isRunning ∧ s.glm.law ∧ s.glm.poll = some firstPoll ∧ (s.gate? 1).isSome = true ∧ s.glm.slots.s1 = none ∧
        s.glm.slots.s2 = none ∧ (s.window .g1).car = some .a ∧ s.uncrossed .gates 1) ∧
    (gateReplyOf? 1 (presenting 7001) = some (.presented 7001) ∧ gateReplyOf? 1 (presenting 0) = some (.presented 0) ∧
      gateReplyOf? 1 (presenting 99) = some (.presented 99) ∧ gateReplyOf? 1 (passedBy 3) = some (.passed 3) ∧
      gateReplyOf? 1 (passedBy 2) = some (.passed 2) ∧ party.pending = 3) ∧
    ((atGate id).gate? 1).any (fun g => g.state == .ready && g.verdict.isNone) = true ∧
    (∀ s ∈ [atGate id, laden 56, steep], s.ptb.lookup (s.param LineFields.passback) 7001 .g1 = .eligible .party 4 ∧
      4 + (s.tallyOf .a).aboardMax + (s.tallyOf .a).inFlight ≤ s.capacity) ∧
    ¬4 + ((laden 57).tallyOf .a).aboardMax + ((laden 57).tallyOf .a).inFlight ≤ (laden 57).capacity ∧
    ((steep.project .a 4).descends = true ∧ (steep.project .a 4).below = true ∧ ((laden 56).project .a 4).descends = false) ∧
    (boarding.ptb.lookup 300 99 .g1 = .refused .unknown ∧ boarding.ptb.lookup 300 7004 .g1 = .refused .used) ∧
    ((atGate id).ptb.take 7001 4 .g1).isLeft = true := by
  and_intros <;> decide +kernel

theorem witness_BoardingLawsKept :
    (∀ s ∈ [boarding, passing], s.glm.law ∧ s.ptb.law) ∧ passing.boardingLaw ∧ passing.gateWindowLaw ∧ passing.seatLaw ∧
      passing.pendingFor .a = 3 ∧ (stepWith (.passageDeadline 2) passing).isSome = true ∧
      idle.boardingLaw ∧ idle.gateWindowLaw ∧ idle.seatLaw ∧ (stepWith (.doorRelease 5 0 0) idle).any
        (fun t => (t.side .a .left).state == .releasePending) = true := by
  refine ⟨by decide, ⟨?_, ?_, by decide, by decide⟩, by decide, ?_, by decide, by decide, ⟨?_, ?_, by decide, by decide⟩, by decide, ?_,
    by decide⟩
  · intro g; cases g <;> decide
  · intro c d; cases c <;> cases d <;> decide
  · intro c; cases c <;> decide
  · intro g; cases g <;> decide
  · intro c d; cases c <;> cases d <;> decide
  · intro c; cases c <;> decide

/-- A lamp test held in the first access slot. -/
def slotHeld : State :=
  { boarding with glm := { boarding.glm with
      slots := { boarding.glm.slots with s1 := some { gate := 1, command := .lampTest, argument := 3, polls := 1 } } } }

/-- A query for a ticket in flight at gate 2, car A with at most n persons aboard. -/
def asking (ticket n : Nat) : State :=
  withGate 2 (fun g => { g with state := .query, queryNumber := 3, queryTicket := some ticket, queryTimer := some 700 }) (laden n)

/-- Such a query on a line where car A would descend below its floor. -/
def askingSteep : State := { asking 7001 0 with line := steep.line, hac := steep.hac }

/-- The entry that an answer to a query for ticket 9100 carries. -/
def freshOffer : PassOffer :=
  { id := 9100, kind := .period, state := .active, rides := none, validFrom := some 400, validTo := some 420 }

theorem witness_GateRequestsAct :
    (parkedLine.listening ∧ parkedLine.lmu.mode = .parked ∧
        (([⟨16, 4⟩, ⟨1, 1⟩] : List GateFields).map GateFields.address).Nodup ∧ parkedLine.glm.slots.s1 = none ∧
        parkedLine.glm.slots.s2 = none ∧ parkedLine.glm.poll.isSome = true) ∧
      (slotHeld.listening ∧ (slotHeld.gate? 1).isSome = true ∧ accessOf? 0 = some .lampTest ∧
        (slotHeld.glm.slots.get .s1).isSome = true ∧ slotHeld.glm.slots.get .s2 = none ∧
        (slotHeld.gate? 1).all (fun g => g.state != .offline) = true) ∧
      ((withGate 5 (fun g => { g with state := .offline }) idle).gate? 5).any (fun g => g.state == .offline) = true ∧
      idle.gate? 16 = none ∧ querying.listening ∧
      (querying.gate? 2).any (fun g => g.state == .query && g.queryNumber == 3 && g.queryTicket == some 9100) = true ∧
      (querying.window .g1).state ≠ .sealing ∧
      ((querying.window .g1).state = .opened ∧ (querying.window .g1).car = some .a ∧ querying.ptb.find? 9100 = none) ∧
      (offerOf (passFields 9100) = .good freshOffer ∧ freshOffer.id = 9100 ∧
        ((querying.ptb.insert freshOffer).1.take 9100 1 .g1).isLeft = true) ∧
      ((∀ t ∈ [(asking 7001 0), (asking 7001 57), (asking 7001 56)],
          t.listening ∧ (t.gate? 2).any (fun g => g.state == .query && g.queryNumber == 3 && g.queryTicket == some 7001) = true ∧
            t.ptb.find? 7001 = some (entry 7001 .party (some 4)) ∧ (t.window .g1).state = .opened ∧ (t.window .g1).car = some .a) ∧
        ¬4 + ((asking 7001 57).tallyOf .a).aboardMax + ((asking 7001 57).tallyOf .a).inFlight ≤ (asking 7001 57).capacity ∧
        4 + ((asking 7001 56).tallyOf .a).aboardMax + ((asking 7001 56).tallyOf .a).inFlight ≤ (asking 7001 56).capacity ∧
        ((asking 7001 56).project .a 4).descends = false ∧ ((asking 7001 56).ptb.take 7001 4 .g1).isLeft = true ∧
        ((asking 7004 0).ptb.take 7004 1 .g1).isRight = true ∧
        ((askingSteep.project .a 4).descends = true ∧ (askingSteep.project .a 4).below = true)) ∧
      ((laden 59).listening ∧ (laden 60).listening ∧ (laden 59).glm.slots.s1 = none ∧
        ((laden 59).gate? 1).any (fun g => g.state == .ready) = true ∧ ((laden 59).window .g1).car = some .a ∧
        1 + ((laden 59).tallyOf .a).aboardMax + ((laden 59).tallyOf .a).inFlight ≤ (laden 59).capacity ∧
        ¬1 + ((laden 60).tallyOf .a).aboardMax + ((laden 60).tallyOf .a).inFlight ≤ (laden 60).capacity) := by
  and_intros <;> decide +kernel

/-- POS at its threshold outside SERVICE. -/
def worn : State :=
  inMode .reduced { idle with lmu := { idle.lmu with health := { idle.lmu.health with pos := { count := 16, exp := 4 } } } }

/-- PARKED without stops loaded; and with a table that passes every check. -/
def unready : State := { parkedLine with stops := [], hac := { Haulage.reset with ready := true } }

/-- A PARKED line as a failed warming finds it, returning to a variant. -/
def warmingFrom (links loop : Bool) : State :=
  { warming with lmu := { warming.lmu with warmBack := { keepLinks := links, keepLoop := loop } } }

/-- WARMING for SERVICE with POS over its threshold. -/
def wornWarming : State :=
  { warming with lmu := { warming.lmu with health := { warming.lmu.health with pos := { count := 16, exp := 4 } } } }

theorem witness_ModeRequestsAct :
    (idle.listening ∧ idle.bsq.test = none ∧ idle.lmu.mode = .service ∧ idle.modeChangeAllowed .init = none ∧
        idle.modeChangeAllowed .tripped = none) ∧
      (worn.listening ∧ worn.bsq.test = none ∧ (worn.modeChangeAllowed .service).isSome = true ∧
        worn.lmu.health.forcing.any = true) ∧
      (unready.listening ∧ unready.bsq.test = none ∧ unready.lmu.mode = .parked ∧
        (unready.modeChangeAllowed .service).any (fun c => c.checks) = true ∧ unready.configFault.isSome = true) ∧
      (moving.listening ∧ moving.bsq.test = none ∧ moving.lmu.mode = .service ∧
        (modeChange .service .maintenance).any (fun c => moving.modeReasons c != []) = true ∧
        (modeChange .service .parked).any (fun c => moving.modeReasons c != []) = true ∧
        (modeChange .service .evacuation).any (fun c => moving.modeReasons c != []) = true) ∧
      ((idle.modeChangeAllowed .maintenance).any (fun c => !c.checks && idle.modeReasons c == []) = true ∧ idle.allSecured = true ∧
        idle.noneOpen) ∧
      ((parkedLine.modeChangeAllowed .maintenance).any (fun c => parkedLine.modeReasons c == []) = true ∧
        parkedLine.lmu.variant = some { keepLinks := true, keepLoop := true } ∧ parkedLine.listening ∧ parkedLine.bsq.stop = none ∧
        parkedLine.bsq.latch = none ∧ parkedLine.hac.state = .held ∧ (parkedLine.brake .eb).cmd = .apply ∧
        (parkedLine.brake .eb).state = .applied ∧ parkedLine.reading .eb ≠ .released ∧ warmTargetOf .maintenance = some .maintenance) ∧
      ((idle.modeChangeAllowed .parked).any (fun c => idle.modeReasons c == []) = true ∧ (idle.brake .sb).cmd = .apply ∧
        (idle.brake .eb).cmd = .release ∧ (idle.brake .eb).state = .released ∧ idle.reading .eb ≠ .applied) ∧
      (∀ s ∈ [warmingFrom true true, warmingFrom true false, warmingFrom false true, warmingFrom false false],
        s.listening ∧ s.bsq.test = none ∧ s.lmu.mode = .warming ∧ s.lmu.warmTimer.isSome = true ∧ s.hac.state = .held ∧
        s.bsq.stop = none ∧ s.windowsBusy = false ∧ s.glm.running = true ∧ (s.car .a).running = true ∧ (s.car .b).running = true ∧
        s.glm.slots.s1 = none ∧ s.glm.slots.s2 = none ∧ (s.brake .sb).cmd = .apply ∧
        (s.brake .eb).cmd = .release ∧ (s.brake .eb).state = .lifting ∧ s.reading .eb ≠ .applied) ∧
      (∀ s ∈ [warming, wornWarming], s.isRunning ∧ s.lmu.mode = .warming ∧ s.lmu.target = some .service ∧ s.lmu.variant = none ∧
        (s.brake .eb).state = .lifting ∧ s.reading .eb ≠ .released ∧ s.bothFresh = true ∧ s.hac.state = .held ∧ s.bsq.stop = none ∧
        s.bsq.test = none ∧ (s.brake .sb).cmd = .apply) ∧
      (warming.lmu.health.forcing.any = false ∧ wornWarming.lmu.health.forcing.any = true) := by
  refine ⟨by decide, by decide, by decide, by decide, ⟨by decide, rfl, noneOpen_of rfl⟩, by decide, by decide, by decide, by decide,
    by decide⟩

theorem witness_SupervisionHeld :
    let s : State := { idle with lmu := { idle.lmu with lost := true, supTimer := .stopped } }
    (idle.listening ∧ idle.lmu.mode ≠ .parked ∧ idle.lmu.lost = false ∧ idle.lmu.expected.value = 0xC3 ∧ idle.hac.state = .held ∧
      idle.noneOpen ∧ idle.bsq.test = none ∧ idle.lmu.supTimer = .running 900) ∧ (s.listening ∧ s.lmu.lost = true) ∧
    (∀ t ∈ [moving, berthing 519990, checked], t.isRunning ∧ t.listening ∧ t.hac.state ≠ .held ∧ t.bsq.test = none ∧
      t.lmu.supTimer = .running 900 ∧ t.lmu.expected.value = 0xC3 ∧ t.lmu.lost = false ∧ (t.brake .sb).state ≠ .lifting) ∧
    (moving.noneOpen ∧ checked.noneOpen ∧ checked.bsq.stop.isSome = true ∧ moving.bsq.stop = none ∧ moving.ptr.standstill = false ∧
      moving.hac.state.drives = true ∧ moving.hac.vRef ≠ 0) ∧
    (testing.isRunning ∧ testing.noneOpen ∧ testing.bsq.test.isSome = true ∧ testing.hac.state = .held ∧
      testing.lmu.supTimer = .running 900 ∧ testing.lmu.mode ≠ .warming) := by
  refine ⟨⟨by decide, by decide, rfl, rfl, rfl, noneOpen_of rfl, rfl, rfl⟩, by decide, by decide,
    ⟨noneOpen_of rfl, noneOpen_of rfl, ?_⟩, rfl, noneOpen_of rfl, ?_⟩ <;> decide

/-- SERVICE with a count of LINK_A beside its threshold of 16. -/
def counted (n : Nat) : State := { idle with lmu := { idle.lmu with health := { idle.lmu.health with linkA := { count := n, exp := 4 } } } }

/-- Counts 15 and 16 are the two sides of a threshold of exponent 4. -/
theorem witness_HealthSetAndRestart :
    idle.listening ∧ counterOf? 4 = some .frames ∧ CounterName.frames.forces = false ∧ counterOf? 0 = some .pos ∧
      worn.listening ∧ worn.lmu.mode ≠ .service ∧
      (∀ n ∈ [15, 16], (counted n).listening ∧ (counted n).isRunning ∧ (counted n).lmu.mode = .service ∧
        (counted n).lmu.health.linkA.isOver = decide (16 ≤ n)) ∧
      (CounterName.linkA.forces = true ∧ counterOf? 1 = some .linkA ∧ ({ count := 16, exp := min 15 4 } : Counter).isOver = true ∧
        ({ count := 16, exp := min 15 5 } : Counter).isOver = false) ∧
      (statusOf? .a [] = none ∧ ((counted 15).car .a).running = true ∧
        (counted 15).lmu.health.linkA.count + 1 = 2 ^ (counted 15).lmu.health.linkA.exp) ∧
      parkedLine.listening ∧ parkedLine.lmu.mode = .parked ∧ restarting.isRunning ∧
      restarting.slp.restarting = true ∧ restarting.slp.places < 4 := by decide

theorem witness_MaskRequestsAct :
    idle.listening := by decide

/-- The receive buffer full and every maskable class masked. -/
def crowded : State :=
  withLink (fun l => { l with
    mask := 0x7FC0, waiting := [waitingReply 1, waitingReply 2, waitingReply 3, waitingReply 4] }) idle

theorem witness_LinkEventsAct :
    idle.isRunning ∧ idle.slp.receiver = .hunting ∧ crowded.isRunning ∧ crowded.slp.mask.getLsbD 12 = true ∧
      (241 : Byte).toNat = 241 ∧ frameCheck 5 9 [] ≠ 0 ∧ crowded.slp.restarting = false ∧ crowded.slp.places = 4 ∧
      crowded.slp.overloads < 8 ∧ crowded.slp.sending.isSome = true ∧
      (∀ f, crowded.slp.sending = some f → f.isRestart = false) ∧ crowded.slp.waiting.length = 4 ∧
      (withLink (fun l => { l with queue := [queryReport] }) idle).slp.waiting = [] ∧ idle.slp.queue = [] ∧
      (withLink (fun l => { l with receiver := .inFrame [1] }) idle).slp.receiver = .inFrame [1] ∧
      (withLink (fun l => { l with sending := none }) idle).slp.sending = none := by
  refine ⟨rfl, rfl, rfl, by decide, by decide, by decide +kernel, rfl, by decide, by decide, rfl, ?_, rfl, rfl, rfl, rfl, rfl⟩
  rintro f ⟨⟩
  rfl

theorem witness_PostedReportsQueue :
    idle.slp.sending.isSome = true ∧ offlineReport.cls.maskable = true ∧ queryReport.cls.maskable = false ∧
      crowded.slp.mask.getLsbD offlineReport.cls.index = true ∧ idle.slp.mask.getLsbD offlineReport.cls.index = false ∧
      idle.slp.queue.length < 32 ∧ (List.replicate 32 queryReport).length = 32 ∧
      (List.replicate 31 queryReport ++ offlineReport :: []).length = 32 ∧
      ∀ y ∈ List.replicate 32 queryReport, y.cls.maskable = false := by decide

end Sys2Proof.Tests
end

section
/-! SUPPORT. The reset state, the laws of the configuration and of the gate list, and the encoder counts. -/

namespace Sys2Proof.Machine

/-! ## The reset state (R21, R46, R68, R89, R103, R125, R141, R164, R183, R196) -/

/-- Settles O5: every conjunct is a field of State.reset, read off; those that speak of every brake, car, side, group or counter
by its cases. -/
theorem resetStateIsAsStated : Obligations.ResetStateIsAsStated := by
  have brakes : ∀ b, (State.reset.brake b).cmd = .apply := fun b => by cases b <;> rfl
  have cars : ∀ c, (State.reset.car c).freshness = .never ∧ (State.reset.car c).status = none ∧ (State.reset.car c).alarm = false :=
    fun c => by cases c <;> exact ⟨rfl, rfl, rfl⟩
  have sides : ∀ c d, (State.reset.side c d).state = .unproven := fun c d => by cases c <;> cases d <;> rfl
  have windows : ∀ g, (State.reset.window g).state = .shut := fun g => by cases g <;> rfl
  have counters : ∀ n, State.reset.lmu.health.get n = { count := 0, exp := 4 } := fun n => by cases n <;> rfl
  unfold Obligations.ResetStateIsAsStated
  simp only [brakes, cars, sides, windows, counters, implies_true, true_and, and_true]
  decide

/-! ## The laws of the configuration and of the gate list (R3, R5, R6, R7, R142, R144) -/

/-- A run keeps the law of the configuration. -/
theorem Run.configLaw {s t : State} (h : Run s t) : s.configLaw → t.configLaw := by
  induction h with
  | trans _ _ ih1 ih2 => exact fun h => ih2 (ih1 h)
  | config _ _ _ _ _ law => exact law
  | post s r => intro h; rw [post_eq]; exact h
  | side _ _ _ _ _ _ ih => exact ih
  | fresh _ _ _ _ _ _ ih => exact ih
  | health _ _ _ _ _ ih => exact ih
  | _ => exact id

/-- A run keeps the law of the gate list. -/
theorem Run.gateLaw {s t : State} (h : Run s t) : s.glm.law → t.glm.law := by
  induction h with
  | trans _ _ ih1 ih2 => exact fun h => ih2 (ih1 h)
  | gates _ _ law => exact law
  | post s r => intro h; rw [post_glm]; exact h
  | side _ _ _ _ _ _ ih => exact ih
  | fresh _ _ _ _ _ _ ih => exact ih
  | health _ _ _ _ _ ih => exact ih
  | _ => exact id

/-- A blank configuration is within every bound (R9). -/
theorem blankState_configLaw (c : ResetCause) (s : State) : (blankState c s).configLaw :=
  ⟨fun _ loaded => (nomatch loaded), Nat.zero_le _, .nil, Nat.zero_le _, List.nodup_nil, Nat.zero_le _, List.nodup_nil⟩

/-- Settles O19: the reset lists are empty, the reference is 0, every brake is commanded APPLY, no counter is over threshold and
the mode is INIT. -/
theorem resetKeepsLaws : Obligations.ResetKeepsLaws := by
  have config : State.reset.configLaw := blankState_configLaw .powerOn State.reset
  exact ⟨by decide, by decide, by decide, by decide, by decide, by decide, by decide, by decide, by decide, by decide, by decide,
    config, by decide⟩

/-- A RESTART keeps the addresses of the gate list and begins at cycle 0 (R164, R182). -/
theorem keptState_gateLaw {s : State} (h : s.glm.law) : (keptState s).glm.law := by
  obtain ⟨rising, _⟩ := h
  refine ⟨?_, Nat.zero_lt_succ 7⟩
  have same : ((keptState s).glm.gates).map GateRec.address = s.glm.gates.map GateRec.address := by
    show (s.glm.gates.map (fun g => GateRec.fresh g.address g.group)).map GateRec.address = _
    rw [List.map_map]
    rfl
  rw [same]
  exact rising

/-- Settles O18: both laws are kept by a run, by a millisecond and by the resets, and speak of neither the link nor the queue. -/
theorem configAndGateLawsKept : Obligations.ConfigAndGateLawsKept := by
  intro s t h
  constructor <;> intro law
  · exact step_keeps State.configLaw (fun _ _ r p => .inl (r.configLaw p)) (fun _ _ _ p => p) blankState_configLaw
      (fun _ p => p) (fun _ _ p => p) (fun _ p => (tick_run _).configLaw p) (fun _ _ _ p => p) law h
  · exact step_keeps (fun s => s.glm.law) (fun _ _ r p => .inl (r.gateLaw p)) (fun _ _ _ p => p)
      (fun _ _ => ⟨.nil, Nat.zero_lt_succ 7⟩) (fun _ p => keptState_gateLaw p) (fun _ _ p => p)
      (fun _ p => (tick_run _).gateLaw p) (fun _ _ _ p => p) law h

/-! ## Encoder counts (R10) -/

/-- Settles O20: a run of edges is added to the count of its encoder or taken from it, by its sense. -/
theorem encoderCountMoves : Obligations.EncoderCountMoves := by
  intro d n s running
  have moved : ∀ v : BitVec 48, countEdges d n v = if d = .up then v + BitVec.ofNat 48 n else v - BitVec.ofNat 48 n := by
    intro v
    cases d <;> rfl
  have counts : ∀ e, exec (.encoderCount e d n) s = .next { s with overrun := false, ptr := s.ptr.edges e d n } :=
    fun e => whileRunning_next (f := fun s => { s with ptr := s.ptr.edges e d n }) running rfl
  simp only [counts, Tracker.edges, moved, and_self]

end Sys2Proof.Machine
end

section
/-! SUPPORT. The loads of the track tables and the reading requests. -/

namespace Sys2Proof.Machine

/-! ## Requests that a listening device handles -/

/-- A listening device hears a request in the mode that it has. -/
theorem heard_configurable {s : State} (mode : s.lmu.mode = .init ∨ s.lmu.mode = .parked) : s.heard.configurable = true := by
  show (s.lmu.mode == .init || s.lmu.mode == .parked) = true
  rcases mode with m | m <;> rw [m] <;> rfl

/-- A request whose handling ends in a state within the depth of hand-overs and an answer. -/
theorem request_answers {tag : Byte} {kind : ReqKind} {h : Handler} {s t : State} {a : Answer} (l : s.listening)
    (e : h s.heard = (t, a)) (o : t.overrun = false) : request tag kind h s = .next (t.replied tag kind a) := by
  rw [request_next l (by rw [e]; exact o), e]

/-! ## The examination of records (R5, R6, R7) -/

/-- Records are good where each record is, wherever it stands. -/
theorem recordChecks_good {α : Type} {checks : α → Nat → List FieldCheck} {l : List α}
    (h : ∀ r ∈ l, ∀ o, ∀ c ∈ checks r o, c.good = true) (size o : Nat) :
    ∀ c ∈ recordChecks checks size l o, c.good = true := by
  induction l generalizing o with
  | nil => exact fun c hc => nomatch hc
  | cons r rest ih =>
    exact List.forall_mem_append.2 ⟨h r List.mem_cons_self o, ih (fun x hx => h x (List.mem_cons_of_mem _ hx)) _⟩

/-- Distinct values, none of them seen before, repeat none. -/
theorem repeatChecks_of_nodup {seen l : List Nat} (distinct : l.Nodup) (unseen : ∀ v ∈ l, v ∉ seen) :
    ∀ b ∈ repeatChecks seen l, b = false := by
  induction l generalizing seen with
  | nil => exact fun b hb => nomatch hb
  | cons v rest ih =>
    obtain ⟨fresh, rest_distinct⟩ := List.nodup_cons.1 distinct
    intro b hb
    rcases List.mem_cons.1 hb with rfl | later
    · simpa using unseen v List.mem_cons_self
    · refine ih rest_distinct (fun w hw seen_w => ?_) b later
      rcases List.mem_cons.1 seen_w with rfl | before
      · exact fresh hw
      · exact unseen w (List.mem_cons_of_mem _ hw) before

/-- A list of records with distinct keys is good where each record is that repeats no key. -/
theorem keyedChecks_good {α : Type} {checks : α × Bool → Nat → List FieldCheck} {key : α → Nat} {l : List α}
    (distinct : (l.map key).Nodup) (h : ∀ r ∈ l, ∀ o, ∀ c ∈ checks (r, false) o, c.good = true) (size o : Nat) :
    ∀ c ∈ recordChecks checks size (l.zip (repeatChecks [] (l.map key))) o, c.good = true := by
  refine recordChecks_good ?_ size o
  rintro ⟨r, repeated⟩ member o c hc
  obtain ⟨in_list, in_repeats⟩ := List.of_mem_zip member
  obtain rfl : repeated = false := repeatChecks_of_nodup distinct (fun _ _ => List.not_mem_nil) _ in_repeats
  exact h r in_list o c hc

/-- A field between its bounds is good. -/
theorem range_of_le {v lo hi o : Nat} (low : lo ≤ v) (high : v ≤ hi) : (FieldCheck.range v lo hi o).good = true :=
  decide_eq_true ⟨low, high⟩

/-- A list of records without a fault: its length and each of its checks. -/
theorem listFault_none {n bound : Nat} {checks : List FieldCheck} (length : n ≤ bound) (h : ∀ c ∈ checks, c.good = true) :
    firstFault (.range n 0 bound 0 :: checks) = none :=
  firstFault_none.2 (List.forall_mem_cons.2 ⟨range_of_le (Nat.zero_le n) length, h⟩)

/-! ## LOAD_SEGMENTS (R5) -/

/-- The fields of a segment as R5 admits them. -/
abbrev SegmentAdmitted (r : SegmentFields) : Prop :=
  r.start ≤ 4000000 ∧ 10 ≤ r.vLimit ∧ r.vLimit ≤ 1500 ∧ 10 ≤ r.vCruise ∧ r.vCruise ≤ r.vLimit ∧ r.sinePm ≤ 1000 ∧ r.walkway ≤ 2

theorem segmentChecks_good {r : SegmentFields} (h : SegmentAdmitted r) (o : Nat) : ∀ c ∈ segmentChecks r o, c.good = true := by
  obtain ⟨start, limit_low, limit_high, cruise_low, cruise_high, sine, walkway⟩ := h
  simp only [segmentChecks, List.forall_mem_cons]
  exact ⟨range_of_le (Nat.zero_le _) start, range_of_le limit_low limit_high,
    range_of_le cruise_low (le_min (cruise_high.trans limit_high) cruise_high), range_of_le (Nat.zero_le _) sine,
    range_of_le (Nat.zero_le _) walkway, fun _ hc => nomatch hc⟩

/-- A walkway code that R198 defines is none, left or right. -/
theorem walkwayOf?_of_le {n : Nat} (h : n ≤ 2) :
    (walkwayOf? n).getD .none = if n = 1 then .left else if n = 2 then .right else .none := by
  interval_cases n <;> rfl

theorem insertSegment_perm (g : Segment) (l : List Segment) : (insertSegment g l).Perm (g :: l) := by
  induction l with
  | nil => exact .refl _
  | cons h rest ih =>
    simp only [insertSegment]
    split
    · exact .refl _
    · exact (ih.cons h).trans (.swap g h rest)

/-- The stored segments are the segments carried (R5). -/
theorem sortSegments_perm (l : List Segment) : (sortSegments l).Perm l := by
  suffices ∀ acc : List Segment, (l.foldl (fun acc g => insertSegment g acc) acc).Perm (l ++ acc) by
    simpa [sortSegments] using this []
  induction l with
  | nil => exact fun acc => .refl acc
  | cons g rest ih =>
    intro acc
    exact (ih _).trans (((insertSegment_perm g acc).append_left rest).trans List.perm_middle)

/-- Settles O25: good fields pass the examination, the stored table is sorted, and it is a permutation of what was carried. -/
theorem loadSegmentsStoresAscending : Obligations.LoadSegmentsStoresAscending := by
  intro tag l s listening mode length admitted
  have good : segmentsFault l = none :=
    listFault_none length (recordChecks_good (fun r hr => segmentChecks_good (admitted r hr)) 7 1)
  have handled : handleLoadSegments l s.heard = ({ s.heard with segs := sortSegments (l.map segmentOf) }, accept .none) := by
    simp only [handleLoadSegments, heard_configurable mode, good, if_true]
  refine ⟨sortSegments (l.map segmentOf), request_answers listening handled rfl, (sortSegments_spec _).1, ?_⟩
  refine (sortSegments_perm _).trans (.of_eq (List.map_congr_left (fun r hr => ?_)))
  obtain ⟨-, -, -, -, -, -, walkway⟩ := admitted r hr
  simp only [segmentOf, walkwayOf?_of_le walkway]

/-! ## LOAD_STOPS and LOAD_MARKERS (R6, R7) -/

/-- The fields of one car at a stop as R6 admits them. -/
abbrev StopCarAdmitted (c : StopCarFields) : Prop :=
  c.sides ≤ 3 ∧ c.group ≤ 4 ∧ c.terminal ≤ 1 ∧ (c.sides = 0 → c.group = 0)

theorem stopCarChecks_good {r : StopCarFields} (h : StopCarAdmitted r) (o : Nat) : ∀ c ∈ stopCarChecks r o, c.good = true := by
  obtain ⟨sides, group, terminal, no_side⟩ := h
  have group_good : (decide (r.group ≤ 4) && (r.group == 0 || r.sides != 0)) = true := by
    by_cases bare : r.sides = 0
    · simp [no_side bare]
    · simp [group, bare]
  simp only [stopCarChecks, List.forall_mem_cons]
  exact ⟨range_of_le (Nat.zero_le _) sides, group_good, range_of_le (Nat.zero_le _) terminal, fun _ hc => nomatch hc⟩

/-- The fields of a stop as R6 admits them, its index apart from those of the stops before it. -/
abbrev StopAdmitted (r : StopFields) : Prop :=
  r.index ≤ 5 ∧ r.pos ≤ 4000000 ∧ ∀ c ∈ [r.carA, r.carB], StopCarAdmitted c

theorem stopChecks_good {r : StopFields} (h : StopAdmitted r) (o : Nat) : ∀ c ∈ stopChecks (r, false) o, c.good = true := by
  obtain ⟨index, pos, cars⟩ := h
  obtain ⟨car_a, car_b, -⟩ := (List.forall_mem_cons.trans (and_congr_right fun _ => List.forall_mem_cons)).1 cars
  have own : ∀ c ∈ [{ good := decide (r.index ≤ 5) && !false, offset := o }, FieldCheck.range r.pos 0 Config.maxPosition (o + 1)],
      c.good = true := by
    simp only [List.forall_mem_cons]
    exact ⟨by simp [index], range_of_le (Nat.zero_le _) pos, fun _ hc => nomatch hc⟩
  exact List.forall_mem_append.2
    ⟨List.forall_mem_append.2 ⟨own, stopCarChecks_good car_a _⟩, stopCarChecks_good car_b _⟩

/-- The fields of a marker as R7 admits them, its id apart from those of the markers before it. -/
abbrev MarkerAdmitted (r : MarkerFields) : Prop := 1 ≤ r.id ∧ r.id ≤ 16 ∧ r.pos ≤ 4000000 ∧ r.car ≤ 1

theorem markerChecks_good {r : MarkerFields} (h : MarkerAdmitted r) (o : Nat) : ∀ c ∈ markerChecks (r, false) o, c.good = true := by
  obtain ⟨id_low, id_high, pos, car⟩ := h
  simp only [markerChecks, List.forall_mem_cons]
  exact ⟨by simp [id_low, id_high], range_of_le (Nat.zero_le _) pos, range_of_le (Nat.zero_le _) car, fun _ hc => nomatch hc⟩

/-- A car code that R198 defines is A or B. -/
theorem carOf?_of_le {n : Nat} (h : n ≤ 1) : (carOf? n).getD .a = if n = 0 then .a else .b := by
  interval_cases n <;> rfl

/-- Taking the berth record off stop: the clearance marks fall only where the record changes (R25, R114). -/
theorem setBerth_offStop (s : State) : setBerth .offStop s = { s with
    hac := { s.hac with berth := .offStop }
    dru := { s.dru with cleared := if s.hac.berth = .offStop then s.dru.cleared else ⟨false, false⟩ } } := by
  unfold setBerth
  split
  · rename_i off
    rw [← off]
  · rfl

/-- Settles O26: good fields pass the examination, and storing stops empties the plan and takes the berth record off stop. -/
theorem loadStopsAndMarkersStore : Obligations.LoadStopsAndMarkersStore := by
  constructor
  · intro tag l s listening mode length distinct admitted
    have good : stopsFault l = none :=
      listFault_none length (keyedChecks_good distinct (fun r hr => stopChecks_good (admitted r hr)) 11 1)
    have handled : handleLoadStops l s.heard = (storeStops (l.map stopOf) s.heard, accept .none) := by
      simp only [handleLoadStops, heard_configurable mode, good, if_true]
    have stored := setBerth_offStop { s.heard with stops := l.map stopOf, hac := { s.hac with plan := [], legMark := false } }
    exact request_answers listening (handled.trans (congrArg (·, accept .none) stored)) rfl
  · intro tag l s listening mode length distinct admitted
    have good : markersFault l = none :=
      listFault_none length (keyedChecks_good distinct (fun r hr => markerChecks_good (admitted r hr)) 6 1)
    have records : l.map (fun r => ({ id := r.id, pos := r.pos, car := if r.car = 0 then .a else .b } : Marker))
        = l.map markerOf := by
      refine List.map_congr_left (fun r hr => ?_)
      obtain ⟨-, -, -, car⟩ := admitted r hr
      simp only [markerOf, carOf?_of_le car]
    have handled : handleLoadMarkers l s.heard = ({ s.heard with markers := l.map markerOf }, accept .none) := by
      simp only [handleLoadMarkers, heard_configurable mode, good, if_true]
    rw [records]
    exact request_answers listening handled rfl

/-! ## The reading requests -/

/-- A request that only reads is answered with what it read, and the state is as it was heard. -/
theorem read_answers {tag : Byte} {kind : ReqKind} {s : State} (a : State → Answer) (l : s.listening) :
    request tag kind (fun s => (s, a s)) s = .next (s.heard.replied tag kind (a s.heard)) :=
  request_answers l rfl rfl

/-- Settles O27: each read answers with its data, which do not speak of the link; LINK_READ sees its own place and frame, and
PASS_READ goes by the entry of its id. -/
theorem readsAnswer : Obligations.ReadsAnswer := by
  intro tag s l
  refine ⟨read_answers (fun s => accept (.position s.positionData)) l, read_answers (fun s => accept (.haulage s.haulageData)) l,
    read_answers (fun s => accept (.envelope s.envelopeData)) l, read_answers (fun s => accept (.brakes s.brakeData)) l,
    read_answers (fun s => accept (.cars s.carData)) l,
    read_answers (fun s => accept (.doors { sides := s.dru.sides, cleared := s.dru.cleared })) l,
    read_answers (fun s => accept (.boarding s.boardingData)) l, read_answers (fun s => accept (.health s.lmu.health)) l,
    read_answers (fun s => accept (.mode s.modeData)) l, read_answers (fun s => accept (.link s.linkData)) l,
    request_answers l rfl rfl, ?_, ?_⟩
  · intro id e nonzero held
    have found : s.heard.ptb.find? id = some e := held
    refine request_answers (h := handlePassRead id) l ?_ rfl
    simp only [handlePassRead, if_neg nonzero, found]
    rfl
  · intro id nonzero absent
    have not_found : s.heard.ptb.find? id = none := absent
    refine request_answers (h := handlePassRead id) l ?_ rfl
    simp only [handlePassRead, if_neg nonzero, not_found]
    rfl

end Sys2Proof.Machine
end

section
/-! SUPPORT. CONFIGURE_LINE and the requests that INIT and PARKED alone take. -/

namespace Sys2Proof.Machine

/-! ## Posting, as a change of the link alone (R190) -/

/-- The link after a report of a class meets its mask, its queue and its transmitter (R190, R191, R194). -/
def Link.taking (l : Link) (r : Report) : Link := if l.masks r.cls then l else (l.enqueue r).transmit

/-- What a post does to the link rests on the link and the report alone, so that it commutes with a change of any other block. -/
theorem post_eq_taking (r : Report) (s : State) : post r s = { s with slp := s.slp.taking r } := by
  unfold post Link.taking
  split <;> rfl

/-! ## The timers due before the parameters were loaded (R69, R89, R104) -/

/-- The record of a brake on its way, with its response timer started (R69). -/
def State.dueBrake (s : State) (f : LineFields) (b : BrakeId) : BrakeRec :=
  let r := s.brake b
  if r.timer = none ∧ (r.state = .lifting ∨ r.state = .setting ∨ ((r.state = .applied ∨ r.state = .released) ∧
      s.reading b = .between)) then
    { r with timer := some (if b = .sb then f.tSbResp else f.tEbResp) }
  else r

/-- The record of a side whose state asks for a timer, with that timer started (R104). -/
def DoorSide.due (r : DoorSide) (f : LineFields) : DoorSide :=
  if r.state = .releasePending ∧ r.ackTimer = none then { r with ackTimer := some 500 }
  else if r.state = .closing ∧ r.closeTimer = none then { r with closeTimer := some (f.tClose * 1000) }
  else if (r.state = .released ∨ r.state = .opened) ∧ r.kind = none ∧ r.retryTimer = none then { r with retryTimer := some 2000 }
  else r

theorem setBrake_self (s : State) (b : BrakeId) : s.setBrake b (s.brake b) = s := by cases b <;> rfl

theorem setBrake_side (s : State) (b : BrakeId) (r : BrakeRec) (c : Car) (d : Side) : (s.setBrake b r).side c d = s.side c d := rfl

theorem setSide_self (s : State) (c : Car) (d : Side) : s.setSide c d (s.side c d) = s := by cases c <;> cases d <;> rfl

/-- Once the parameters are loaded, a response timer that is due starts from its bound. -/
theorem startResponse_eq {s : State} {f : LineFields} (loaded : s.line = some f) (b : BrakeId) :
    startResponse b s = s.setBrake b (s.dueBrake f b) := by
  have bound : s.respBound b = some (if b = .sb then f.tSbResp else f.tEbResp) := by
    cases b <;> simp [State.respBound, State.bound, loaded]
  simp only [startResponse, setBrakeTimer, bound, State.dueBrake, Bool.and_eq_true, Bool.or_eq_true, beq_iff_eq,
    Option.isNone_iff_eq_none]
  by_cases stopped : (s.brake b).timer = none
  · simp only [stopped, true_and, and_true, or_assoc]
    split
    · rfl
    · exact (setBrake_self s b).symm
  · simp only [stopped, false_and, and_false, if_false]
    exact (setBrake_self s b).symm

/-- Once the parameters are loaded, a door timer that is due starts from its bound. -/
theorem startDoorTimer_eq {s : State} {f : LineFields} (loaded : s.line = some f) (c : Car) (d : Side) :
    startDoorTimer c d s = s.setSide c d ((s.side c d).due f) := by
  have ack : s.ackBound = some 500 := by simp [State.ackBound, loaded, Config.ackMs]
  have close : s.closeBound = some (f.tClose * 1000) := by simp [State.closeBound, State.boundSec, loaded]
  have retry : s.retryBound = some 2000 := by simp [State.retryBound, loaded, Config.retryMs]
  have self := (setSide_self s c d).symm
  unfold startDoorTimer
  simp only [ack, close, retry]
  generalize s.side c d = r at self ⊢
  obtain ⟨state, kind, stop, retries, ackTimer, closeTimer, retryTimer, faultCause, clearing⟩ := r
  cases state
  case releasePending =>
    cases ackTimer
    · rfl
    · exact self
  case closing =>
    cases closeTimer
    · rfl
    · exact self
  case released | opened =>
    cases kind
    · cases retryTimer
      · rfl
      · exact self
    · exact self
  all_goals exact self

/-- The timers that start at the first CONFIGURE_LINE, each from its own record (R4, R69, R104). -/
theorem startTimers_eq {s : State} {f : LineFields} (loaded : s.line = some f) : startTimers s = { s with
    bsq := { s.bsq with recs := ⟨s.dueBrake f .sb, s.dueBrake f .eb⟩ }
    dru := { s.dru with sides :=
      ⟨⟨(s.side .a .left).due f, (s.side .a .right).due f⟩, ⟨(s.side .b .left).due f, (s.side .b .right).due f⟩⟩ } } := by
  have brakes : startResponse .eb (startResponse .sb s)
      = (s.setBrake .sb (s.dueBrake f .sb)).setBrake .eb (s.dueBrake f .eb) := by
    rw [startResponse_eq loaded, startResponse_eq (by exact loaded)]
    rfl
  simp only [startTimers, brakes, forEach, bothCars, bothSides, List.foldl_cons, List.foldl_nil]
  rw [startDoorTimer_eq (by exact loaded) .a .left, startDoorTimer_eq (by exact loaded) .a .right,
    startDoorTimer_eq (by exact loaded) .b .left, startDoorTimer_eq (by exact loaded) .b .right]
  simp (disch := decide) only [side_setSide_other, setBrake_side]
  rfl

/-! ## CONFIGURE_LINE (R3, R4, R159) -/

/-- The tally of a car under new parameters: unknown where they make the capacity known or change it (R159). -/
def Tally.under (t : Tally) (old : Option LineFields) (f : LineFields) : Tally :=
  if old.map LineFields.capacity = some f.capacity then t else { t with aboardMin := 0, aboardMax := f.capacity, unknown := true }

theorem newCapacity_eq (old : Option LineFields) (f : LineFields) (s : State) :
    newCapacity old f s = { s with tally := ⟨s.tally.a.under old f, s.tally.b.under old f⟩ } := by
  unfold newCapacity Tally.under
  split <;> rfl

/-- The POSITION report of a validity that becomes LOST at x (R18, R22). -/
abbrev lossReport (cause : PositionCause) (x : Int) (marker : Option Nat) (sw : Option LineEnd) : Report :=
  .position { cause := cause, before := x, after := x, validity := .lost, marker := marker, switch := sw }

/-- A loss of validity on a line at rest: its report, and no stop (R18). -/
theorem loseValidity_held {k : Hand} {cause : PositionCause} {marker : Option Nat} {sw : Option LineEnd} {s : State}
    (held : s.hac.state = .held) : loseValidity k cause marker sw s =
      if s.ptr.validity = .valid then
        post (lossReport cause s.ptr.x marker sw) { s with ptr := { s.ptr with validity := .lost } }
      else s := by
  have rest : (post (lossReport cause s.ptr.x marker sw) { s with ptr := { s.ptr with validity := .lost } }).moving = false := by
    rw [State.moving, post_hac]
    exact bne_eq_false_iff_eq.2 held
  unfold loseValidity positionReport
  cases validity : s.ptr.validity
  · exact if_neg (by rw [rest]; decide)
  · rfl

/-- A new axis on a line at rest (R4, R29). -/
theorem axisChanged_held {s : State} (held : s.hac.state = .held) :
    let changed : State := { s with
      ptr := { s.ptr with
        validity := .lost, first := if s.ptr.first = .afterReset then .afterReset else .afterReconfigure }
      hac := { s.hac with berth := .offStop }
      dru := { s.dru with cleared := if s.hac.berth = .offStop then s.dru.cleared else ⟨false, false⟩ } }
    axisChanged s = if s.ptr.validity = .valid then
      post (lossReport .config s.ptr.x none none) changed else changed := by
  simp only [axisChanged, loseValidity_held held, setBerth_offStop, post_eq_taking, beq_iff_eq]
  cases validity : s.ptr.validity
  · rfl
  · simp only [reduceCtorEq, if_false]
    rw [← validity]

/-- An examined CONFIGURE_LINE is accepted in INIT and PARKED. -/
theorem handleConfigureLine_accepts {f : LineFields} {s : State} (mode : s.lmu.mode = .init ∨ s.lmu.mode = .parked)
    (good : firstFault (lineChecks f) = none) : handleConfigureLine f s.heard = (configure f s.heard, accept .none) := by
  simp only [handleConfigureLine, heard_configurable mode, good, if_true]

/-- A request that INIT and PARKED alone take is refused in the other modes (R3, R5, R6, R7, R142, R182). -/
theorem wrongMode_answers {tag : Byte} {kind : ReqKind} {h : Handler} {taken : State × Answer} {s : State} (l : s.listening)
    (not_init : s.lmu.mode ≠ .init) (not_parked : s.lmu.mode ≠ .parked)
    (e : h s.heard = if s.heard.configurable then taken else (s.heard, refuse .wrongMode)) :
    request tag kind h s = .next (s.heard.replied tag kind (refuse .wrongMode)) := by
  have barred : s.heard.configurable = false := by
    show (s.lmu.mode == .init || s.lmu.mode == .parked) = false
    simp [not_init, not_parked]
  rw [barred] at e
  exact request_answers l e rfl

/-- Settles O24: the examination decides between a refusal and the configuration, which has the capacity's effect on the tallies and
then that of a first CONFIGURE_LINE or of a new axis. -/
theorem configureLineAnswers : Obligations.ConfigureLineAnswers := by
  refine ⟨fun tag f s l mode => ⟨fun o fault => ?_, ?_⟩, ?_, ?_, ?_⟩
  · have handled : handleConfigureLine f s.heard = (s.heard, badField o) := by
      simp only [handleConfigureLine, heard_configurable mode, fault, if_true]
    exact request_answers l handled rfl
  · intro old loaded good length scaleP scaleC
    have axis_kept : changesAxis old f = false := by simp [changesAxis, length, scaleP, scaleC]
    have configured : configure f s.heard
        = { s.heard with line := some f, tally := ⟨s.tally.a.under (some old) f, s.tally.b.under (some old) f⟩ } := by
      simp only [configure, show s.heard.line = some old from loaded, axis_kept, newCapacity_eq]
      rfl
    have handled := handleConfigureLine_accepts mode good
    rw [configured] at handled
    refine (request_answers l handled rfl).trans ?_
    simp only [Tally.under, Option.map_some, Option.some.injEq]
    rfl
  · intro tag s l not_init not_parked
    exact ⟨fun f => wrongMode_answers l not_init not_parked (h := handleConfigureLine f) rfl,
      fun r => wrongMode_answers l not_init not_parked (h := handleLoadSegments r) rfl,
      fun r => wrongMode_answers l not_init not_parked (h := handleLoadStops r) rfl,
      fun r => wrongMode_answers l not_init not_parked (h := handleLoadMarkers r) rfl,
      fun r => wrongMode_answers l not_init not_parked (h := handleLoadGates r) rfl,
      wrongMode_answers l not_init not_parked (h := handleRestart) rfl⟩
  · intro tag f s l mode unloaded good
    have configured : configure f s.heard = startTimers
        { s.heard with line := some f, tally := ⟨s.tally.a.under none f, s.tally.b.under none f⟩ } := by
      simp only [configure, show s.heard.line = none from unloaded, newCapacity_eq]
      rfl
    have handled := handleConfigureLine_accepts mode good
    rw [configured, startTimers_eq rfl] at handled
    exact request_answers l handled rfl
  · intro tag f old s l mode held loaded good axis
    have axis_changes : changesAxis old f = true := by
      simp only [changesAxis, Bool.or_eq_true, bne_iff_ne, or_assoc]
      exact axis
    have configured : configure f s.heard = axisChanged
        { s.heard with line := some f, tally := ⟨s.tally.a.under (some old) f, s.tally.b.under (some old) f⟩ } := by
      simp only [configure, show s.heard.line = some old from loaded, axis_changes, newCapacity_eq, if_true]
      rfl
    have handled := handleConfigureLine_accepts mode good
    rw [configured, axisChanged_held (by exact held)] at handled
    refine (request_answers l handled ?_).trans ?_
    · split
      · rw [post_overrun]; rfl
      · rfl
    · simp only [Tally.under, Option.map_some, Option.some.injEq]
      rfl

end Sys2Proof.Machine
end

section
/-! SUPPORT. A position sample in its stages, and the ordinary sample of a line at rest. -/

namespace Sys2Proof.Machine

/-! ## What waits for standstill, where nothing waits (R35a, R40, R75, R79) -/

/-- While HELD with no stop in the record nothing waits for standstill. -/
theorem settleNow_resting {k : Hand} {s : State} (held : s.hac.state = .held) (no_stop : s.bsq.stop = none) :
    settleNow k s = s := by
  have not_due : s.setDue = false := by simp [State.setDue, held]
  have no_end : endStop s = s := by simp only [endStop, no_stop]
  simp only [settleNow, not_due, Bool.false_eq_true, if_false, show (s.hac.state == .stopping) = false by rw [held]; rfl,
    Bool.false_and, no_end, ite_self]

/-- The state with the speed of its latest sample among the kept ones (R77). -/
def State.speedKept (s : State) : State := { s with bsq := { s.bsq with vHist := (s.ptr.vMeas :: s.bsq.vHist).take 21 } }

/-- The other blocks at a completed sample of a line at rest in INIT or PARKED: no evaluation, no check, no test (R47, R77, R84). -/
theorem onSample_resting {s : State} {t : Int} (mode : s.lmu.mode = .init ∨ s.lmu.mode = .parked) (held : s.hac.state = .held)
    (no_stop : s.bsq.stop = none) (no_test : s.bsq.test = none) : onSample cascade t s = s.speedKept := by
  have quiet : s.evaluates = false := by
    rcases mode with m | m <;> simp [State.evaluates, m]
  have kept : decelerationSample s = s.speedKept := by
    unfold decelerationSample
    dsimp only
    split
    · rename_i r stop
      exact nomatch no_stop.symm.trans stop
    · rfl
  have tested : testSample cascade s.speedKept = s.speedKept := by
    simp only [testSample, show s.speedKept.bsq.test = none from no_test]
  have settled : cascade .settle s.speedKept = s.speedKept := settleNow_resting held no_stop
  unfold onSample
  cases s.line
  · simp only [kept, tested, settled]
  · simp only [quiet, kept, tested, settled, Bool.false_eq_true, if_false]

/-! ## The parts of a sample (R11) -/

/-- Within tolerance the cross-check does nothing (R13). -/
theorem crossCheck_within {k : Hand} {p : LineFields} {was : Bool} {s : State} (within : (s.ptr.x - s.ptr.xc).natAbs ≤ p.tEnc)
    (class_ : s.ptr.beyond = false) : crossCheck k p was s = s := by
  simp only [crossCheck, class_, Bool.false_and, Bool.false_eq_true, if_false]
  exact if_neg (by omega)

/-- Overtravel switches that do not read active do nothing (R20). -/
theorem overtravelSwitches_open {k : Hand} {prev now : Switches} {s : State} (lower : now.otLower = false)
    (upper : now.otUpper = false) : overtravelSwitches k prev now s = s := by
  simp only [overtravelSwitches, lower, upper, Bool.false_and, Bool.false_eq_true, if_false]

/-- Terminal switches that do not read active do nothing (R19). -/
theorem terminalSwitches_open {k : Hand} {p : LineFields} {prev now : Switches} {first stilled : Bool} {s : State}
    (lower : now.lower = false) (upper : now.upper = false) : terminalSwitches k p prev now first stilled s = s := by
  simp only [terminalSwitches, lower, upper]

/-- The state of a sample once its place is known, before the cross-check (R11). -/
def State.located (s : State) (p : LineFields) (w : Switches) : State := { s with ptr := (readSwitches w s).ptr.locate p }

/-- The speed and the standstill flag follow the place (R11). -/
theorem afterCheck_located (s : State) (p : LineFields) (w : Switches) :
    { s.located p w with ptr := (s.located p w).ptr.gauge p } = { s with ptr := s.sampled p w } := rfl

/-- The located tracker's class is the comparison of its two positions (R13). -/
theorem located_within {s : State} {p : LineFields} {w : Switches} (class_ : (s.located p w).ptr.beyond = false) :
    ((s.located p w).ptr.x - (s.located p w).ptr.xc).natAbs ≤ p.tEnc := Nat.le_of_not_lt (of_decide_eq_false class_)

/-- A sample with loaded parameters, its stages in R11's order: c is the state that the cross-check leaves, d the state once the
speed and the standstill flag are known. -/
theorem sample_loaded {k : Hand} {s c d : State} {p : LineFields} {w : Switches} (loaded : s.line = some p)
    (checked : crossCheck k p s.ptr.wasBeyond (s.located p w) = c) (gauged : { c with ptr := c.ptr.gauge p } = d) :
    sample k w s =
      onSample k (travelOf s.ptr (s.ptr.terms p)) (overtravelSwitches k s.ptr.switches w
        (terminalSwitches k p s.ptr.switches w (s.ptr.first != .ordinary) (d.ptr.standstill && !s.ptr.standstill) d)) := by
  subst checked gauged
  unfold sample
  dsimp only
  split
  · rename_i unloaded
    exact nomatch loaded.symm.trans unloaded
  · rename_i q e
    cases loaded.symm.trans e
    rfl

/-- A sample with loaded parameters and the encoders within tolerance: the arithmetic, the switches and the other blocks. -/
theorem sample_within {k : Hand} {s : State} {p : LineFields} {w : Switches} (loaded : s.line = some p)
    (class_ : (s.sampled p w).beyond = false) : sample k w s =
      onSample k (travelOf s.ptr (s.ptr.terms p)) (overtravelSwitches k s.ptr.switches w
        (terminalSwitches k p s.ptr.switches w (s.ptr.first != .ordinary) ((s.sampled p w).standstill && !s.ptr.standstill)
          { s with ptr := s.sampled p w })) := by
  have located : (s.located p w).ptr.beyond = false := class_
  exact sample_loaded loaded (crossCheck_within (located_within located) located) (afterCheck_located s p w)

/-- Such a sample of a line at rest in INIT or PARKED, its overtravel switches open, where the terminal switches leave u. -/
theorem sample_resting {s u : State} {p : LineFields} {w : Switches} (loaded : s.line = some p)
    (class_ : (s.sampled p w).beyond = false) (ot_lower : w.otLower = false) (ot_upper : w.otUpper = false)
    (switched : terminalSwitches cascade p s.ptr.switches w (s.ptr.first != .ordinary)
      ((s.sampled p w).standstill && !s.ptr.standstill) { s with ptr := s.sampled p w } = u)
    (mode : u.lmu.mode = .init ∨ u.lmu.mode = .parked) (held : u.hac.state = .held) (no_stop : u.bsq.stop = none)
    (no_test : u.bsq.test = none) : sample cascade w s = u.speedKept := by
  rw [sample_within loaded class_, switched, overtravelSwitches_open ot_lower ot_upper,
    onSample_resting mode held no_stop no_test]

/-- POSITION_SAMPLE on a running device. -/
theorem exec_positionSample {s t : State} {lower upper otLower otUpper : Bool} (running : s.isRunning)
    (e : sample cascade ⟨lower, upper, otLower, otUpper⟩ { s with overrun := false } = t) (clear : t.overrun = false) :
    exec (.positionSample lower upper otLower otUpper) s = .next t := by
  subst e
  exact whileRunning_next running clear

/-! ## The arithmetic of a sample (R10, R12, R14, R15) -/

/-- The tracker after the arithmetic of a sample, field by field. -/
theorem sampled_eq (s : State) (p : LineFields) (w : Switches) :
    let hist := keepTerms s.ptr.first (s.ptr.terms p) s.ptr.hist
    let sm := min Config.maxPosition (s.ptr.sm + (travelOf s.ptr (s.ptr.terms p)).natAbs)
    let x := s.ptr.offsetP + distanceTerm s.ptr.countP p.scaleP
    let xc := s.ptr.offsetC + distanceTerm s.ptr.countC p.scaleC
    let still := stillRun p (measuredSpeed hist) s.ptr.still
    s.sampled p w = { s.ptr with
      x := x, xc := xc, sm := sm, u := uncertainty p sm, hist := hist, first := .ordinary, vMeas := measuredSpeed hist, still := still,
      standstill := standstillAfter p still s.ptr.standstill, beyond := decide (p.tEnc < (x - xc).natAbs),
      lower := w.lower, upper := w.upper, otLower := w.otLower, otUpper := w.otUpper } := rfl

/-- v_meas compares the newest of the kept terms with the oldest (R14). -/
theorem measuredSpeed_cons (cur : DistanceTerms) (hist : List DistanceTerms) :
    measuredSpeed ((cur :: hist).take 11) =
      20 * max (cur.p - (((cur :: hist).take 11).getLast?.getD cur).p).natAbs
        (cur.c - (((cur :: hist).take 11).getLast?.getD cur).c).natAbs := by
  simp only [measuredSpeed, List.take_succ_cons, List.getLast?_cons, Option.getD_some]

/-- A history of terms all alike gives no speed (R14). -/
theorem measuredSpeed_replicate (cur : DistanceTerms) : measuredSpeed (List.replicate 11 cur) = 0 := by
  simp [measuredSpeed, List.replicate_succ]

theorem stillRun_eq (p : LineFields) (v : Nat) (run : Option Nat) :
    stillRun p v run = if v ≤ p.vStill then some (match run with | some n => n + 5 | none => 0) else none := by
  cases run <;> rfl

theorem standstillAfter_eq (p : LineFields) (run : Option Nat) (old : Bool) :
    standstillAfter p run old = match run with | some n => old || decide (p.tStill ≤ n) | none => false := by
  cases run <;> rfl

/-- Settles O21: with no switch active and the encoders within tolerance the sample is its arithmetic alone, and what the arithmetic
gives is read off each of its stages. -/
theorem sampleComputesPosition : Obligations.SampleComputesPosition := by
  intro s p running loaded mode held no_stop no_test ordinary term cur hist old v sm still x xc within
  have class_ : decide (p.tEnc < (x - xc).natAbs) = false := decide_eq_false (Nat.not_lt.2 within)
  have done := sample_resting (s := { s with overrun := false }) (w := ⟨false, false, false, false⟩) loaded class_ rfl rfl
    (terminalSwitches_open rfl rfl) mode held no_stop no_test
  refine exec_positionSample running (done.trans ?_) rfl
  have kept : keepTerms s.ptr.first (s.ptr.terms p) s.ptr.hist = hist := by rw [ordinary]; rfl
  have travelled : min Config.maxPosition (s.ptr.sm + (travelOf s.ptr (s.ptr.terms p)).natAbs) = sm := by
    rw [travelOf, ordinary]; rfl
  have speed : measuredSpeed hist = v := measuredSpeed_cons cur s.ptr.hist
  have run : stillRun p v s.ptr.still = still := stillRun_eq p v s.ptr.still
  have place : s.ptr.offsetP + distanceTerm s.ptr.countP p.scaleP = x := rfl
  have check_place : s.ptr.offsetC + distanceTerm s.ptr.countC p.scaleC = xc := rfl
  have tracker := sampled_eq { s with overrun := false } p ⟨false, false, false, false⟩
  simp only [kept, travelled, speed, run, place, check_place, class_, ← ordinary] at tracker
  rw [State.speedKept, tracker, standstillAfter_eq]
  rfl

end Sys2Proof.Machine
end

section
/-! SUPPORT. The position set at a terminal switch, and homing at a first sample. -/

namespace Sys2Proof.Machine

/-! ## The position set at a terminal switch (R19, R36) -/

/-- The tracker set to a target, its offsets such that the present counts stand there (R19). -/
def Tracker.placed (t : Tracker) (p : LineFields) (target : Int) (v : Validity) : Tracker :=
  { t with
    offsetP := target - distanceTerm t.countP p.scaleP, offsetC := target - distanceTerm t.countC p.scaleC
    x := target, xc := target, sm := 0, u := p.u0, validity := v }

/-- The POSITION report of a position set at a switch (R19, R22). -/
abbrev switchReport (cause : PositionCause) (before after : Int) (v : Validity) (sw : LineEnd) : Report :=
  .position { cause := cause, before := before, after := after, validity := v, marker := none, switch := some sw }

theorem setPosition_eq (p : LineFields) (target : Int) (v : Validity) (cause : PositionCause) (sw : LineEnd) (s : State) :
    setPosition p target v cause sw s =
      post (switchReport cause s.ptr.x target v sw) { s with ptr := s.ptr.placed p target v } := rfl

/-- Homing while HELD at a stop: it becomes the berth and leaves the head of the plan (R25, R36, R114). -/
theorem homedWhileHeld_stopped {target : Nat} {s : State} {r : StopRec} (held : s.hac.state = .held)
    (found : s.stops.find? (fun r => r.pos == target) = some r) :
    ∃ d, homedWhileHeld target s = { s with
        hac := { s.hac with
          berth := .at r, plan := if s.hac.plan.head? = some r.index then s.hac.plan.tail else s.hac.plan }
        dru := d } ∧ d.sides = s.dru.sides := by
  have berthed : ∃ d, setBerth (.at r) s = { s with hac := { s.hac with berth := .at r }, dru := d } ∧ d.sides = s.dru.sides := by
    unfold setBerth
    split
    · rename_i same
      exact ⟨s.dru, by rw [← same], rfl⟩
    · exact ⟨_, rfl, rfl⟩
  obtain ⟨d, berthed, sides⟩ := berthed
  refine ⟨d, ?_, sides⟩
  simp only [homedWhileHeld, if_pos (show s.isHeld = true from beq_iff_eq.2 held), found, berthed]
  split <;> rfl

/-- Homing with no stop at the target leaves the Haulage Controller as it is (R36). -/
theorem homedWhileHeld_unstopped {target : Nat} {s : State} (nothing : s.stops.find? (fun r => r.pos == target) = none) :
    homedWhileHeld target s = s := by
  simp only [homedWhileHeld, nothing, ite_self]

/-- Homing while HELD changes nothing beside the haulage's records and the clearance marks. -/
theorem homedWhileHeld_spec {target : Nat} {s : State} (held : s.hac.state = .held) :
    ∃ h d, homedWhileHeld target s = { s with hac := h, dru := d } ∧ h.state = .held ∧ d.sides = s.dru.sides ∧
      (∀ r, s.stops.find? (fun r => r.pos == target) = some r →
        h.berth = .at r ∧ h.plan = if s.hac.plan.head? = some r.index then s.hac.plan.tail else s.hac.plan) ∧
      (s.stops.find? (fun r => r.pos == target) = none → h = s.hac) := by
  cases found : s.stops.find? (fun r => r.pos == target) with
  | none =>
    exact ⟨s.hac, s.dru, homedWhileHeld_unstopped found, held, rfl, fun _ e => (nomatch e), fun _ => rfl⟩
  | some r =>
    obtain ⟨d, homed, sides⟩ := homedWhileHeld_stopped held found
    exact ⟨_, d, homed, held, sides, fun q e => Option.some.inj e ▸ ⟨rfl, rfl⟩, fun e => (nomatch e)⟩

/-- The terminal switch that reads active where the upper one does or does not. -/
def LineEnd.ofUpper (upper : Bool) : LineEnd := if upper then .upper else .lower

theorem LineEnd.target_ofUpper (p : LineFields) (upper : Bool) :
    (LineEnd.ofUpper upper).target p = if upper then p.lineLength else 0 := by
  cases upper <;> rfl

/-- A first sample with exactly one terminal switch active homes (R21). -/
theorem terminalSwitches_first {k : Hand} {p : LineFields} {prev : Switches} {first stilled : Bool} (upper : Bool) {s : State}
    (is_first : first = true) : terminalSwitches k p prev ⟨!upper, upper, false, false⟩ first stilled s =
      homeAt p (.ofUpper upper) s := by
  subst is_first
  cases upper <;> rfl

/-- A first sample has no speed (R14). -/
theorem sampled_vMeas_first {s : State} {p : LineFields} {w : Switches} (first : s.ptr.first ≠ .ordinary) :
    (s.sampled p w).vMeas = 0 := by
  have alike : keepTerms s.ptr.first (s.ptr.terms p) s.ptr.hist = List.replicate 11 (s.ptr.terms p) := by
    cases e : s.ptr.first with
    | ordinary => exact absurd e first
    | afterReset | afterReconfigure => rfl
  rw [sampled_eq, alike]
  exact measuredSpeed_replicate _

/-- The first sample after a reset with exactly one terminal switch active: its arithmetic, then the homing (R11, R21). -/
theorem sample_first {s : State} {p : LineFields} {upper : Bool} (loaded : s.line = some p) (first : s.ptr.first ≠ .ordinary)
    (mode : s.lmu.mode = .init ∨ s.lmu.mode = .parked) (held : s.hac.state = .held) (no_stop : s.bsq.stop = none)
    (no_test : s.bsq.test = none) (class_ : (s.sampled p ⟨!upper, upper, false, false⟩).beyond = false) :
    let q := s.sampled p ⟨!upper, upper, false, false⟩
    let target := (LineEnd.ofUpper upper).target p
    ∃ h d, sample cascade ⟨!upper, upper, false, false⟩ s = State.speedKept
        { post (switchReport .homed q.x target .valid (.ofUpper upper)) { s with ptr := q.placed p target .valid } with
          hac := h, dru := d } ∧ d.sides = s.dru.sides ∧
      (∀ r, s.stops.find? (fun r => r.pos == target) = some r →
        h.berth = .at r ∧ h.plan = if s.hac.plan.head? = some r.index then s.hac.plan.tail else s.hac.plan) ∧
      (s.stops.find? (fun r => r.pos == target) = none → h = s.hac) := by
  intro q target
  obtain ⟨h, d, homed, state, outcome⟩ := homedWhileHeld_spec (target := target)
    (s := post (switchReport .homed q.x target .valid (.ofUpper upper)) { s with ptr := q.placed p target .valid })
    (by rw [post_hac]; exact held)
  rw [post_stops, post_hac, post_dru] at outcome
  refine ⟨h, d, ?_, outcome⟩
  refine sample_resting loaded class_ rfl rfl
    ((terminalSwitches_first upper (bne_iff_ne.2 first)).trans homed) ?_ state ?_ ?_
  · rw [post_lmu]; exact mode
  · rw [post_bsq]; exact no_stop
  · rw [post_bsq]; exact no_test

/-- Settles O22: the sample's arithmetic is followed by the homing, which sets the position and hands the target to the Haulage
Controller. -/
theorem firstSampleHomes : Obligations.FirstSampleHomes := by
  intro s p upper running loaded mode held no_stop no_test first within
  rw [← LineEnd.target_ofUpper]
  intro target
  obtain ⟨h, d, sampled, sides, berthed, unberthed⟩ := sample_first (s := { s with overrun := false }) (upper := upper) loaded first
    mode held no_stop no_test (decide_eq_false (Nat.not_lt.2 within))
  have no_speed := sampled_vMeas_first (s := { s with overrun := false }) (p := p) (w := ⟨!upper, upper, false, false⟩) first
  refine ⟨_, exec_positionSample running sampled (post_overrun _ _), ?_⟩
  simp only [State.speedKept, post_ptr, post_osp, post_bsq, post_clu, post_ptb, post_glm, post_tally, post_lmu, Tracker.placed,
    no_speed, true_and]
  exact ⟨rfl, rfl, sub_add_cancel _ _, sub_add_cancel _ _, rfl, berthed, unberthed, sides⟩

end Sys2Proof.Machine
end

section
/-! SUPPORT. Hand-overs that set nothing off, and the emergency stop of a plain line. -/

namespace Sys2Proof.Machine

/-! ## Health counters (R179) -/

/-- An increment that crosses no threshold is counted and nothing else (R175, R179). -/
theorem bumpHealth_uncrossed {k : Hand} {m : CounterName} {n : Nat} {s : State} (u : s.uncrossed m n) :
    bumpHealth k m n s = s.counted m n := by
  have no_crossing : (!(s.lmu.health.get m).isOver &&
      Counter.isOver { s.lmu.health.get m with count := satCount (s.lmu.health.get m).count n }) = false := by
    simp only [Counter.isOver, satCount, Bool.and_eq_false_iff, Bool.not_eq_false', decide_eq_true_eq]
    rcases u with passed | below
    · exact .inl passed
    · exact .inr (decide_eq_false fun reaches => absurd (reaches.trans (Nat.min_le_right _ _)) (Nat.not_le.2 below))
  simp only [bumpHealth, no_crossing, Bool.false_eq_true, if_false]
  rfl

/-! ## Hand-overs that set nothing off -/

variable {k : Hand}

/-- While the cars run nothing waits for standstill (R35a, R40, R75, R79). -/
theorem settleNow_running {s : State} (runs : s.ptr.standstill = false) : settleNow k s = s := by
  have not_due : s.setDue = false := by simp [State.setDue, runs]
  simp only [settleNow, not_due, runs, Bool.false_and, Bool.and_false, Bool.false_eq_true, if_false]

/-- A change of brake states sets nothing off where no trip waits for a brake, nothing waits for standstill, no test runs and no
warming is complete (R72). -/
theorem brakesChangedNow_unwarmed {s : State} (not_releasing : s.hac.state ≠ .releasing) (not_berthing : s.hac.state ≠ .berthing)
    (settled : k .settle s = s) (no_test : s.bsq.test = none) (unwarmed : warmingCheck k s = s) : brakesChangedNow k s = s := by
  have haulage : haulageOnBrakes k s = s := by
    unfold haulageOnBrakes
    split
    case h_1 releasing => exact absurd releasing not_releasing
    case h_2 berthing => exact absurd berthing not_berthing
    all_goals rfl
  have test : testProgress k s = s := by simp only [testProgress, no_test]
  simp only [brakesChangedNow, haulage, settled, test, unwarmed]

/-- Outside WARMING there is no warming to complete (R171). -/
theorem warmingCheck_elsewhere {s : State} (not_warming : s.lmu.mode ≠ .warming) : warmingCheck k s = s := by
  simp [warmingCheck, not_warming]

/-- Outside WARMING such a change of brake states sets nothing off. -/
theorem brakesChangedNow_still {s : State} (not_releasing : s.hac.state ≠ .releasing) (not_berthing : s.hac.state ≠ .berthing)
    (settled : k .settle s = s) (no_test : s.bsq.test = none) (not_warming : s.lmu.mode ≠ .warming) : brakesChangedNow k s = s :=
  brakesChangedNow_unwarmed not_releasing not_berthing settled no_test (warmingCheck_elsewhere not_warming)

theorem handOverBrakes_still {before : BrakeState × BrakeState} {s : State} (still : k .brakesChanged s = s) :
    handOverBrakes k before s = s := by
  unfold handOverBrakes
  split
  · rfl
  · exact still

/-- With no test running there is none to abort (R86). -/
theorem abortTestNow_none {cause : AbortCause} {s : State} (no_test : s.bsq.test = none) : abortTestNow k cause s = s := by
  simp only [abortTestNow, no_test]

/-- A SECURED side takes no close order (R115). -/
theorem closeSideNow_secured {c : Car} {d : Side} {s : State} (secured : (s.side c d).state = .secured) : closeSideNow k c d s = s := by
  simp only [closeSideNow, secured]

/-- A step done for each of a list leaves what each of them leaves. -/
theorem forEach_fixed {α : Type} {l : List α} {f : α → State → State} {s : State} (fixed : ∀ a ∈ l, f a s = s) :
    forEach l f s = s := by
  induction l with
  | nil => rfl
  | cons a rest ih =>
    show forEach rest f (f a s) = s
    rw [fixed a List.mem_cons_self]
    exact ih (fun b hb => fixed b (List.mem_cons_of_mem _ hb))

/-! ## Windows and doors at a change of mode (R115, R149) -/

/-- Every side is SECURED. -/
theorem allSecured_iff {s : State} : s.allSecured = true ↔ ∀ c d, (s.side c d).state = .secured := by
  simp only [State.allSecured, bothCars, bothSides, List.all_cons, List.all_nil, Bool.and_true, Bool.and_eq_true, beq_iff_eq]
  constructor
  · rintro ⟨⟨al, ar⟩, bl, br⟩ c d
    cases c <;> cases d <;> assumption
  · exact fun all => ⟨⟨all _ _, all _ _⟩, all _ _, all _ _⟩

/-- With no window OPEN none is sealed. -/
theorem sealOpen_none {cause : WindowCause} {s : State} (none_open : s.noneOpen) : sealOpen k cause s = s :=
  forEach_fixed (fun g _ => by simp [sealWindowNow, none_open g])

/-- Windows that stand as they were give no close orders. -/
theorem closeSealed_same (s : State) : closeSealed k s s = s := by
  refine forEach_fixed (fun c _ => forEach_fixed (fun g _ => ?_))
  have not_new : ((s.window g).state == .sealed && (s.window g).state != .sealed) = false := by
    cases (s.window g).state <;> rfl
  simp only [not_new, Bool.false_and, Bool.false_eq_true, if_false]

theorem sealAll_none {cause : WindowCause} {s : State} (none_open : s.noneOpen) : sealAll k cause s = s := by
  rw [sealAll, sealOpen_none none_open, closeSealed_same]

/-- With every side SECURED and no window OPEN a change of mode closes and seals nothing. -/
theorem closeOnMode_still {old new : Mode} {s : State} (closes : ∀ c d, k (.closeSide c d) s = s) (none_open : s.noneOpen) :
    closeOnMode k old new s = s := by
  have all_closed : closeAll k s = s := forEach_fixed (fun c _ => forEach_fixed (fun d _ => closes c d))
  simp only [closeOnMode, sealOpen_none none_open, sealAll_none none_open, all_closed, ite_self]

/-! ## A change of mode that stops and starts nothing (R165) -/

/-- A change between modes other than PARKED, and not to WARMING, whose doors and windows stay as they are: the mode and its
report. -/
theorem changeModeNow_plain {m : Mode} {cause : ModeCause} {unmet : Option WarmUnmet} {s : State} (not_parked : m ≠ .parked)
    (not_warming : m ≠ .warming) (from_parked : s.lmu.mode ≠ .parked)
    (closed : let u := modeReport .change s.lmu.mode (some cause) unmet { s with lmu := s.lmu.enter (.plain m) }
      closeOnMode k s.lmu.mode m u = u) :
    changeModeNow k (.plain m) cause unmet s =
      modeReport .change s.lmu.mode (some cause) unmet { s with lmu := s.lmu.enter (.plain m) } := by
  have was_quiet : s.lmu.isQuiet = false := by simp [LineMode.isQuiet, from_parked]
  have is_quiet : (s.lmu.enter (.plain m)).isQuiet = false := by simp [LineMode.isQuiet, LineMode.enter, ModeEntry.plain]
  have suspended : suspendOrResume false { s with lmu := s.lmu.enter (.plain m) } = { s with lmu := s.lmu.enter (.plain m) } := by
    simp only [suspendOrResume, is_quiet, Bool.false_and, Bool.and_false, Bool.false_eq_true, if_false]
  have parked : ((ModeEntry.plain m).mode == .parked) = false := beq_eq_false_iff_ne.2 not_parked
  have warming : ((ModeEntry.plain m).mode == .warming) = false := beq_eq_false_iff_ne.2 not_warming
  have was_parked : (s.lmu.mode == .parked) = false := beq_eq_false_iff_ne.2 from_parked
  simp only [changeModeNow, was_quiet, suspended, parked, warming, Bool.false_eq_true, if_false]
  rw [show (ModeEntry.plain m).mode = m from rfl, closed]
  simp only [linksOnMode, ModeEntry.plain, was_parked, Bool.false_eq_true, if_false]

/-! ## Stops that no trip, test or mode answers (R39, R74, R76, R78) -/

/-- The Haulage Controller at a BRAKE or EMERGENCY stop: STOPPING with the reference 0 where the line moves and is not STOPPING
already, and nothing where it is HELD (R39). -/
theorem haulageOnStop_hard {kind : StopKind} {s : State} (hard : kind ≠ .controlled) :
    ∃ h o, haulageOnStop kind s = { s with hac := h, osp := o } ∧ (s.hac.state = .held → h.state = .held) ∧
      (s.hac.state ≠ .held → h.state = .stopping) ∧ (s.hac.state ≠ .held → s.hac.state ≠ .stopping → h.vRef = 0) := by
  have enters : ∀ st, s.hac.state = st → st ≠ .held → st ≠ .stopping →
      ∃ h o, sendWord (enterStopping s) = { s with hac := h, osp := o } ∧ (st = .held → h.state = .held) ∧ (st ≠ .held → h.state = .stopping) ∧ (st ≠ .held → st ≠ .stopping → h.vRef = 0) := by
    intro st state not_held not_stopping
    have leaves : (s.hac.state == .stopping) = false ∧ (s.hac.state == .held) = false := by
      rw [state]
      exact ⟨beq_eq_false_iff_ne.2 not_stopping, beq_eq_false_iff_ne.2 not_held⟩
    simp only [enterStopping, setHaulage, leaves, Bool.false_eq_true, if_false]
    exact ⟨_, _, rfl, fun held => absurd held not_held, fun _ => rfl, fun _ _ => rfl⟩
  have stays : ∃ h o, s = { s with hac := h, osp := o } ∧ h = s.hac := ⟨s.hac, s.osp, rfl, rfl⟩
  unfold haulageOnStop
  cases kind
  case controlled => exact absurd rfl hard
  all_goals
    dsimp only
    cases state : s.hac.state with
    | held => exact ⟨s.hac, s.osp, rfl, fun _ => state, fun no => absurd rfl no, fun no => absurd rfl no⟩
    | stopping => exact ⟨s.hac, s.osp, rfl, fun no => (nomatch no), fun _ => state, fun _ no => absurd rfl no⟩
    | releasing | motoring | approaching | creeping | berthing => exact enters _ state (by decide) (by decide)

/-- An emergency commands both brakes APPLY (R78). -/
theorem stopCommands_emergency (s : State) :
    ∃ r, stopCommands .emergency s = { s with bsq := { s.bsq with recs := r } } ∧ ∀ b, (r.get b).cmd = .apply := by
  refine ⟨_, rfl, fun b => ?_⟩
  cases b <;> exact commanded_cmd _ _ _ _

/-- An emergency sets the latch with its cause where it is clear (R78). -/
theorem setLatch_emergency (cause : StopCause) (s : State) :
    setLatch .emergency cause s = { s with bsq := { s.bsq with latch := some (s.bsq.latch.getD cause) } } := by
  unfold setLatch
  cases latch : s.bsq.latch
  · rfl
  · dsimp only [Option.getD_some]
    rw [← latch]

/-- An emergency takes the line to TRIPPED, where no door closes and no window is sealed by it the mode alone (R78, R166). -/
theorem emergencyMode_still {n : Nat} {s : State} (from_parked : s.lmu.mode ≠ .parked) (secured : s.allSecured = true)
    (none_open : s.noneOpen) :
    ∃ l p, emergencyMode (run (n + 2)) .emergency s = { s with lmu := l, slp := p } ∧ l.mode = .tripped := by
  by_cases tripped : s.lmu.mode = .tripped
  · refine ⟨s.lmu, s.slp, ?_, tripped⟩
    simp [emergencyMode, tripped]
  · have changed : run (n + 2) (.changeMode (.plain .tripped) .emergency none) s = _ :=
      changeModeNow_plain (k := run (n + 1)) (m := .tripped) (cause := .emergency) (unmet := none) (by decide) (by decide) from_parked
        (closeOnMode_still (fun c d => closeSideNow_secured (by
          rw [modeReport, State.side, post_dru]; exact allSecured_iff.1 secured c d)) (by
          intro g; rw [modeReport, State.window, post_glm]; exact none_open g))
    have due : (StopKind.emergency == .emergency && s.lmu.mode != .tripped) = true := by simp [tripped]
    simp only [emergencyMode, due, if_true, changed, modeReport, post_eq_taking]
    exact ⟨_, _, rfl, rfl⟩

/-- An order taken on a line without a test: the record, the haulage, the brakes, the latch, the report, and then the mode, the
hand-over of brake states and what waits for standstill (R74). -/
theorem orderStopNow_taken {kind : StopKind} {cause : StopCause} {s : State} (empty : s.bsq.stop = none)
    (unaborted : k (.abortTest .stop) s = s) :
    let recorded : State := { s with bsq := { s.bsq with
      stop := some { kind := kind, cause := cause, x := s.ptr.x, vMeas := s.ptr.vMeas, check := s.firstCheck kind } } }
    let braked := setLatch kind cause (stopCommands kind (haulageOnStop kind recorded))
    let report : Report := .brake { brakeReport braked .stopTaken with kind := some kind, cause := some cause }
    orderStopNow k kind cause s = k .settle (handOverBrakes k s.brakeStates (emergencyMode k kind (post report braked))) := by
  have takes : s.takesStop kind = true := by simp only [State.takesStop, empty]
  simp only [orderStopNow, takes, if_true, takeStop, unaborted, show s.bsq.stop.isSome = false by rw [empty]; rfl,
    Bool.false_eq_true, if_false]

/-- The record of an emergency stop taken at a state (R74). -/
abbrev State.emergencyRecord (s : State) (cause : StopCause) : StopRecord :=
  { kind := .emergency, cause := cause, x := s.ptr.x, vMeas := s.ptr.vMeas, check := .absent }

/-- The record, the haulage, the brakes and the latch at an emergency stop (R39, R74, R78). -/
theorem emergency_braked (s : State) (cause : StopCause) :
    ∃ h o r, setLatch .emergency cause (stopCommands .emergency (haulageOnStop .emergency
        { s with bsq := { s.bsq with stop := some (s.emergencyRecord cause) } })) =
      { s with
        hac := h, osp := o
        bsq := { s.bsq with recs := r, stop := some (s.emergencyRecord cause), latch := some (s.bsq.latch.getD cause) } } ∧
      (∀ b, (r.get b).cmd = .apply) ∧ (s.hac.state = .held → h.state = .held) ∧ (s.hac.state ≠ .held → h.state = .stopping) := by
  obtain ⟨h, o, haulage, held, stopping, -⟩ := haulageOnStop_hard (kind := .emergency) (by decide)
    (s := { s with bsq := { s.bsq with stop := some (s.emergencyRecord cause) } })
  obtain ⟨r, commanded, applied⟩ := stopCommands_emergency
    { s with hac := h, osp := o, bsq := { s.bsq with stop := some (s.emergencyRecord cause) } }
  rw [haulage, commanded, setLatch_emergency]
  exact ⟨h, o, r, rfl, applied, held, stopping⟩

/-- An emergency stop on a plain line sets off nothing but itself. -/
theorem emergency_taken {n : Nat} {cause : StopCause} {s : State} (plain : s.plain) (empty : s.bsq.stop = none) :
    s.emergencyTaken (run (n + 4) (.orderStop .emergency cause) s) cause ∧
      (run (n + 4) (.orderStop .emergency cause) s).bsq.test = none ∧
      (run (n + 4) (.orderStop .emergency cause) s).overrun = s.overrun := by
  obtain ⟨runs, no_test, from_parked, secured, none_open⟩ := plain
  have order : run (n + 4) (.orderStop .emergency cause) s = _ :=
    orderStopNow_taken (k := run (n + 3)) (kind := .emergency) empty (abortTestNow_none no_test)
  obtain ⟨h, o, r, braked, applied, held, stopping⟩ := emergency_braked s cause
  dsimp only at order
  rw [show s.firstCheck .emergency = .absent from rfl, braked, post_eq_taking] at order
  generalize Link.taking _ _ = p at order
  obtain ⟨l, q, mode, tripped⟩ := emergencyMode_still (n := n + 1) (s := { s with
    hac := h, osp := o, slp := p
    bsq := { s.bsq with recs := r, stop := some (s.emergencyRecord cause), latch := some (s.bsq.latch.getD cause) } })
    from_parked secured none_open
  rw [mode] at order
  have idle : h.state ≠ .releasing ∧ h.state ≠ .berthing := by
    by_cases at_rest : s.hac.state = .held
    · rw [held at_rest]; decide
    · rw [stopping at_rest]; decide
  have still := brakesChangedNow_still (k := run (n + 2)) (s := { s with
    hac := h, osp := o, slp := q, lmu := l
    bsq := { s.bsq with recs := r, stop := some (s.emergencyRecord cause), latch := some (s.bsq.latch.getD cause) } })
    idle.1 idle.2 (settleNow_running runs) no_test (by rw [tripped]; decide)
  rw [handOverBrakes_still still] at order
  rw [order.trans (settleNow_running runs)]
  exact ⟨⟨rfl, rfl, applied, tripped, fun at_rest => held (beq_iff_eq.1 at_rest), fun moves => stopping (bne_iff_ne.1 moves), rfl, rfl,
    rfl, rfl, rfl, rfl, rfl, rfl, rfl, rfl⟩, no_test, rfl⟩

end Sys2Proof.Machine
end

section
/-! SUPPORT. A sample that completes behind an emergency stop, and overtravel. -/

namespace Sys2Proof.Machine

variable {k : Hand}

/-! ## A completed sample behind an emergency stop (R47, R58, R77) -/

/-- The line stands behind an EMERGENCY stop: it runs still, and the haulage is HELD or STOPPING. -/
structure State.BehindEmergency (s : State) : Prop where
  record : ∃ r, s.bsq.stop = some r ∧ r.kind = .emergency ∧ r.check = .absent
  runs : s.ptr.standstill = false
  idle : s.hac.state = .held ∨ s.hac.state = .stopping
  no_test : s.bsq.test = none

/-- What a completed sample may change behind an emergency stop: the reference and its records, the supervisor's own values, the
rail-brake trip, the kept speeds and the link. -/
def State.CompletesTo (s t : State) : Prop :=
  ∃ h o b v q, t = { s with hac := h, osp := o, bsq := { s.bsq with railTrip := b, vHist := v }, slp := q } ∧ h.state = s.hac.state

theorem State.CompletesTo.refl (s : State) : s.CompletesTo s := ⟨_, _, _, _, _, rfl, rfl⟩

theorem State.CompletesTo.trans {s t u : State} (a : s.CompletesTo t) (b : t.CompletesTo u) : s.CompletesTo u := by
  obtain ⟨_, _, _, _, _, rfl, e⟩ := a
  obtain ⟨_, _, _, _, _, rfl, f⟩ := b
  exact ⟨_, _, _, _, _, rfl, f.trans e⟩

theorem State.CompletesTo.posts {s t : State} (a : s.CompletesTo t) (r : Report) : s.CompletesTo (post r t) :=
  a.trans ⟨t.hac, t.osp, t.bsq.railTrip, t.bsq.vHist, t.slp.taking r, post_eq_taking r t, rfl⟩

theorem State.CompletesTo.behind {s t : State} (a : s.CompletesTo t) (h : s.BehindEmergency) : t.BehindEmergency := by
  obtain ⟨_, _, _, _, _, rfl, e⟩ := a
  exact ⟨h.record, h.runs, by rw [e]; exact h.idle, h.no_test⟩

/-- An order meets an EMERGENCY stop in the record and is absorbed (R74). -/
theorem orderStopNow_absorbed {kind : StopKind} {cause : StopCause} {s : State} (h : s.BehindEmergency) :
    orderStopNow k kind cause s = s := by
  obtain ⟨r, record, emergency, -⟩ := h.record
  have weaker : s.takesStop kind = false := by
    simp only [State.takesStop, record, emergency]
    cases kind <;> decide
  simp only [orderStopNow, weaker, Bool.false_eq_true, if_false]

/-- A cut of the reference behind an emergency stop changes no state of the haulage (R37, R38a). -/
theorem cutReference_behind (vPerm : Nat) {s : State} (behind : s.BehindEmergency) : s.CompletesTo (cutReference vPerm s) := by
  have stays : ∀ u : State, u.hac.state = .stopping → enterStopping u = { u with hac := { u.hac with vRef := 0, ramp := false } } := by
    intro u stopping
    simp only [enterStopping, setHaulage, stopping]
    rfl
  simp only [cutReference]
  split
  · split
    · rename_i ends
      rcases behind.idle with held | stopping
      · simp [State.moving, sendWord, held] at ends
      · rw [stays _ (by exact stopping)]
        exact ⟨_, _, _, _, _, rfl, rfl⟩
    · exact ⟨_, _, _, _, _, rfl, rfl⟩
  · exact .refl s

/-- A rise of level behind an emergency stop: at most the rail-brake trip is asserted (R58, R80). -/
theorem levelOrder_behind {n : Nat} {l : Level} {s : State} (behind : s.BehindEmergency) :
    s.CompletesTo (levelOrder (run (n + 1)) l s) := by
  have absorbed : ∀ kind cause, run (n + 1) (.orderStop kind cause) s = s := fun _ _ => orderStopNow_absorbed behind
  cases l with
  | none | warn => exact .refl s
  | service | emergency =>
    rw [levelOrder, absorbed]
    exact .refl s
  | rail =>
    simp only [levelOrder, absorbed, assertRail]
    split
    · exact .refl s
    · exact .posts (t := { s with bsq := { s.bsq with railTrip := true } }) ⟨_, _, _, _, _, rfl, rfl⟩ _

/-- An evaluation behind an emergency stop (R47). -/
theorem evaluate_behind {n : Nat} {p : LineFields} {t : Int} {s : State} (behind : s.BehindEmergency) :
    s.CompletesTo (evaluate (run (n + 1)) p t s) := by
  have stored : ∀ r acc exceeds, s.CompletesTo (storeEvaluation r acc exceeds s) := fun _ _ _ => ⟨_, _, _, _, _, rfl, rfl⟩
  have cut : ∀ r acc exceeds, s.CompletesTo (run (n + 1) .settle (cutReference r.vPerm (storeEvaluation r acc exceeds s))) := by
    intro r acc exceeds
    have c := (stored r acc exceeds).trans (cutReference_behind r.vPerm ((stored r acc exceeds).behind behind))
    rw [show run (n + 1) .settle _ = _ from settleNow_running (c.behind behind).runs]
    exact c
  have levelled : ∀ (c : Prop) [Decidable c] l u, s.CompletesTo u → s.CompletesTo (if c then levelOrder (run (n + 1)) l u else u) := by
    intro c _ l u a
    split
    · exact a.trans (levelOrder_behind (a.behind behind))
    · exact a
  have reported : ∀ (c : Prop) [Decidable c] r u, s.CompletesTo u → s.CompletesTo (if c then u else post r u) := by
    intro c _ r u a
    split
    · exact a
    · exact a.posts r
  have rolled : ∀ (c : Prop) [Decidable c] r u, s.CompletesTo u →
      s.CompletesTo (if c then post r (run (n + 1) (.orderStop .emergency .rollback) u) else u) := by
    intro c _ r u a
    split
    · rw [show run (n + 1) (.orderStop .emergency .rollback) u = u from orderStopNow_absorbed (a.behind behind)]
      exact a.posts r
    · exact a
  exact rolled _ _ _ (reported _ _ _ (levelled _ _ _ (cut _ _ _)))

/-- A sample that completes behind an emergency stop (R47, R77, R84). -/
theorem onSample_behind {n : Nat} {t : Int} {s : State} (behind : s.BehindEmergency) :
    s.CompletesTo (onSample (run (n + 1)) t s) := by
  have tail : ∀ u, s.CompletesTo u → s.CompletesTo (run (n + 1) .settle (testSample (run (n + 1)) (decelerationSample u))) := by
    intro u a
    obtain ⟨r, record, -, check⟩ := (a.behind behind).record
    have kept : decelerationSample u = u.speedKept := by
      simp only [decelerationSample, record, check]
      rw [← record]
      rfl
    have completed : s.CompletesTo u.speedKept := a.trans ⟨_, _, _, _, _, rfl, rfl⟩
    have tested : testSample (run (n + 1)) u.speedKept = u.speedKept := by
      simp only [testSample, (completed.behind behind).no_test]
    rw [kept, tested, show run (n + 1) .settle _ = _ from settleNow_running (completed.behind behind).runs]
    exact completed
  unfold onSample
  dsimp only
  split
  · split
    · exact tail _ (evaluate_behind behind)
    · exact tail _ (.refl s)
  · exact tail _ (.refl s)

/-- What an emergency stop has left behind outlasts the completion of the sample. -/
theorem emergencyTaken_completed {s t u : State} {cause : StopCause} (taken : s.emergencyTaken t cause) (a : t.CompletesTo u) :
    s.emergencyTaken u cause := by
  obtain ⟨h, o, b, v, q, rfl, state⟩ := a
  obtain ⟨stop, latch, applied, mode, held, moving, rest⟩ := taken
  exact ⟨stop, latch, applied, mode, fun x => state.trans (held x), fun x => state.trans (moving x), rest⟩

/-- A plain line after an emergency stop stands behind it. -/
theorem emergencyTaken_behind {s t : State} {cause : StopCause} (taken : s.emergencyTaken t cause) (runs : s.ptr.standstill = false)
    (no_test : t.bsq.test = none) : t.BehindEmergency := by
  obtain ⟨stop, -, -, -, held, moving, ptr, -⟩ := taken
  refine ⟨⟨_, stop, rfl, rfl⟩, by rw [ptr]; exact runs, ?_, no_test⟩
  cases rest : s.isHeld
  · exact .inr (moving (by rw [State.moving, bne, show (s.hac.state == .held) = false from rest]; rfl))
  · exact .inl (held rest)

/-- An overtravel switch that becomes active on a plain line, and the rest of its sample (R20, R60). -/
theorem overtravel_taken {n : Nat} {t : Int} {sw : LineEnd} {s : State} (plain : s.plain) (empty : s.bsq.stop = none) :
    s.emergencyTaken (onSample (run (n + 4)) t (overtravel (run (n + 4)) sw s)) .overtravel ∧
      (onSample (run (n + 4)) t (overtravel (run (n + 4)) sw s)).overrun = s.overrun := by
  obtain ⟨taken, no_test, overrun⟩ := emergency_taken (n := n) (cause := .overtravel) plain empty
  have behind := emergencyTaken_behind taken plain.1 no_test
  have reported := (State.CompletesTo.refl _).posts (t := run (n + 4) (.orderStop .emergency .overtravel) s)
    (.position { cause := .overtravel, before := (run (n + 4) (.orderStop .emergency .overtravel) s).ptr.x
                 after := (run (n + 4) (.orderStop .emergency .overtravel) s).ptr.x
                 validity := (run (n + 4) (.orderStop .emergency .overtravel) s).ptr.validity, marker := none, switch := some sw })
  have completed := reported.trans (onSample_behind (n := n + 3) (t := t) (reported.behind behind))
  refine ⟨emergencyTaken_completed taken completed, ?_⟩
  obtain ⟨h, o, b, v, q, e, -⟩ := completed
  exact (congrArg State.overrun e).trans overrun

/-! ## Overtravel (R20, R60) -/

/-- A sample before the parameters are loaded: the switches and the other blocks (R11). -/
theorem sample_unloaded {w : Switches} {s : State} (unloaded : s.line = none) :
    sample k w s = onSample k 0 (overtravelSwitches k s.ptr.switches w (readSwitches w s)) := by
  unfold sample
  dsimp only
  split
  · rfl
  · rename_i p loaded
    exact nomatch unloaded.symm.trans loaded

/-- One overtravel switch that reads active and did not before (R20). -/
theorem overtravelSwitches_one {prev : Switches} {s : State} {lower upper : Bool} (low : Bool) (was_lower : prev.otLower = false)
    (was_upper : prev.otUpper = false) :
    overtravelSwitches k prev ⟨lower, upper, low, !low⟩ s = overtravel k (.ofUpper (!low)) s := by
  cases low <;> simp [overtravelSwitches, was_lower, was_upper, LineEnd.ofUpper]

/-- An overtravel switch before the parameters are loaded. -/
theorem overtravel_unloaded {s : State} {lower upper : Bool} (low : Bool) (running : s.isRunning) (unloaded : s.line = none)
    (plain : s.plain) (empty : s.bsq.stop = none) (was_lower : s.ptr.otLower = false) (was_upper : s.ptr.otUpper = false) :
    ∃ t, exec (.positionSample lower upper low (!low)) s = .next t ∧
      State.emergencyTaken { s with
        overrun := false, ptr := { s.ptr with lower := lower, upper := upper, otLower := low, otUpper := !low } } t .overtravel := by
  obtain ⟨taken, overrun⟩ := overtravel_taken (n := 60) (t := 0) (sw := .ofUpper (!low))
    (s := readSwitches ⟨lower, upper, low, !low⟩ { s with overrun := false }) plain empty
  have sampled := sample_unloaded (k := cascade) (w := ⟨lower, upper, low, !low⟩) (s := { s with overrun := false }) unloaded
  rw [overtravelSwitches_one low was_lower was_upper] at sampled
  exact ⟨_, exec_positionSample running sampled overrun, taken⟩

/-- A sample that is not known to be at rest and has no run at or below v_still gives no standstill (R15). -/
theorem sampled_running {s : State} {p : LineFields} {w : Switches} (runs : s.ptr.standstill = false) (still : s.ptr.still = none)
    (positive : 0 < p.tStill) : (s.sampled p w).standstill = false := by
  rw [sampled_eq, runs, still]
  simp only [stillRun_eq]
  split
  · exact decide_eq_false (Nat.not_le.2 positive)
  · rfl

/-- An overtravel switch with the parameters loaded. -/
theorem overtravel_loaded {s : State} {p : LineFields} (low : Bool) (samples : s.samples p) (plain : s.plain)
    (was_lower : s.ptr.otLower = false) (was_upper : s.ptr.otUpper = false)
    (class_ : (s.sampled p ⟨false, false, low, !low⟩).beyond = false) :
    ∃ t, exec (.positionSample false false low (!low)) s = .next t ∧
      (s.keeping (s.sampled p ⟨false, false, low, !low⟩)).emergencyTaken t .overtravel := by
  obtain ⟨running, loaded, -, empty, -, runs, still, positive⟩ := samples
  obtain ⟨-, no_test, from_parked, secured, none_open⟩ := plain
  obtain ⟨taken, overrun⟩ := overtravel_taken (n := 60) (t := travelOf s.ptr (s.ptr.terms p)) (sw := .ofUpper (!low))
    (s := { s with overrun := false, ptr := s.sampled p ⟨false, false, low, !low⟩ })
    ⟨sampled_running runs still positive, no_test, from_parked, secured, none_open⟩ empty
  have sampled := sample_within (k := cascade) (w := ⟨false, false, low, !low⟩) (s := { s with overrun := false }) loaded class_
  rw [terminalSwitches_open rfl rfl, overtravelSwitches_one low was_lower was_upper] at sampled
  exact ⟨_, exec_positionSample running sampled overrun, taken⟩

end Sys2Proof.Machine
end

section
/-! SUPPORT. The terminal switches and the cross-check at a sample of a line at rest. -/

namespace Sys2Proof.Machine

/-! ## Samples of a line at rest (R13, R19) -/

/-- A running device at rest in INIT or PARKED, with the parameters loaded and a sample behind it. -/
structure State.Resting (s : State) (p : LineFields) : Prop where
  running : s.isRunning
  loaded : s.line = some p
  mode : s.lmu.mode = .init ∨ s.lmu.mode = .parked
  held : s.hac.state = .held
  no_stop : s.bsq.stop = none
  no_test : s.bsq.test = none
  ordinary : s.ptr.first = .ordinary

/-- The switches of a sample: the terminal switches given, the overtravel switches open. -/
abbrev Switches.terminal (lower upper : Bool) : Switches := ⟨lower, upper, false, false⟩

/-- A sample of such a line whose switches leave the tracker t, the mode's record l and the link r: nothing else changes but the kept
speeds. -/
theorem State.Resting.sample {s : State} {p : LineFields} (rest : s.Resting p) {lower upper : Bool} {t : Tracker} {l : LineMode}
    {r : Link} (class_ : (s.sampled p (.terminal lower upper)).beyond = false)
    (switched : terminalSwitches cascade p s.ptr.switches (.terminal lower upper) false
        ((s.sampled p (.terminal lower upper)).standstill && !s.ptr.standstill)
        { s with overrun := false, ptr := s.sampled p (.terminal lower upper) } =
      { s with overrun := false, ptr := t, lmu := l, slp := r })
    (mode : l.mode = s.lmu.mode) :
    exec (.positionSample lower upper false false) s = .next { s.keeping t with lmu := l, slp := r } := by
  have ordinary : (s.ptr.first != .ordinary) = false := by rw [rest.ordinary]; rfl
  refine exec_positionSample rest.running (sample_resting (s := { s with overrun := false })
    (u := { s with overrun := false, ptr := t, lmu := l, slp := r }) rest.loaded class_ rfl rfl ?_ (by rw [mode]; exact rest.mode)
    rest.held rest.no_stop rest.no_test) rfl
  show terminalSwitches _ _ _ _ (s.ptr.first != .ordinary) _ _ = _
  rw [ordinary]
  exact switched

/-- Such a sample at which one terminal switch reads active (R19). -/
theorem terminalSwitches_one {k : Hand} {p : LineFields} {prev : Switches} {stilled : Bool} {s : State} (upper : Bool) :
    terminalSwitches k p prev (.terminal (!upper) upper) false stilled s =
      oneSwitch k p (.ofUpper upper) (!(if upper then prev.upper else prev.lower) || prev.lower && prev.upper) stilled s := by
  cases upper <;> rfl

section
variable {k : Hand} {p : LineFields} {sw : LineEnd} {became stilled : Bool} {s : State}

/-- A line at rest homes where a switch becomes active or standstill becomes set (R19). -/
theorem oneSwitch_homes (at_rest : s.ptr.standstill = true) (event : (became || stilled) = true)
    (placeable : s.ptr.validity = .lost ∨ (s.ptr.x - (sw.target p : Int)).natAbs ≤ p.wCorr) :
    oneSwitch k p sw became stilled s = homeAt p sw s := by
  have placed : (s.ptr.validity == .lost || decide ((s.ptr.x - (sw.target p : Int)).natAbs ≤ p.wCorr)) = true := by
    simpa using placeable
  simp only [oneSwitch, at_rest, event, placed, Bool.and_self, if_true]

/-- A switch that becomes active while the cars run sets the position, where validity is VALID only near it (R19). -/
theorem oneSwitch_places (runs : s.ptr.standstill = false) (event : became = true)
    (plausible : s.ptr.validity = .valid → (s.ptr.x - (sw.target p : Int)).natAbs ≤ p.wCorr) :
    oneSwitch k p sw became stilled s = setPosition p (sw.target p) s.ptr.validity .switch sw s := by
  cases validity : s.ptr.validity with
  | lost => simp [oneSwitch, runs, event, validity]
  | valid => simp [oneSwitch, runs, event, validity, plausible validity]

/-- A switch that becomes active far from the position is implausible (R19). -/
theorem oneSwitch_far (event : became = true) (valid : s.ptr.validity = .valid)
    (far : ¬(s.ptr.x - (sw.target p : Int)).natAbs ≤ p.wCorr) :
    oneSwitch k p sw became stilled s = loseValidity k .switchFar none (some sw) (bumpHealth k .pos 1 s) := by
  simp [oneSwitch, event, valid, far]

end

/-- A counted loss of validity on a line at rest: the counter, the report and the validity (R18, R19). -/
theorem loseValidity_counted {k : Hand} {cause : PositionCause} {marker : Option Nat} {sw : Option LineEnd} {s : State}
    (held : s.hac.state = .held) (valid : s.ptr.validity = .valid) (uncrossed : s.uncrossed .pos 1) :
    loseValidity k cause marker sw (bumpHealth k .pos 1 s) =
      post (lossReport cause s.ptr.x marker sw) (State.counted { s with ptr := { s.ptr with validity := .lost } } .pos 1) := by
  rw [bumpHealth_uncrossed uncrossed, loseValidity_held (by exact held), if_pos (by exact valid)]
  rfl

/-- Both terminal switches of a line at rest: the counter and the report, and validity LOST whatever it was (R18, R19). -/
theorem doubleTerminal_held {k : Hand} {s : State} (held : s.hac.state = .held) (uncrossed : s.uncrossed .pos 1) :
    doubleTerminal k s = post (lossReport .doubleTerminal s.ptr.x none none)
      (State.counted { s with ptr := { s.ptr with validity := .lost } } .pos 1) := by
  cases validity : s.ptr.validity with
  | valid =>
    rw [← loseValidity_counted held validity uncrossed (k := k)]
    simp only [doubleTerminal, bumpHealth_uncrossed uncrossed, show (s.counted .pos 1).ptr.validity = .valid from validity]
  | lost =>
    have same : { s with ptr := { s.ptr with validity := .lost } } = s := by rw [← validity]
    rw [same]
    simp only [doubleTerminal, bumpHealth_uncrossed uncrossed, show (s.counted .pos 1).ptr.validity = .lost from validity,
      positionReport]
    rfl

/-- Homing at a terminal without a stop: the position and its report (R19, R36). -/
theorem homeAt_unstopped {p : LineFields} {sw : LineEnd} {s : State}
    (no_stop : s.stops.find? (fun r => r.pos == sw.target p) = none) :
    homeAt p sw s = post (switchReport .homed s.ptr.x (sw.target p) .valid sw) { s with ptr := s.ptr.placed p (sw.target p) .valid } := by
  have nothing : homeAt p sw s = setPosition p (sw.target p) .valid .homed sw s :=
    homedWhileHeld_unstopped (by rw [setPosition_eq, post_stops]; exact no_stop)
  rw [nothing, setPosition_eq]

section
variable {s : State} {p : LineFields} {upper : Bool}

/-- The reading of a terminal switch at the latest sample. -/
abbrev State.wasAt (s : State) (upper : Bool) : Bool := if upper then s.ptr.upper else s.ptr.lower

/-- The target of a terminal switch, as a position (R19). -/
abbrev terminalPosition (p : LineFields) (upper : Bool) : Int := (LineEnd.ofUpper upper).target p

/-- A switch that did not read active before has become active (R19). -/
theorem became_of_new {prev : Switches} (new : (if upper then prev.upper else prev.lower) = false) :
    (!(if upper then prev.upper else prev.lower) || prev.lower && prev.upper) = true := by rw [new]; rfl

/-- Homing of a line at rest at a terminal without a stop (R19, R36). -/
theorem State.Resting.homes (rest : s.Resting p) (class_ : (s.sampled p (.terminal (!upper) upper)).beyond = false)
    (at_rest : (s.sampled p (.terminal (!upper) upper)).standstill = true)
    (event : s.wasAt upper = false ∨ s.ptr.standstill = false)
    (placeable : s.ptr.validity = .lost ∨ ((s.sampled p (.terminal (!upper) upper)).x - terminalPosition p upper).natAbs ≤ p.wCorr)
    (no_stop : s.stops.find? (fun r => r.pos == (LineEnd.ofUpper upper).target p) = none) :
    exec (.positionSample (!upper) upper false false) s = .next (post
      (switchReport .homed (s.sampled p (.terminal (!upper) upper)).x (terminalPosition p upper) .valid (.ofUpper upper))
      (s.keeping ((s.sampled p (.terminal (!upper) upper)).placed p (terminalPosition p upper) .valid))) := by
  have happened : ((!(if upper then s.ptr.switches.upper else s.ptr.switches.lower) || s.ptr.switches.lower && s.ptr.switches.upper) ||
      ((s.sampled p (.terminal (!upper) upper)).standstill && !s.ptr.standstill)) = true := by
    rcases event with new | stilled
    · rw [became_of_new new]; rfl
    · rw [at_rest, stilled, Bool.or_eq_true]; exact .inr rfl
  rw [post_eq_taking]
  refine rest.sample class_ ?_ rfl
  rw [terminalSwitches_one, oneSwitch_homes at_rest happened placeable, homeAt_unstopped (by exact no_stop), post_eq_taking]
  rfl

/-- A switch that becomes active while the cars run sets a plausible position (R19). -/
theorem State.Resting.places (rest : s.Resting p) (class_ : (s.sampled p (.terminal (!upper) upper)).beyond = false)
    (new : s.wasAt upper = false) (runs : (s.sampled p (.terminal (!upper) upper)).standstill = false)
    (plausible : s.ptr.validity = .valid →
      ((s.sampled p (.terminal (!upper) upper)).x - terminalPosition p upper).natAbs ≤ p.wCorr) :
    exec (.positionSample (!upper) upper false false) s = .next (post
      (switchReport .switch (s.sampled p (.terminal (!upper) upper)).x (terminalPosition p upper) s.ptr.validity (.ofUpper upper))
      (s.keeping ((s.sampled p (.terminal (!upper) upper)).placed p (terminalPosition p upper) s.ptr.validity))) := by
  rw [post_eq_taking]
  refine rest.sample class_ ?_ rfl
  rw [terminalSwitches_one, oneSwitch_places runs (became_of_new new) plausible, setPosition_eq, post_eq_taking]
  rfl

/-- A switch that becomes active far from a valid position is counted and loses the position (R18, R19). -/
theorem State.Resting.strays (rest : s.Resting p) (class_ : (s.sampled p (.terminal (!upper) upper)).beyond = false)
    (new : s.wasAt upper = false) (valid : s.ptr.validity = .valid)
    (far : ¬((s.sampled p (.terminal (!upper) upper)).x - terminalPosition p upper).natAbs ≤ p.wCorr) (uncrossed : s.uncrossed .pos 1) :
    exec (.positionSample (!upper) upper false false) s = .next (post
      (lossReport .switchFar (s.sampled p (.terminal (!upper) upper)).x none (some (.ofUpper upper)))
      (State.counted (s.keeping { s.sampled p (.terminal (!upper) upper) with validity := .lost }) .pos 1)) := by
  rw [post_eq_taking]
  refine rest.sample class_ ?_ rfl
  rw [terminalSwitches_one, oneSwitch_far (became_of_new new) (by exact valid) (by exact far),
    loseValidity_counted (by exact rest.held) (by exact valid) (by exact uncrossed), post_eq_taking]
  rfl

/-- Both terminal switches active at once are counted and leave no valid position (R18, R19). -/
theorem State.Resting.doubles (rest : s.Resting p) (class_ : (s.sampled p (.terminal true true)).beyond = false)
    (new : (s.ptr.lower && s.ptr.upper) = false) (uncrossed : s.uncrossed .pos 1) :
    exec (.positionSample true true false false) s = .next (post
      (lossReport .doubleTerminal (s.sampled p (.terminal true true)).x none none)
      (State.counted (s.keeping { s.sampled p (.terminal true true) with validity := .lost }) .pos 1)) := by
  rw [post_eq_taking]
  refine rest.sample class_ ?_ rfl
  have both : terminalSwitches cascade p s.ptr.switches (.terminal true true) false
      ((s.sampled p (.terminal true true)).standstill && !s.ptr.standstill)
      { s with overrun := false, ptr := s.sampled p (.terminal true true) } =
      doubleTerminal cascade { s with overrun := false, ptr := s.sampled p (.terminal true true) } := by
    simp only [terminalSwitches, Switches.terminal, show (s.ptr.switches.lower && s.ptr.switches.upper) = false from new,
      Bool.false_eq_true, if_false]
  rw [both]
  rw [doubleTerminal_held (by exact rest.held) (by exact uncrossed), post_eq_taking]
  rfl

/-- The cross-check of a line at rest that has left its tolerance: it is counted, and beyond four times the tolerance a valid
position is lost (R13, R18). -/
theorem crossCheck_held {k : Hand} {was : Bool} (within : was = false) (held : s.hac.state = .held) (beyond : s.ptr.beyond = true)
    (uncrossed : s.uncrossed .pos 1) : crossCheck k p was s =
      if 4 * p.tEnc < (s.ptr.x - s.ptr.xc).natAbs ∧ s.ptr.validity = .valid then
        post (lossReport .diverged s.ptr.x none none) (State.counted { s with ptr := { s.ptr with validity := .lost } } .pos 1)
      else s.counted .pos 1 := by
  subst within
  unfold crossCheck
  dsimp only
  rw [if_pos (show (s.ptr.beyond && !false) = true by rw [beyond]; rfl)]
  by_cases far : 4 * p.tEnc < (s.ptr.x - s.ptr.xc).natAbs
  · by_cases valid : s.ptr.validity = .valid
    · rw [if_pos far, if_pos ⟨far, valid⟩, loseValidity_counted held valid uncrossed]
    · rw [if_pos far, if_neg (fun both => valid both.2), bumpHealth_uncrossed uncrossed, loseValidity_held (by exact held),
        if_neg (by exact valid)]
  · rw [if_neg far, if_neg (fun both => far both.1), bumpHealth_uncrossed uncrossed]

/-- A sample with open switches whose cross-check leaves the tracker t, the mode's record l and the link r. -/
theorem State.Resting.sample_checked (rest : s.Resting p) {t : Tracker} {l : LineMode} {r : Link}
    (checked : crossCheck cascade p s.ptr.wasBeyond (State.located { s with overrun := false } p (.terminal false false)) =
      { s with overrun := false, ptr := t, lmu := l, slp := r })
    (mode : l.mode = s.lmu.mode) :
    exec (.positionSample false false false false) s = .next { s.keeping (t.gauge p) with lmu := l, slp := r } := by
  have sampled := sample_loaded (k := cascade) (s := { s with overrun := false }) (w := .terminal false false) rest.loaded checked rfl
  rw [terminalSwitches_open rfl rfl, overtravelSwitches_open rfl rfl] at sampled
  have completed := onSample_resting (t := travelOf s.ptr (s.ptr.terms p))
    (s := { s with overrun := false, ptr := t.gauge p, lmu := l, slp := r })
    (by rw [mode]; exact rest.mode) rest.held rest.no_stop rest.no_test
  exact exec_positionSample rest.running (sampled.trans completed) rfl

/-- A sample of a line at rest that leaves the cross-check's tolerance (R13). -/
theorem State.Resting.diverges (rest : s.Resting p)
    (beyond : p.tEnc < ((s.sampled p (.terminal false false)).x - (s.sampled p (.terminal false false)).xc).natAbs)
    (within : s.ptr.beyond = false) (uncrossed : s.uncrossed .pos 1) :
    exec (.positionSample false false false false) s = .next (
      if 4 * p.tEnc < ((s.sampled p (.terminal false false)).x - (s.sampled p (.terminal false false)).xc).natAbs ∧
          s.ptr.validity = .valid then
        post (lossReport .diverged (s.sampled p (.terminal false false)).x none none)
          (State.counted (s.keeping { s.sampled p (.terminal false false) with validity := .lost }) .pos 1)
      else State.counted (s.keeping (s.sampled p (.terminal false false))) .pos 1) := by
  have was_within : s.ptr.wasBeyond = false := by simp only [Tracker.wasBeyond, rest.ordinary, within]
  have checked := crossCheck_held (k := cascade) (p := p) (s := State.located { s with overrun := false } p (.terminal false false))
    was_within rest.held (decide_eq_true beyond) uncrossed
  split
  · rename_i far
    rw [post_eq_taking]
    exact rest.sample_checked (checked.trans ((if_pos far).trans (post_eq_taking _ _))) rfl
  · rename_i near
    exact rest.sample_checked (checked.trans (if_neg near)) rfl

end

end Sys2Proof.Machine
end

section
/-! SUPPORT. The accepted frame that follows in sequence, marker passages, and the BRAKE stop of a trip under way. -/

namespace Sys2Proof.Machine

/-! ## An accepted frame that follows in sequence (R91, R93, R95, R106) -/

section
variable {k : Hand} {c : Car} {x : CarStatus} {bytes : List Byte} {s : State}

/-- A frame that follows the last one in sequence leaves no gap, and is no duplicate of it (R91, R95). -/
theorem nextFrame_sequence (next : s.nextFrame c bytes x) : gapCount (s.car c) x.seq = 0 ∧ (s.car c).lastSeq ≠ some x.seq := by
  obtain ⟨-, -, fresh, sequence, -⟩ := next
  obtain ⟨last, seq, follows⟩ := (Option.any_eq_true _ _).1 sequence
  obtain ⟨bound, e⟩ := of_decide_eq_true follows
  constructor
  · simp only [gapCount, seq, fresh]
    have no_gap : (x.seq + 256 - last % 256 - 1) % 256 = 0 := by omega
    rw [no_gap]
    simp
  · rw [seq, e]
    intro same
    have := Option.some.inj same
    omega

/-- A change to the freshness that a car has already is none (R94). -/
theorem freshnessNow_same {f : Freshness} (same : (s.car c).freshness = f) : freshnessNow k c f s = s := by
  simp only [freshnessNow, same, beq_self_eq_true, if_true]

/-- Sides that are SECURED and shown locked stay as they are (R106). -/
theorem judgeFrame_proven (proven : s.provenBy c x) : judgeFrame k c x s = s :=
  forEach_fixed (fun d _ => by simp only [judgeSide, judgeSecured, (proven d).1, (proven d).2])

/-- A frame without an alarm latches none (R98). -/
theorem watchAlarm_none (no_alarm : x.alarm = false) : watchAlarm k c x s = s := by
  simp only [watchAlarm, no_alarm, Bool.false_and, Bool.false_eq_true, if_false]

/-- A crew key and a rail brake that stand as they were are not reported (R97). -/
theorem watchCrew_same {prev : Option CarStatus} (same : prev.any (fun b => x.crewKey == b.crewKey && x.rail == b.rail) = true) :
    watchCrew c prev x s = s := by
  obtain ⟨b, rfl, alike⟩ := (Option.any_eq_true _ _).1 same
  simp only [Bool.and_eq_true, beq_iff_eq] at alike
  simp [watchCrew, alike]

/-- The record of a car whose frame has been accepted and not yet answered (R93). -/
abbrev CarRec.accepting (r : CarRec) (x : CarStatus) : CarRec :=
  { r with lastSeq := some x.seq, discards := 0, status := some x, since := some 0, accepted := satCount r.accepted 1 }

/-- An accepted frame that follows in sequence, proves its sides and carries no alarm does what its marker passage does, and is
answered (R92, R93). -/
theorem acceptStatus_next {m : State} (next : s.nextFrame c bytes x) (proven : s.provenBy c x) (no_alarm : x.alarm = false)
    (fresh_kept : ∀ u : State, (u.car c).freshness = .fresh → k (.freshness c .fresh) u = u)
    (marked : markerHandOver k c x.marker .fresh s = m) (cars : m.clu = s.clu) (doors : m.dru = s.dru) :
    acceptStatus k c x s = m.answered c x := by
  obtain ⟨no_gap, -⟩ := nextFrame_sequence next
  obtain ⟨runs, -, fresh, -, same⟩ := next
  have car : m.car c = s.car c := congrArg (fun l => l.recs.get c) cars
  have proven_m : ∀ r, (m.setCar c r).provenBy c x := fun r d =>
    ⟨(congrArg (fun l => ((l.sides.get c).get d).state) doors).trans (proven d).1, (proven d).2⟩
  have handed : markerHandOver k c x.marker (s.car c).freshness s = m := by rw [fresh]; exact marked
  unfold acceptStatus
  dsimp only
  rw [handed, no_gap, if_pos rfl, car, fresh_kept _ (by rw [car_setCar]; exact fresh), judgeFrame_proven (proven_m _),
    watchAlarm_none no_alarm, watchCrew_same same]
  have running : ((m.setCar c ((s.car c).accepting x)).car c).running = true := by rw [car_setCar]; exact runs
  rw [sendCommand, if_pos running, car_setCar, State.answered, car]
  cases c <;> rfl

/-- The frame as a command: what its marker passage does, and the answer. -/
theorem exec_carStatusFrame_next {m : State} (running : s.isRunning) (next : s.nextFrame c bytes x) (proven : s.provenBy c x)
    (no_alarm : x.alarm = false) (marked : markerHandOver cascade c x.marker .fresh { s with overrun := false } = m)
    (cars : m.clu = s.clu) (doors : m.dru = s.dru) (clear : m.overrun = false) :
    exec (.carStatusFrame c bytes) s = .next (m.answered c x) := by
  have received : receiveStatus cascade c (statusOf? c bytes) { s with overrun := false } = m.answered c x := by
    obtain ⟨-, distinct⟩ := nextFrame_sequence next
    have accepted := acceptStatus_next (s := { s with overrun := false }) next proven no_alarm
      (fun u fresh => freshnessNow_same fresh) marked cars doors
    obtain ⟨runs, reads, -⟩ := next
    simp only [receiveStatus, reads]
    rw [if_pos (by exact runs), if_neg (by exact distinct), accepted]
  exact (whileRunning_next (f := receiveStatus cascade c (statusOf? c bytes)) running (by rw [received]; exact clear)).trans
    (congrArg _ received)

end

/-! ## Marker passages (R16, R17) -/

section
variable {k : Hand} {p : LineFields} {c : Car} {id : Nat} {s : State}

/-- The state once the passage number of a frame is kept (R16). -/
def State.passed (s : State) (c : Car) (f : MarkerField) : State :=
  { s with ptr := { s.ptr with lastPassage := s.ptr.lastPassage.set c (some f.passage) } }

/-- A passage number that is the first of its car, that repeats the last one, or that comes before the parameters are loaded, is kept
and nothing else (R16). -/
theorem markerHandOver_kept {f : MarkerField} {before : Freshness}
    (no_passage : s.ptr.lastPassage.get c = none ∨ s.ptr.lastPassage.get c = some f.passage ∨ s.line = none) :
    markerHandOver k c (some f) before s = s.passed c f := by
  unfold markerHandOver
  dsimp only
  cases last : s.ptr.lastPassage.get c with
  | none => rfl
  | some n =>
    dsimp only
    split
    · rfl
    · rename_i new
      rcases no_passage with first | repeated | unloaded
      · exact nomatch last.symm.trans first
      · exact absurd (Option.some.inj (last.symm.trans repeated)) new
      · split
        · rfl
        · rename_i p loaded
          exact nomatch unloaded.symm.trans loaded

/-- A new passage number at a FRESH car of a configured line is taken for correction (R16, R17). -/
theorem markerHandOver_new {f : MarkerField} {n : Nat} (last : s.ptr.lastPassage.get c = some n) (new : n ≠ f.passage)
    (loaded : s.line = some p) : markerHandOver k c (some f) .fresh s = correctAt k p c f.id (s.passed c f) := by
  simp only [markerHandOver, last, if_neg new, loaded, beq_self_eq_true, if_true, State.passed]

/-- A marker that no record names is counted (R17). -/
theorem correctAt_unknown (unknown : ∀ m ∈ s.markers, ¬(m.id = id ∧ m.car = c)) (uncrossed : s.uncrossed .pos 1) :
    correctAt k p c id s = s.counted .pos 1 := by
  have absent : s.markers.find? (fun r => r.id == id && r.car == c) = none := by
    simpa [List.find?_eq_none] using unknown
  simp only [correctAt, absent, bumpHealth_uncrossed uncrossed]

variable {m : Marker} (found : s.markers.find? (fun r => r.id == id && r.car == c) = some m)
include found

/-- An error within W_quiet shifts the offsets (R17). -/
theorem correctAt_quiet (quiet : ((m.pos : Int) - s.ptr.x).natAbs ≤ p.wQuiet) :
    correctAt k p c id s = shiftOffsets p.u0 ((m.pos : Int) - s.ptr.x) s := by
  simp only [correctAt, found, if_pos quiet]

/-- An error beyond W_quiet and within W_corr shifts the offsets, is reported and counted (R17). -/
theorem correctAt_corrects (loud : p.wQuiet < ((m.pos : Int) - s.ptr.x).natAbs) (within : ((m.pos : Int) - s.ptr.x).natAbs ≤ p.wCorr)
    (uncrossed : s.uncrossed .pos 1) :
    correctAt k p c id s = State.counted (positionReport .marker s.ptr.x (s.ptr.x + ((m.pos : Int) - s.ptr.x)) (some id) none
      (shiftOffsets p.u0 ((m.pos : Int) - s.ptr.x) s)) .pos 1 := by
  have uncrossed_after : State.uncrossed (positionReport .marker s.ptr.x (s.ptr.x + ((m.pos : Int) - s.ptr.x)) (some id) none
      (shiftOffsets p.u0 ((m.pos : Int) - s.ptr.x) s)) .pos 1 := by
    rw [State.uncrossed, positionReport, post_lmu]
    exact uncrossed
  simp only [correctAt, found, if_neg (Nat.not_le.2 loud), if_pos within]
  exact bumpHealth_uncrossed uncrossed_after

/-- An error beyond both is counted and loses a valid position (R17, R18). -/
theorem correctAt_far (loud : p.wQuiet < ((m.pos : Int) - s.ptr.x).natAbs) (far : p.wCorr < ((m.pos : Int) - s.ptr.x).natAbs) :
    correctAt k p c id s = loseValidity k .markerFar (some id) none (bumpHealth k .pos 1 s) := by
  simp only [correctAt, found, if_neg (Nat.not_le.2 loud), if_neg (Nat.not_le.2 far)]

end

/-- A position already LOST is not lost again (R18). -/
theorem loseValidity_lost {k : Hand} {cause : PositionCause} {marker : Option Nat} {sw : Option LineEnd} {s : State}
    (lost : s.ptr.validity = .lost) : loseValidity k cause marker sw s = s := by
  simp only [loseValidity, lost]

/-- A loss of validity while moving: its report and the BRAKE stop (R18). -/
theorem loseValidity_moving {k : Hand} {cause : PositionCause} {marker : Option Nat} {sw : Option LineEnd} {s : State}
    (moves : s.hac.state ≠ .held) (valid : s.ptr.validity = .valid) : loseValidity k cause marker sw s =
      k (.orderStop .brake .position)
        (post (lossReport cause s.ptr.x marker sw) { s with ptr := { s.ptr with validity := .lost } }) := by
  have moving : (post (lossReport cause s.ptr.x marker sw) { s with ptr := { s.ptr with validity := .lost } }).moving = true := by
    rw [State.moving, post_hac]
    exact bne_iff_ne.2 moves
  simp only [loseValidity, valid, positionReport]
  exact if_pos moving

/-! ## A BRAKE stop of a trip under way (R39, R74, R76, R77) -/

/-- A BRAKE stop on a line whose cars run, with no test and not WARMING: the record with its deceleration check, STOPPING with the
reference 0, and SB commanded APPLY. -/
theorem brake_taken {n : Nat} {cause : StopCause} {p : LineFields} {s : State} (loaded : s.line = some p)
    (trip : s.hac.state ≠ .held ∧ s.hac.state ≠ .stopping ∧ s.hac.state ≠ .releasing) (empty : s.bsq.stop = none)
    (no_test : s.bsq.test = none) (runs : s.ptr.standstill = false) (not_warming : s.lmu.mode ≠ .warming) :
    ∃ h o r q, run (n + 3) (.orderStop .brake cause) s = { s with
        hac := h, osp := o, slp := q
        bsq := { s.bsq with
          recs := s.bsq.recs.set .sb r
          stop := some { kind := .brake, cause := cause, x := s.ptr.x, vMeas := s.ptr.vMeas
                         check := .running (some p.tCheck) } } } ∧
      h.state = .stopping ∧ h.vRef = 0 ∧ r.cmd = .apply := by
  obtain ⟨not_held, not_stopping, not_releasing⟩ := trip
  have check : s.firstCheck .brake = .running (some p.tCheck) := by
    simp [State.firstCheck, State.isHeld, State.bound, runs, loaded, not_held, not_releasing]
  have order : run (n + 3) (.orderStop .brake cause) s = _ :=
    orderStopNow_taken (k := run (n + 2)) (kind := .brake) empty (abortTestNow_none no_test)
  obtain ⟨h, o, haulage, -, stopping, reference⟩ := haulageOnStop_hard (kind := .brake) (by decide)
    (s := { s with bsq := { s.bsq with
      stop := some { kind := .brake, cause := cause, x := s.ptr.x, vMeas := s.ptr.vMeas, check := .running (some p.tCheck) } } })
  dsimp only at order
  rw [check, haulage, post_eq_taking] at order
  generalize Link.taking _ _ = q at order
  let r := (s.brake .sb).commanded .apply (s.reading .sb) (s.respBound .sb)
  have still := brakesChangedNow_still (k := run (n + 1)) (s := { s with
    hac := h, osp := o, slp := q
    bsq := { s.bsq with
      recs := s.bsq.recs.set .sb r
      stop := some { kind := .brake, cause := cause, x := s.ptr.x, vMeas := s.ptr.vMeas, check := .running (some p.tCheck) } } })
    (by rw [stopping not_held]; decide) (by rw [stopping not_held]; decide) (settleNow_running runs) no_test not_warming
  have ended := (congrArg (run (n + 2) .settle) (handOverBrakes_still (before := s.brakeStates) (k := run (n + 2)) still)).trans
    (settleNow_running runs)
  exact ⟨h, o, r, q, order.trans ended, stopping not_held, reference not_held not_stopping, commanded_cmd _ _ _ _⟩

end Sys2Proof.Machine
end

section
/-! SUPPORT. The events of the Position Tracker together. -/

namespace Sys2Proof.Machine

/-! ## The events of the Position Tracker -/

section
variable {s : State} {c : Car} {bytes : List Byte} {x : CarStatus} {f : MarkerField}

/-- A frame with a marker passage ends as the handing over of its passage does, with the answer. -/
theorem exec_carStatusFrame_passage (running : s.isRunning) (next : s.nextFrame c bytes x) (proven : s.provenBy c x)
    (no_alarm : x.alarm = false) (marker : x.marker = some f) {m : State}
    (marked : markerHandOver cascade c (some f) .fresh { s with overrun := false } = m)
    (cars : m.clu = s.clu) (doors : m.dru = s.dru) (clear : m.overrun = false) :
    exec (.carStatusFrame c bytes) s = .next (m.answered c x) :=
  exec_carStatusFrame_next running next proven no_alarm (by rw [marker]; exact marked) cars doors clear

/-- A passage far from a valid position under way loses the position and orders the BRAKE stop (R17, R18). -/
theorem passage_brakes {n : Nat} {p : LineFields} {m : Marker} (running : s.isRunning) (next : s.nextFrame c bytes x)
    (proven : s.provenBy c x) (no_alarm : x.alarm = false) (marker : x.marker = some f) (last : s.ptr.lastPassage.get c = some n)
    (new : n ≠ f.passage) (loaded : s.line = some p) (uncrossed : s.uncrossed .pos 1)
    (found : s.markers.find? (fun m => m.id == f.id && m.car == c) = some m)
    (loud : p.wQuiet < ((m.pos : Int) - s.ptr.x).natAbs) (far : p.wCorr < ((m.pos : Int) - s.ptr.x).natAbs)
    (valid : s.ptr.validity = .valid) (trip : s.hac.state.drives = true ∨ s.hac.state = .berthing) (empty : s.bsq.stop = none)
    (no_test : s.bsq.test = none) (runs : s.ptr.standstill = false) (not_warming : s.lmu.mode ≠ .warming) :
    ∃ t, exec (.carStatusFrame c bytes) s = .next t ∧
      t.ptr = { s.ptr with lastPassage := s.ptr.lastPassage.set c (some f.passage), validity := .lost } ∧
      t.bsq.stop = some { kind := .brake, cause := .position, x := s.ptr.x, vMeas := s.ptr.vMeas
                          check := .running (some p.tCheck) } ∧
      (t.brake .sb).cmd = .apply ∧ t.brake .eb = s.brake .eb ∧ t.hac.state = .stopping ∧ t.hac.vRef = 0 ∧
      t.clu = (s.answered c x).clu ∧ t.lmu = (s.counted .pos 1).lmu ∧ t.dru = s.dru ∧ t.glm = s.glm ∧ t.ptb = s.ptb ∧
      t.tally = s.tally := by
  have under_way : s.hac.state ≠ .held ∧ s.hac.state ≠ .stopping ∧ s.hac.state ≠ .releasing := by
    rcases trip with drives | berthing
    · cases state : s.hac.state <;> simp_all [HState.drives]
    · rw [berthing]; decide
  let seen := State.passed { s with overrun := false } c f
  have lost : correctAt cascade p c f.id seen = _ :=
    (correctAt_far (k := cascade) (s := seen) found loud far).trans ((congrArg _ (bumpHealth_uncrossed (by exact uncrossed))).trans
      (loseValidity_moving (by exact under_way.1) valid))
  rw [post_eq_taking] at lost
  obtain ⟨h, o, r, q, taken, stopping, reference, applied⟩ := brake_taken (n := 61) (cause := .position) (p := p)
    (s := { seen.counted .pos 1 with
      ptr := { seen.ptr with validity := .lost }
      slp := s.slp.taking (lossReport .markerFar s.ptr.x (some f.id) none) }) loaded under_way empty no_test runs not_warming
  have marked := (markerHandOver_new (k := cascade) (s := { s with overrun := false }) last new loaded).trans (lost.trans taken)
  refine ⟨_, exec_carStatusFrame_passage running next proven no_alarm marker marked rfl rfl rfl, ?_⟩
  have service : (PerBrake.set s.bsq.recs .sb r).get .sb = r := PerBrake.get_set _ _ _
  exact ⟨rfl, rfl, (congrArg BrakeRec.cmd service).trans applied, rfl, stopping, reference, rfl, rfl, rfl, rfl, rfl, rfl⟩

end

/-- Settles O23: each event at the state it meets; the overtravel switches and the moving passage through the stop they order, the
others through the position that they set, count or lose. -/
theorem positionEventsAct : Obligations.PositionEventsAct := by
  refine ⟨fun s lower upper running unloaded plain empty was_lower was_upper => ?_,
    fun s p low samples plain was_lower was_upper class_ => overtravel_loaded low samples plain was_lower was_upper class_,
    fun s p running loaded mode held no_stop no_test ordinary => ?_, fun s c bytes x f running next proven no_alarm marker => ?_⟩
  · exact ⟨overtravel_unloaded true running unloaded plain empty was_lower was_upper,
      overtravel_unloaded false running unloaded plain empty was_lower was_upper⟩
  · have rest : s.Resting p := ⟨running, loaded, mode, held, no_stop, no_test, ordinary⟩
    refine ⟨fun upper => ?_, fun class_ new uncrossed => rest.doubles class_ new uncrossed, fun beyond within uncrossed => ?_⟩
    · rw [← LineEnd.target_ofUpper p upper]
      intro sw target q near placed next before class_
      refine ⟨fun at_rest event placeable no_stop => rest.homes class_ at_rest event placeable no_stop,
        fun new runs lost => ?_, fun new runs valid near => ?_,
        fun new valid far uncrossed => rest.strays class_ new valid far uncrossed⟩
      · have placed := rest.places class_ new runs (fun valid => nomatch lost.symm.trans valid)
        rw [lost] at placed
        exact placed
      · have placed := rest.places class_ new runs (fun _ => near)
        rw [valid] at placed
        exact placed
    · have diverges := rest.diverges beyond within uncrossed
      exact ⟨fun kept => diverges.trans (congrArg _ (if_neg kept)), fun lost => diverges.trans (congrArg _ (if_pos lost))⟩
  · have ends := @exec_carStatusFrame_passage s c bytes x f running next proven no_alarm marker
    refine ⟨fun no_passage => ends (markerHandOver_kept no_passage) rfl rfl rfl, fun n p last new loaded uncrossed => ?_⟩
    have corrects := markerHandOver_new (k := cascade) (s := { s with overrun := false }) last new loaded
    refine ⟨fun unknown => ends (corrects.trans (correctAt_unknown unknown uncrossed)) rfl rfl rfl, fun m found => ?_⟩
    have strays := fun loud far => correctAt_far (k := cascade) (p := p) (s := State.passed { s with overrun := false } c f) found loud far
    refine ⟨fun quiet => ends (corrects.trans (correctAt_quiet found quiet)) rfl rfl rfl, fun loud within => ?_,
      fun loud far lost => ?_, fun loud far valid held => ?_,
      fun loud far valid trip empty no_test runs not_warming => passage_brakes running next proven no_alarm marker last new loaded
        uncrossed found loud far valid trip empty no_test runs not_warming⟩
    · have corrected := corrects.trans (correctAt_corrects found loud within uncrossed)
      rw [positionReport, post_eq_taking] at corrected
      rw [post_eq_taking]
      exact ends corrected rfl rfl rfl
    · have kept := strays loud far
      rw [bumpHealth_uncrossed (by exact uncrossed), loseValidity_lost (by exact lost)] at kept
      exact ends (corrects.trans kept) rfl rfl rfl
    · have counted := (strays loud far).trans (loseValidity_counted held valid uncrossed)
      rw [post_eq_taking] at counted
      rw [post_eq_taking]
      exact ends (corrects.trans counted) rfl rfl rfl

end Sys2Proof.Machine
end

section
/-! SUPPORT. SET_MODE examined step by step. -/

namespace Sys2Proof.Machine

/-! ## The examination of SET_MODE (R167) -/

/-- The flags that SET_MODE carries with both bytes 1: read for PARKED alone (R167). -/
def Mode.flags (m : Mode) : Variant := if m = .parked then ⟨true, true⟩ else ⟨false, false⟩

/-- The fields of a SET_MODE of a known target with both flags 1. -/
theorem modeFields_named {n : Nat} {m : Mode} (named : targetOf? n = some m) : modeFields n 1 1 = .ok (m, m.flags) := by
  unfold modeFields
  rw [named]
  cases m <;> rfl

/-- Without a running test the examination begins at the mode: WARMING, the present mode, or another (R167). -/
theorem handleSetMode_named {n : Nat} {m : Mode} {s : State} (no_test : s.bsq.test = none) (named : targetOf? n = some m) :
    handleSetMode n 1 1 s =
      if s.lmu.mode = .warming then (s, refuse .busy)
      else if m = s.lmu.mode then sameMode cascade m.flags s
      else otherMode cascade m m.flags s := by
  have unaborted : cascade (.abortTest .modeRequest) s = s := abortTestNow_none (k := run 63) no_test
  simp only [handleSetMode, unaborted, examineMode, modeFields_named named, beq_iff_eq]

section
variable {tag : Byte} {n : Nat} {m : Mode} {s : State} (listens : s.listening) (no_test : s.bsq.test = none)
include listens no_test

/-- A SET_MODE of no known target is a bad field (R167). -/
theorem setMode_unknown {l p : Nat} (unknown : 5 < n) :
    exec (.setMode tag n l p) s = .next (s.heard.replied tag .setMode (.refused .badField (.field 0))) := by
  have unnamed : targetOf? n = none := by
    unfold targetOf?
    split
    case h_7 => rfl
    all_goals omega
  have unaborted : cascade (.abortTest .modeRequest) s.heard = s.heard := abortTestNow_none (k := run 63) no_test
  refine request_answers (h := handleSetMode n l p) listens ?_ rfl
  simp only [handleSetMode, unaborted, examineMode, modeFields, unnamed]
  rfl

variable (named : targetOf? n = some m)
include named

/-- A SET_MODE while WARMING is BUSY (R167). -/
theorem setMode_warming (warming : s.lmu.mode = .warming) :
    exec (.setMode tag n 1 1) s = .next (s.heard.replied tag .setMode (.refused .busy .empty)) := by
  refine request_answers (h := handleSetMode n 1 1) listens ?_ rfl
  rw [handleSetMode_named (by exact no_test) named, if_pos (by exact warming)]
  rfl

/-- A SET_MODE of the present mode, with the present variant where that is PARKED, is accepted as it is (R167). -/
theorem setMode_present (present : m = s.lmu.mode) (awake : s.lmu.mode ≠ .warming)
    (variant : s.lmu.mode = .parked → s.lmu.variant = some ⟨true, true⟩) :
    exec (.setMode tag n 1 1) s = .next (s.heard.replied tag .setMode (.accepted (.modeSet true s.lmu.mode))) := by
  refine request_answers (h := handleSetMode n 1 1) listens ?_ rfl
  rw [handleSetMode_named (by exact no_test) named, if_neg (by exact awake), if_pos (by exact present)]
  have same_variant : (s.heard.lmu.mode == .parked && s.heard.lmu.variant != some m.flags) = false := by
    by_cases parked : s.lmu.mode = .parked
    · have flags : m.flags = ⟨true, true⟩ := if_pos (present.trans parked)
      rw [flags, show s.heard.lmu.variant = s.lmu.variant from rfl, variant parked]
      exact Bool.and_false _
    · rw [show (s.heard.lmu.mode == .parked) = false from beq_eq_false_iff_ne.2 parked]
      rfl
  simp only [sameMode, same_variant, Bool.false_eq_true, if_false]
  rfl

variable (awake : s.lmu.mode ≠ .warming) (new : m ≠ s.lmu.mode)
include awake new

/-- A SET_MODE of another mode takes the further steps of R167. -/
theorem setMode_other {t : State} {a : Answer} (examined : otherMode cascade m m.flags s.heard = (t, a))
    (clear : t.overrun = false) : exec (.setMode tag n 1 1) s = .next (t.replied tag .setMode a) := by
  refine request_answers (h := handleSetMode n 1 1) listens ?_ clear
  rw [handleSetMode_named (by exact no_test) named, if_neg (by exact awake), if_neg (by exact new)]
  exact examined

/-- A change outside R168's table is WRONG_MODE. -/
theorem setMode_wrongMode (disallowed : s.modeChangeAllowed m = none) :
    exec (.setMode tag n 1 1) s = .next (s.heard.replied tag .setMode (.refused .wrongMode (.mode s.lmu.mode))) := by
  refine setMode_other listens no_test named awake new ?_ rfl
  simp only [otherMode, show s.heard.modeChangeAllowed m = none from disallowed]
  rfl

variable {c : ModeConditions} (allowed : s.modeChangeAllowed m = some c)
include allowed

/-- SERVICE over a threshold is FORCED (R175). -/
theorem setMode_forced (service : m = .service) (over_threshold : s.lmu.health.forcing.any = true) :
    exec (.setMode tag n 1 1) s = .next (s.heard.replied tag .setMode (.refused .forced (.counters s.lmu.health.forcing))) := by
  refine setMode_other listens no_test named awake new ?_ rfl
  have forced : (m == .service && s.heard.lmu.health.forcing.any) = true := by
    rw [service]
    exact over_threshold
  simp only [otherMode, show s.heard.modeChangeAllowed m = some c from allowed, forced, if_true]
  rfl

variable (unforced : m = .service → s.lmu.health.forcing.any = false)
include unforced

omit listens no_test named awake new in
/-- Past the test of FORCED the configuration is checked where the change asks for it, and then the conditions (R167). -/
theorem otherMode_unforced :
    otherMode cascade m m.flags s.heard =
      match if c.checks then s.configFault else none with
      | some check => (s.heard, .refused .configInvalid (.config check))
      | none =>
        match s.modeReasons c with
        | [] =>
          (cascade (.changeMode (entryOf s.lmu.mode m m.flags) .host none) s.heard,
            accept (.modeSet false (entryOf s.lmu.mode m m.flags).mode))
        | l => (s.heard, .refused .inhibited (.modeReasons l)) := by
  have not_forced : (m == .service && s.heard.lmu.health.forcing.any) = false := by
    by_cases service : m = .service
    · rw [show s.heard.lmu.health.forcing.any = false from unforced service, Bool.and_false]
    · rw [beq_eq_false_iff_ne.2 service, Bool.false_and]
  simp only [otherMode, show s.heard.modeChangeAllowed m = some c from allowed, not_forced, Bool.false_eq_true, if_false]
  rfl

/-- A configuration check that fails is named (R169). -/
theorem setMode_configInvalid {check : ConfigCheck} (checks : c.checks = true) (fault : s.configFault = some check) :
    exec (.setMode tag n 1 1) s = .next (s.heard.replied tag .setMode (.refused .configInvalid (.config check))) := by
  refine setMode_other listens no_test named awake new ?_ rfl
  simp only [otherMode_unforced allowed unforced, checks, if_true, fault]

variable (checked : c.checks = true → s.configFault = none)
include checked

/-- Conditions that are not met are listed (R168). -/
theorem setMode_inhibited (unmet : s.modeReasons c ≠ []) :
    exec (.setMode tag n 1 1) s = .next (s.heard.replied tag .setMode (.refused .inhibited (.modeReasons (s.modeReasons c)))) := by
  refine setMode_other listens no_test named awake new ?_ rfl
  have no_fault : (if c.checks then s.configFault else none) = none := by
    split
    · exact checked ‹_›
    · rfl
  rw [otherMode_unforced allowed unforced, no_fault]
  cases reasons : s.modeReasons c with
  | nil => exact absurd reasons unmet
  | cons r rest => rfl

/-- With every step passed the change is made, and accepted with the mode that it enters (R167). -/
theorem setMode_changes {v : State} {p : Link} (met : s.modeReasons c = [])
    (changes : cascade (.changeMode (entryOf s.lmu.mode m m.flags) .host none) s.heard = { v with slp := p })
    (clear : v.overrun = false) :
    ∃ u : State, exec (.setMode tag n 1 1) s =
        .next (u.replied tag .setMode (.accepted (.modeSet false (entryOf s.lmu.mode m m.flags).mode))) ∧ v.sameBut u := by
  refine ⟨{ v with slp := p }, setMode_other listens no_test named awake new ?_ clear, rfl⟩
  have no_fault : (if c.checks then s.configFault else none) = none := by
    split
    · exact checked ‹_›
    · rfl
  rw [otherMode_unforced allowed unforced, no_fault, met]
  dsimp only
  rw [changes]
  rfl

end

end Sys2Proof.Machine
end

section
/-! SUPPORT. A change of mode in its stages, the entry to WARMING and the entry to PARKED. -/

namespace Sys2Proof.Machine

/-! ## Brake commands that set nothing further off (R70, R72) -/

/-- The same command again changes nothing (R70). -/
theorem commandBrake_same {k : Hand} {b : BrakeId} {c : BrakeCmd} {s : State} (same : (s.brake b).cmd = c) :
    commandBrake k b c s = s := by
  have raw : rawCommand b c s = s := by
    have kept : (s.brake b).commanded c (s.reading b) (s.respBound b) = s.brake b := if_pos same
    rw [rawCommand, kept, setBrake_self]
  simp only [commandBrake, raw, handOverBrakes, if_true, ite_self]

/-- A change of brake states at rest sets nothing off, with no stop, no test and no warming complete. -/
theorem brakesChanged_resting {n : Nat} {s : State} (held : s.hac.state = .held) (no_stop : s.bsq.stop = none)
    (no_test : s.bsq.test = none) (unwarmed : s.lmu.mode ≠ .warming ∨ (s.brake .eb).state ≠ .released) :
    run (n + 2) .brakesChanged s = s := by
  refine brakesChangedNow_unwarmed (k := run (n + 1)) (by rw [held]; decide) (by rw [held]; decide)
    (settleNow_resting (k := run n) held no_stop) no_test ?_
  rcases unwarmed with elsewhere | unreleased
  · exact warmingCheck_elsewhere elsewhere
  · have not_warm : s.warm = false := by
      rw [State.warm, beq_eq_false_iff_ne.2 unreleased, Bool.false_and]
    simp only [warmingCheck, not_warm, Bool.and_false, Bool.false_eq_true, if_false]

/-- The emergency brake with a new record. -/
abbrev State.withEb (s : State) (r : BrakeRec) : State := { s with bsq := { s.bsq with recs := s.bsq.recs.set .eb r } }

section
variable {n : Nat} {s : State} (held : s.hac.state = .held) (no_stop : s.bsq.stop = none) (no_test : s.bsq.test = none)
include held no_stop no_test

/-- An EB APPLIED that is commanded RELEASE at rest lifts, with its response timer (R70). -/
theorem commandEb_lifts (latch : s.bsq.latch = none) (cmd : (s.brake .eb).cmd = .apply) (state : (s.brake .eb).state = .applied)
    (unreleased : s.reading .eb ≠ .released) : run (n + 3) (.command .eb .release) s =
      s.withEb { cmd := .release, state := .lifting, timer := s.line.map LineFields.tEbResp } := by
  have allowed : s.commandAllowed .eb .release = true := by simp only [State.commandAllowed, latch, Option.isNone_none]
  have lifted : (s.brake .eb).commanded .release (s.reading .eb) (s.respBound .eb) =
      { cmd := .release, state := .lifting, timer := s.line.map LineFields.tEbResp } := by
    simp [BrakeRec.commanded, cmd, BrakeRec.commandRelease, state, unreleased, State.respBound, State.bound]
  show commandBrake (run (n + 2)) .eb .release s = _
  rw [commandBrake, if_pos allowed, rawCommand, lifted]
  exact handOverBrakes_still (brakesChanged_resting held no_stop no_test (.inr (fun e => nomatch e)))

/-- An EB lifting or RELEASED that is commanded APPLY at rest outside WARMING sets, with its response timer (R70). -/
theorem commandEb_sets (cmd : (s.brake .eb).cmd = .release)
    (state : (s.brake .eb).state = .lifting ∨ (s.brake .eb).state = .released) (unapplied : s.reading .eb ≠ .applied)
    (not_warming : s.lmu.mode ≠ .warming) : run (n + 3) (.command .eb .apply) s =
      s.withEb { cmd := .apply, state := .setting, timer := s.line.map LineFields.tEbResp } := by
  have set : (s.brake .eb).commanded .apply (s.reading .eb) (s.respBound .eb) =
      { cmd := .apply, state := .setting, timer := s.line.map LineFields.tEbResp } := by
    rcases state with lifting | released
    · simp [BrakeRec.commanded, cmd, BrakeRec.commandApply, lifting, unapplied, State.respBound, State.bound]
    · simp [BrakeRec.commanded, cmd, BrakeRec.commandApply, released, unapplied, State.respBound, State.bound]
  show commandBrake (run (n + 2)) .eb .apply s = _
  rw [commandBrake, if_pos (by rfl), rawCommand, set]
  exact handOverBrakes_still (brakesChanged_resting held no_stop no_test (.inl not_warming))

end

/-! ## Doors, windows, links and loop at a change of mode -/

/-- A change that closes no door and seals no window. -/
theorem closeOnMode_keeps {k : Hand} {old new : Mode} {s : State} (closes : closesDoors old new = false)
    (seals : new.sealsWindows = false ∨ s.noneOpen) : closeOnMode k old new s = s := by
  rw [closeOnMode, if_neg (by rw [closes]; decide)]
  rcases seals with no_seal | none_open
  · rw [if_neg (by rw [no_seal]; decide)]
  · rw [sealAll_none none_open, ite_self]

/-- Both links run, and the gate loop (R96, R147). -/
abbrev State.awake (s : State) : Prop := s.glm.running = true ∧ ∀ c, (s.car c).running = true

theorem startLinks_running {s : State} (runs : ∀ c, (s.car c).running = true) : startLinks s = s :=
  forEach_fixed (fun c _ => if_pos (runs c))

theorem startLoop_running {s : State} (runs : s.glm.running = true) : startLoop s = s := if_pos runs

/-- The variant that keeps both follows what runs already (R170). -/
theorem followVariant_both {k : Hand} {s : State} (awake : s.awake) : followVariant k ⟨true, true⟩ s = s := by
  simp only [followVariant, if_true, startLinks_running awake.2, startLoop_running awake.1]

/-! ## A change of mode in its stages (R165) -/

/-- A change of mode as far as its report: the mode entered, and the supervision timer suspended or resumed (R165, R178). -/
def State.entering (s : State) (e : ModeEntry) (cause : ModeCause) (unmet : Option WarmUnmet) : State :=
  modeReport .change s.lmu.mode (some cause) unmet (suspendOrResume s.lmu.isQuiet { s with lmu := s.lmu.enter e })

/-- The Line Mode Unit at a change of mode from one that was not quiet: a quiet entry suspends a running supervision timer
(R178). -/
def LineMode.entered (l : LineMode) (e : ModeEntry) : LineMode :=
  match (l.enter e).isQuiet, l.supTimer with
  | true, .running _ => { l.enter e with supTimer := .stopped, suspended := true }
  | _, _ => l.enter e

/-- A change from a mode that was not quiet enters its mode and changes nothing else but the link. -/
theorem entering_eq {s : State} {e : ModeEntry} {cause : ModeCause} {unmet : Option WarmUnmet} (was_loud : s.lmu.isQuiet = false) :
    ∃ p, s.entering e cause unmet = { s with lmu := s.lmu.entered e, slp := p } := by
  have followed : suspendOrResume s.lmu.isQuiet { s with lmu := s.lmu.enter e } = { s with lmu := s.lmu.entered e } := by
    rw [was_loud]
    unfold suspendOrResume LineMode.entered
    dsimp only
    cases quiet : (s.lmu.enter e).isQuiet
    · rfl
    · cases timer : s.lmu.supTimer <;>
        simp only [show (s.lmu.enter e).supTimer = s.lmu.supTimer from rfl, timer, Bool.not_false, Bool.and_self, if_true]
  rw [State.entering, followed, modeReport, post_eq_taking]
  exact ⟨_, rfl⟩

/-- An entry that is not quiet leaves the supervision timer alone. -/
theorem entered_loud {l : LineMode} {e : ModeEntry} (loud : (l.enter e).isQuiet = false) : l.entered e = l.enter e := by
  rw [LineMode.entered, loud]

/-- A change of mode after its report: the entry to PARKED, the windows and the doors, the links and the loop, the entry to
WARMING (R165). -/
theorem changeModeNow_stages (k : Hand) (e : ModeEntry) (cause : ModeCause) (unmet : Option WarmUnmet) (s : State) :
    changeModeNow k e cause unmet s =
      let parked (u : State) : State :=
        if e.mode == .parked then k (.command .eb .apply) (k (.command .sb .apply) (supervisorPark u)) else u
      let warmed (u : State) : State := if e.mode == .warming then enterWarming k u else u
      warmed (linksOnMode k s.lmu.mode e (closeOnMode k s.lmu.mode e.mode (parked (s.entering e cause unmet)))) := rfl

/-! ## Entry to WARMING (R171) -/

/-- A SET_MODE change out of INIT or PARKED on a line at rest: WARMING with its target and its timer, and EB lifting. -/
theorem changeMode_warms {n : Nat} {s : State} {w : Option WarmTarget} {cause : ModeCause} {unmet : Option WarmUnmet}
    (from_rest : (s.lmu.mode = .init ∧ s.lmu.variant = none) ∨ (s.lmu.mode = .parked ∧ s.lmu.variant = some ⟨true, true⟩))
    (awake : s.awake) (held : s.hac.state = .held) (no_stop : s.bsq.stop = none) (no_test : s.bsq.test = none)
    (latch : s.bsq.latch = none) (cmd : (s.brake .eb).cmd = .apply) (state : (s.brake .eb).state = .applied)
    (unreleased : s.reading .eb ≠ .released) :
    ∃ p, run (n + 4) (.changeMode { mode := .warming, variant := none, target := w } cause unmet) s =
      State.withEb { s with
        lmu := { s.lmu with
          mode := .warming, variant := none, target := w, warmBack := ⟨true, true⟩
          warmTimer := s.line.map (fun f => f.tWarm * 1000) }
        slp := p } { cmd := .release, state := .lifting, timer := s.line.map LineFields.tEbResp } := by
  have was_loud : s.lmu.isQuiet = false := by
    rcases from_rest with ⟨mode, -⟩ | ⟨-, variant⟩
    · simp [LineMode.isQuiet, mode]
    · simp [LineMode.isQuiet, variant, Variant.quiet]
  have back : s.lmu.variant.getD ⟨true, true⟩ = ⟨true, true⟩ := by
    rcases from_rest with ⟨-, variant⟩ | ⟨-, variant⟩ <;> rw [variant] <;> rfl
  have closes : closesDoors s.lmu.mode .warming = false := by
    rcases from_rest with ⟨mode, -⟩ | ⟨mode, -⟩ <;> rw [mode] <;> rfl
  let e : ModeEntry := { mode := .warming, variant := none, target := w }
  obtain ⟨p, entered⟩ := entering_eq (s := s) (e := e) (cause := cause) (unmet := unmet) was_loud
  have lines : ∀ u : State, u.awake → linksOnMode (run (n + 3)) s.lmu.mode e u = u := fun u runs => by
    simp only [linksOnMode, e, startLinks_running runs.2, startLoop_running runs.1, ite_self]
  have staged : run (n + 4) (.changeMode e cause unmet) s = enterWarming (run (n + 3)) (linksOnMode (run (n + 3)) s.lmu.mode e
      (closeOnMode (run (n + 3)) s.lmu.mode .warming (s.entering e cause unmet))) := changeModeNow_stages (run (n + 3)) e cause unmet s
  refine ⟨p, ?_⟩
  rw [staged, entered, closeOnMode_keeps closes (.inl rfl), lines _ (by exact awake), entered_loud rfl, enterWarming,
    commandEb_lifts (by exact held) (by exact no_stop) (by exact no_test) (by exact latch) (by exact cmd) (by exact state)
      (by exact unreleased)]
  simp only [LineMode.enter, e, back]
  rfl

/-! ## Entry to PARKED (R170) -/

/-- The Overspeed Supervisor in PARKED (R47). -/
abbrev Supervisor.parked (o : Supervisor) : Supervisor :=
  { o with vPerm := 0, binding := none, level := .none, fresh := true, last := none }

theorem supervisorPark_eq (s : State) : ∃ p, supervisorPark s = { s with osp := s.osp.parked, slp := p } := by
  unfold supervisorPark
  dsimp only
  split
  · exact ⟨s.slp, rfl⟩
  · rw [post_eq_taking]
    exact ⟨_, rfl⟩

/-- A change into PARKED on a line at rest whose doors and windows stay as they are: the supervisor parked and EB setting, before
the links and the loop follow the variant. -/
theorem changeMode_parks {n : Nat} {s : State} {v : Variant} {cause : ModeCause} {unmet : Option WarmUnmet}
    (from_parked : s.lmu.mode ≠ .parked) (doors : closesDoors s.lmu.mode .parked = false ∨ s.allSecured = true)
    (none_open : s.noneOpen) (held : s.hac.state = .held) (no_stop : s.bsq.stop = none) (no_test : s.bsq.test = none)
    (sb : (s.brake .sb).cmd = .apply) (cmd : (s.brake .eb).cmd = .release)
    (state : (s.brake .eb).state = .lifting ∨ (s.brake .eb).state = .released) (unapplied : s.reading .eb ≠ .applied) :
    ∃ p, run (n + 4) (.changeMode { mode := .parked, variant := some v, target := none } cause unmet) s =
      followVariant (run (n + 3)) v (State.withEb { s with
        lmu := s.lmu.entered { mode := .parked, variant := some v, target := none }, osp := s.osp.parked, slp := p }
        { cmd := .apply, state := .setting, timer := s.line.map LineFields.tEbResp }) := by
  have was_loud : s.lmu.isQuiet = false := by simp [LineMode.isQuiet, from_parked]
  let e : ModeEntry := { mode := .parked, variant := some v, target := none }
  have in_parked : (s.lmu.entered e).mode = .parked := by
    unfold LineMode.entered
    split <;> rfl
  obtain ⟨p, entered⟩ := entering_eq (s := s) (e := e) (cause := cause) (unmet := unmet) was_loud
  obtain ⟨q, parked⟩ := supervisorPark_eq { s with lmu := s.lmu.entered e, slp := p }
  have closed : ∀ u : State, u.dru = s.dru → u.glm = s.glm → closeOnMode (run (n + 3)) s.lmu.mode .parked u = u := by
    intro u same_doors same_windows
    have none_open_now : u.noneOpen := fun g => by
      rw [State.window, same_windows]
      exact none_open g
    rcases doors with closes | secured
    · exact closeOnMode_keeps closes (.inr none_open_now)
    · refine closeOnMode_still (fun c d => closeSideNow_secured ?_) none_open_now
      rw [State.side, same_doors]
      exact allSecured_iff.1 secured c d
  have staged : run (n + 4) (.changeMode e cause unmet) s = followVariant (run (n + 3)) v
      (closeOnMode (run (n + 3)) s.lmu.mode .parked (run (n + 3) (.command .eb .apply)
        (run (n + 3) (.command .sb .apply) (supervisorPark (s.entering e cause unmet))))) :=
    changeModeNow_stages (run (n + 3)) e cause unmet s
  refine ⟨q, ?_⟩
  have sb_kept : ∀ u : State, u.bsq = s.bsq → run (n + 3) (.command .sb .apply) u = u := fun u same =>
    commandBrake_same (k := run (n + 2)) (b := .sb) (c := .apply) (by rw [State.brake, same]; exact sb)
  rw [staged, entered, parked, sb_kept _ (by rfl), commandEb_sets (by exact held) (by exact no_stop) (by exact no_test) (by exact cmd)
    (by exact state) (by exact unapplied) (by rw [in_parked]; decide), closed _ (by rfl) (by rfl)]

end Sys2Proof.Machine
end

section
/-! SUPPORT. The gate loop stops while nothing boards. -/

namespace Sys2Proof.Machine

/-! ## The gate loop stops over closed windows (R145, R147) -/

/-- Gates that go offline change their records, the passes and the tallies of their admissions, and the link. -/
def State.gatesOnly (s u : State) : Prop :=
  ∃ gates ptb tally slp, u = { s with glm := { s.glm with gates := gates }, ptb := ptb, tally := tally, slp := slp }

namespace State.gatesOnly

theorem refl (s : State) : s.gatesOnly s := ⟨_, _, _, _, rfl⟩

theorem trans {s t u : State} : s.gatesOnly t → t.gatesOnly u → s.gatesOnly u := by
  rintro ⟨_, _, _, _, rfl⟩ ⟨_, _, _, _, rfl⟩
  exact ⟨_, _, _, _, rfl⟩

theorem post (r : Report) (s : State) : s.gatesOnly (Machine.post r s) := ⟨_, _, _, _, post_eq r s⟩

theorem onGate (a : Nat) (f : GateRec → GateRec) (s : State) : s.gatesOnly (Machine.onGate a f s) := by
  unfold Machine.onGate
  split
  · exact ⟨_, _, _, _, rfl⟩
  · exact refl s

theorem gateReport (a : Nat) (before : GateState) (event : GateEvent) (s : State) :
    s.gatesOnly (Machine.gateReport a before event s) := by
  unfold Machine.gateReport
  split
  · exact post _ s
  · exact refl s

theorem unknownFate (a : Nat) (s : State) : s.gatesOnly (Machine.unknownFate a s) := by
  have released : ∀ (u : State) (ticket : Option Nat) (n : Nat), u.gatesOnly (match ticket with
      | some id => { u with ptb := u.ptb.release id n }
      | none => u) := by
    intro u ticket n
    cases ticket
    · exact refl u
    · exact ⟨_, _, _, _, rfl⟩
  have reported : ∀ (u : State) (c : Option Car) (ticket : Option Nat) (k : Option Nat) (passed : Nat) (rest : Option Nat),
      u.gatesOnly (admissionReport a c ticket .unknownFate none k passed rest none u) := by
    intro u c ticket k passed rest
    unfold admissionReport
    split
    · exact refl u
    · exact post _ u
  unfold Machine.unknownFate
  split
  · exact refl s
  · split
    · exact refl s
    · exact .trans ⟨_, _, _, _, rfl⟩ (.trans (released _ _ _) (.trans (onGate _ _ _) (reported _ _ _ _ _ _)))

/-- Over a list, a step that changes the gates alone wherever a property holds that such changes keep. -/
theorem forEach {α : Type} {P : State → Prop} {f : α → State → State} (keeps : ∀ t u : State, t.gatesOnly u → P t → P u)
    (step : ∀ a t, P t → t.gatesOnly (f a t)) : ∀ (l : List α) (s : State), P s → s.gatesOnly (Machine.forEach l f s)
  | [], s, _ => refl s
  | a :: rest, s, holds => (step a s holds).trans (forEach keeps step rest (f a s) (keeps _ _ (step a s holds) holds))

end State.gatesOnly

/-- No window is OPEN or SEALING and no access request is held. -/
def State.boardingIdle (s : State) : Prop := s.windowsBusy = false ∧ s.glm.slots.s1 = none ∧ s.glm.slots.s2 = none

theorem boardingIdle_of_gatesOnly {s u : State} (changed : s.gatesOnly u) (idle : s.boardingIdle) : u.boardingIdle := by
  obtain ⟨_, _, _, _, rfl⟩ := changed
  exact idle

/-- With no window busy each is SHUT or SEALED. -/
theorem windows_idle {s : State} (idle : s.windowsBusy = false) (g : Group) :
    (s.window g).state ≠ .opened ∧ (s.window g).state ≠ .sealing := by
  have each := (List.any_eq_false.1 idle) g (by cases g <;> decide)
  simpa using each

theorem noneOpen_of_idle {s : State} (idle : s.windowsBusy = false) : s.noneOpen := fun g => (windows_idle idle g).1

/-- Without a held request none completes (R160). -/
theorem completeAllFor_none {k : Hand} {a : Nat} {result : AccessResult} {s : State} (idle : s.boardingIdle) :
    completeAllFor k a result s = s := by
  obtain ⟨-, first, second⟩ := idle
  refine forEach_fixed (fun i _ => if_neg ?_)
  cases i
  · simp [AccessSlots.get, first]
  · simp [AccessSlots.get, second]

/-- A window that is not SEALING is not examined (R149). -/
theorem examineWindow_idle {k : Hand} {g : Group} {s : State} (idle : s.windowsBusy = false) : examineWindow k g s = s := by
  unfold examineWindow
  dsimp only
  rw [beq_eq_false_iff_ne.2 (windows_idle idle g).2, Bool.false_and, Bool.false_and, if_neg (by decide)]

/-- A gate that goes offline while nothing boards changes the gates alone (R145). -/
theorem goOffline_gatesOnly (k : Hand) (a : Nat) {s : State} (idle : s.boardingIdle) : s.gatesOnly (goOffline k a s) := by
  unfold goOffline
  split
  · exact .refl s
  · rename_i g _
    dsimp only
    have ended : ∀ u : State, u.gatesOnly (if g.state == .query then endQuery a .cancelled u else u) := by
      intro u
      split
      · exact .onGate a _ u
      · exact .refl u
    have unlocked : ∀ u : State, u.gatesOnly (if g.state == .lockedOut then gateReport a g.state .unlocked u else u) := by
      intro u
      split
      · exact .gateReport a _ _ u
      · exact .refl u
    have marked := ((State.gatesOnly.unknownFate a s).trans (ended _)).trans ((State.gatesOnly.onGate a
      (fun h => { h with verdict := none, carried := false, misses := 3 }) _).trans (.onGate a (fun h => { h with state := .offline }) _))
    rw [completeAllFor_none (boardingIdle_of_gatesOnly marked idle)]
    have reported := marked.trans ((State.gatesOnly.gateReport a g.state .offline _).trans (unlocked _))
    rw [examineWindow_idle (boardingIdle_of_gatesOnly reported idle).1]
    exact reported

/-- Windows that stand as they were give no close orders, whatever else has changed. -/
theorem closeSealed_unchanged {k : Hand} {b s : State} (same : s.glm.windows = b.glm.windows) : closeSealed k b s = s := by
  have as_before : closeSealed k b s = closeSealed k s s := by
    unfold closeSealed State.window
    rw [same]
  rw [as_before, closeSealed_same]

/-- A loop that stops while nothing boards changes itself, the passes and the tallies (R147). -/
theorem stopLoop_idle (k : Hand) {s : State} (idle : s.boardingIdle) :
    ∃ glm ptb tally slp, stopLoop k s = { s with glm := glm, ptb := ptb, tally := tally, slp := slp } ∧ glm.running = false := by
  cases running : s.glm.running
  · refine ⟨s.glm, s.ptb, s.tally, s.slp, if_neg ?_, running⟩
    rw [running]
    decide
  · obtain ⟨gates, ptb, tally, slp, offline⟩ := State.gatesOnly.forEach
      (f := fun a t => if (t.gate? a).any (fun g => g.state != .offline) then goOffline (withoutClose k) a t else t)
      (fun _ _ => boardingIdle_of_gatesOnly) (fun a t idle => by
        split
        · exact goOffline_gatesOnly _ a idle
        · exact .refl t)
      (s.glm.gates.map GateRec.address) { s with glm := { s.glm with running := false, poll := none } } idle
    refine ⟨{ s.glm with gates := gates, running := false, poll := none, cycle := 0, cursor := 0 }, ptb, tally, slp, ?_, rfl⟩
    rw [stopLoop, if_pos running]
    dsimp only
    rw [offline, closeSealed_unchanged (by rfl)]

end Sys2Proof.Machine
end

section
/-! SUPPORT. The links stop while nothing boards. -/

namespace Sys2Proof.Machine

/-! ## The links stop while nothing boards (R96, R121) -/

/-- Doors that leave SECURED change their records, the drive reference with its word, and the link. -/
def State.doorsOnly (s u : State) : Prop :=
  ∃ dru hac slp, u = { s with dru := dru, hac := hac, slp := slp } ∧ hac.state = s.hac.state

namespace State.doorsOnly

theorem refl (s : State) : s.doorsOnly s := ⟨_, _, _, rfl, rfl⟩

theorem trans {s t u : State} : s.doorsOnly t → t.doorsOnly u → s.doorsOnly u := by
  rintro ⟨_, _, _, rfl, first⟩ ⟨_, _, _, rfl, second⟩
  exact ⟨_, _, _, rfl, second.trans first⟩

theorem post (r : Report) (s : State) : s.doorsOnly (Machine.post r s) := ⟨_, _, _, post_eq r s, rfl⟩

theorem ite {p : Prop} [Decidable p] {s t : State} (t_only : s.doorsOnly t) : s.doorsOnly (if p then t else s) := by
  split
  · exact t_only
  · exact refl s

end State.doorsOnly

/-- SB is commanded APPLY, no window is OPEN and the line is not WARMING: what a door or a link sets off stays with itself. -/
theorem undisturbed_of_doorsOnly {s u : State} (changed : s.doorsOnly u) (calm : s.undisturbed) : u.undisturbed := by
  obtain ⟨_, _, _, rfl, -⟩ := changed
  exact calm

/-- While SB is commanded APPLY there is nothing for the interlock watch to cut (R73). -/
theorem interlockNow_applied {k : Hand} {s : State} (applied : (s.brake .sb).cmd = .apply) : interlockNow k s = s := by
  have commanded : ((s.brake .sb).cmd == .release) = false := by rw [applied]; rfl
  simp only [interlockNow, commanded, Bool.false_and, Bool.false_eq_true, if_false]

/-- With no window OPEN none is sealed for its doors (R149). -/
theorem sealUnreleased_none {k : Hand} {s : State} (none_open : s.noneOpen) : sealUnreleased k s = s := by
  refine forEach_fixed (fun g _ => ?_)
  have closed : ((s.window g).state == .opened) = false := beq_eq_false_iff_ne.2 (none_open g)
  simp only [closed, Bool.false_and, Bool.false_eq_true, if_false]

/-- A side that becomes UNPROVEN changes the doors alone (R107). -/
theorem sideToNow_unproven {k : Hand} {c : Car} {d : Side} {r : DoorSide} {event : DoorEvent} {cause : Option DoorCause} {s : State}
    (uncut : ∀ u : State, u.undisturbed → k .interlock u = u) (calm : s.undisturbed) (unproven : r.state = .unproven) :
    s.doorsOnly (sideToNow k c d r event cause s) := by
  have not_released : (r.state == .released) = false := by rw [unproven]; rfl
  have left : s.doorsOnly (sideTaken c d r event cause s) := by
    simp only [sideTaken, not_released, Bool.false_eq_true, if_false]
    exact State.doorsOnly.trans (.trans ⟨_, _, _, rfl, rfl⟩ (.post _ _)) (.ite ⟨_, _, _, rfl, rfl⟩)
  have calm_now := undisturbed_of_doorsOnly left calm
  rw [sideToNow_eq, uncut _ calm_now]
  simp only [sideFollows, not_released, Bool.and_false, Bool.false_and, Bool.false_eq_true, if_false, sealUnreleased_none calm_now.2.1]
  exact left

/-- Hand-overs at which the interlock watch cuts nothing and a side that becomes UNPROVEN changes the doors alone, while the line is
undisturbed. -/
structure Hand.Calm (k : Hand) : Prop where
  uncut : ∀ s : State, s.undisturbed → k .interlock s = s
  unproves : ∀ (c : Car) (d : Side) (r : DoorSide) (event : DoorEvent) (cause : Option DoorCause) (s : State), s.undisturbed →
    r.state = .unproven → s.doorsOnly (k (.sideTo c d r event cause) s)

theorem calm_run (n : Nat) : Hand.Calm (run (n + 2)) := by
  have uncut : ∀ (m : Nat) (s : State), s.undisturbed → run (m + 1) .interlock s = s := fun m s calm =>
    (run_succ m .interlock s).trans (interlockNow_applied calm.1)
  refine ⟨uncut (n + 1), fun c d r event cause s calm unproven => ?_⟩
  rw [run_succ]
  exact sideToNow_unproven (uncut n) calm unproven

section
variable {k : Hand} (kept : k.Calm)
include kept

/-- A side of a car whose link stops becomes or stays UNPROVEN, or stays in FAULT (R121). -/
theorem unproveSide_doorsOnly {c : Car} {d : Side} {s : State} (calm : s.undisturbed) : s.doorsOnly (unproveSide k c d s) := by
  unfold unproveSide
  dsimp only
  split
  · exact .refl s
  · exact ⟨_, _, _, rfl, rfl⟩
  all_goals exact kept.unproves _ _ _ _ _ _ calm rfl

/-- The state with the record of a car replaced, and whatever its doors, its passage number and the link have become. -/
def State.linkLeft (s : State) (c : Car) (r : CarRec) (u : State) : Prop :=
  ∃ ptr dru hac slp, u = { s.setCar c r with ptr := ptr, dru := dru, hac := hac, slp := slp } ∧ hac.state = s.hac.state

omit kept in
theorem linkLeft_of_doorsOnly {s t u : State} {c : Car} {r : CarRec} (left : s.linkLeft c r t) (doors : t.doorsOnly u) :
    s.linkLeft c r u := by
  obtain ⟨_, _, _, _, rfl, first⟩ := left
  obtain ⟨_, _, _, rfl, second⟩ := doors
  exact ⟨_, _, _, _, rfl, second.trans first⟩

omit kept in
theorem undisturbed_of_linkLeft {s u : State} {c : Car} {r : CarRec} (left : s.linkLeft c r u) (calm : s.undisturbed) :
    u.undisturbed := by
  obtain ⟨_, _, _, _, rfl, -⟩ := left
  exact calm

/-- The doors of a car that becomes NEVER (R121). -/
theorem doorsOnFreshness_never {c : Car} {s : State} (calm : s.undisturbed) : s.doorsOnly (doorsOnFreshness k c .never s) := by
  have left := unproveSide_doorsOnly kept (c := c) (d := .left) calm
  exact left.trans (unproveSide_doorsOnly kept (c := c) (d := .right) (undisturbed_of_doorsOnly left calm))

/-- A car that becomes NEVER on a line undisturbed by it (R94, R121). -/
theorem freshnessNow_never {c : Car} {s : State} (calm : s.undisturbed) :
    s.linkLeft c { s.car c with freshness := .never } (freshnessNow k c .never s) := by
  by_cases already : (s.car c).freshness = .never
  · rw [freshnessNow_same already]
    refine ⟨s.ptr, s.dru, s.hac, s.slp, ?_, rfl⟩
    rw [show ({ s.car c with freshness := .never } : CarRec) = s.car c by rw [← already]]
    cases c <;> rfl
  · have reported : s.linkLeft c { s.car c with freshness := .never } (carLinkReport c .freshness (s.car c).freshness none
        { s.setCar c { s.car c with freshness := .never } with
          ptr := { s.ptr with lastPassage := s.ptr.lastPassage.set c none } }) := by
      rw [carLinkReport, post_eq_taking]
      exact ⟨_, _, _, _, rfl, rfl⟩
    have left := linkLeft_of_doorsOnly reported (doorsOnFreshness_never kept (c := c) (undisturbed_of_linkLeft reported calm))
    have calm_now := undisturbed_of_linkLeft left calm
    have changed : freshnessNow k c .never s = warmingCheck k (k .interlock (doorsOnFreshness k c .never
        (carLinkReport c .freshness (s.car c).freshness none { s.setCar c { s.car c with freshness := .never } with
          ptr := { s.ptr with lastPassage := s.ptr.lastPassage.set c none } }))) := by
      unfold freshnessNow
      dsimp only
      rw [if_neg (by simpa using already)]
      rfl
    rw [changed, kept.uncut _ calm_now, warmingCheck_elsewhere calm_now.2.2]
    exact left

end

/-- The record of a car whose link has stopped: NEVER, with its alarm latch and its counts (R96). -/
def CarRec.stopped (r : CarRec) : CarRec :=
  { r with running := false, timer := none, freshness := .never, status := none, lastSeq := none, since := none, discards := 0 }

/-- A running link that stops (R96). -/
theorem stopLink_running {n : Nat} {c : Car} {s : State} (calm : s.undisturbed) (runs : (s.car c).running = true) :
    s.linkLeft c (s.car c).stopped (stopLink (run (n + 3)) c s) := by
  obtain ⟨ptr, dru, hac, slp, never, state⟩ := freshnessNow_never (calm_run n) (c := c)
    (s := s.setCar c { s.car c with running := false, timer := none }) calm
  have handed : run (n + 3) (.freshness c .never) (s.setCar c { s.car c with running := false, timer := none }) = _ :=
    (run_succ (n + 2) _ _).trans never
  refine ⟨ptr, dru, hac, slp, ?_, state⟩
  unfold stopLink
  rw [if_pos runs]
  dsimp only
  rw [handed]
  cases c <;> rfl

/-- Both links stop (R96). -/
theorem stopLinks_running {n : Nat} {s : State} (calm : s.undisturbed) (runs : ∀ c, (s.car c).running = true) :
    ∃ ptr dru hac slp, stopLinks (run (n + 3)) s = { s with
        clu := { s.clu with recs := ⟨(s.car .a).stopped, (s.car .b).stopped⟩ }
        ptr := ptr, dru := dru, hac := hac, slp := slp } ∧ hac.state = s.hac.state := by
  have first := stopLink_running (n := n) calm (runs .a)
  have calm_now := undisturbed_of_linkLeft first calm
  obtain ⟨_, _, _, _, a_stopped, first_state⟩ := first
  obtain ⟨ptr, dru, hac, slp, b_stopped, second_state⟩ := stopLink_running (n := n) (c := .b) calm_now (by
    rw [a_stopped]
    exact runs .b)
  refine ⟨ptr, dru, hac, slp, ?_, second_state.trans (by rw [a_stopped]; exact first_state)⟩
  show stopLink (run (n + 3)) .b (stopLink (run (n + 3)) .a s) = _
  rw [b_stopped, a_stopped]
  rfl

end Sys2Proof.Machine
end

section
/-! SUPPORT. A warming that fails and a warming that completes. -/

namespace Sys2Proof.Machine

/-! ## What a parked variant keeps and stops (R170) -/

/-- What becomes of the links and the loop of an awake line that follows a parked variant. -/
def State.following (s : State) (v : Variant) (u : State) : Prop :=
  ∃ recs ptr dru hac glm ptb tally slp, u = { s with
      clu := { s.clu with recs := recs }, ptr := ptr, dru := dru, hac := hac, glm := glm, ptb := ptb, tally := tally, slp := slp } ∧
    hac.state = s.hac.state ∧
    (v.keepLinks = true → recs = s.clu.recs ∧ dru = s.dru ∧ hac = s.hac ∧ ptr = s.ptr) ∧
    (v.keepLinks = false → recs = ⟨(s.car .a).stopped, (s.car .b).stopped⟩) ∧
    (v.keepLoop = true → glm = s.glm ∧ ptb = s.ptb ∧ tally = s.tally) ∧ (v.keepLoop = false → glm.running = false)

theorem followVariant_awake {n : Nat} {v : Variant} {s : State} (awake : s.awake) (calm : s.undisturbed) (idle : s.boardingIdle) :
    s.following v (followVariant (run (n + 3)) v s) := by
  obtain ⟨loop_runs, links_run⟩ := awake
  obtain ⟨recs, ptr, dru, hac, slp, links, state, kept_links, stopped_links⟩ :
      ∃ recs ptr dru hac slp, (if v.keepLinks then startLinks s else stopLinks (run (n + 3)) s) = { s with
          clu := { s.clu with recs := recs }, ptr := ptr, dru := dru, hac := hac, slp := slp } ∧ hac.state = s.hac.state ∧
        (v.keepLinks = true → recs = s.clu.recs ∧ dru = s.dru ∧ hac = s.hac ∧ ptr = s.ptr) ∧
        (v.keepLinks = false → recs = ⟨(s.car .a).stopped, (s.car .b).stopped⟩) := by
    cases v.keepLinks
    · obtain ⟨ptr, dru, hac, slp, stopped, state⟩ := stopLinks_running (n := n) calm links_run
      exact ⟨_, ptr, dru, hac, slp, stopped, state, (nomatch ·), fun _ => rfl⟩
    · exact ⟨_, _, _, _, _, startLinks_running links_run, rfl, fun _ => ⟨rfl, rfl, rfl, rfl⟩, (nomatch ·)⟩
  have staged : followVariant (run (n + 3)) v s = if v.keepLoop then
      startLoop (if v.keepLinks then startLinks s else stopLinks (run (n + 3)) s)
    else stopLoop (run (n + 3)) (if v.keepLinks then startLinks s else stopLinks (run (n + 3)) s) := rfl
  rw [staged, links]
  cases loop : v.keepLoop
  · obtain ⟨glm, ptb, tally, slp, stopped, off⟩ := stopLoop_idle (run (n + 3)) (s := { s with
      clu := { s.clu with recs := recs }, ptr := ptr, dru := dru, hac := hac, slp := slp }) idle
    refine ⟨recs, ptr, dru, hac, glm, ptb, tally, slp, ?_, state, kept_links, stopped_links, ?_, fun _ => off⟩
    · exact stopped
    · rw [loop]
      exact (nomatch ·)
  · refine ⟨recs, ptr, dru, hac, s.glm, s.ptb, s.tally, slp, ?_, state, kept_links, stopped_links, fun _ => ⟨rfl, rfl, rfl⟩, ?_⟩
    · exact startLoop_running loop_runs
    · rw [loop]
      exact (nomatch ·)

/-! ## A failed warming (R172) -/

/-- The Line Mode Unit in PARKED after a change out of WARMING: a quiet variant suspends a running supervision timer (R178). -/
theorem entered_parked (l : LineMode) (v : Variant) : l.entered { mode := .parked, variant := some v, target := none } =
    { l with
      mode := .parked, variant := some v, target := none, warmTimer := none
      supTimer := match l.supTimer with
        | .running n => if v.keepLinks = false ∧ v.keepLoop = false then .stopped else .running n
        | x => x
      suspended := match l.supTimer with
        | .running _ => if v.keepLinks = false ∧ v.keepLoop = false then true else l.suspended
        | _ => l.suspended } := by
  obtain ⟨mode, variant, target, warmTimer, warmBack, expected, supTimer, suspended, lost, health, cause⟩ := l
  obtain ⟨links, loop⟩ := v
  cases links <;> cases loop <;> cases supTimer <;> rfl

/-- A warming that fails on an awake line: PARKED in the variant that it came from, EB setting, and the links and the loop as that
variant keeps them (R170, R172). -/
theorem exec_warmingTimeout {s : State} (running : s.isRunning) (warming : s.lmu.mode = .warming)
    (timed : s.lmu.warmTimer.isSome = true) (held : s.hac.state = .held) (no_stop : s.bsq.stop = none) (no_test : s.bsq.test = none)
    (idle : s.boardingIdle) (awake : s.awake) (sb : (s.brake .sb).cmd = .apply) (cmd : (s.brake .eb).cmd = .release)
    (state : (s.brake .eb).state = .lifting) (unapplied : s.reading .eb ≠ .applied) :
    ∃ p t, exec .warmingTimeout s = .next t ∧ State.following (State.withEb { s with
        overrun := false, lmu := s.lmu.entered { mode := .parked, variant := some s.lmu.warmBack, target := none }
        osp := s.osp.parked, slp := p }
      { cmd := .apply, state := .setting, timer := s.line.map LineFields.tEbResp }) s.lmu.warmBack t := by
  obtain ⟨p, parks⟩ := changeMode_parks (n := 60) (s := { s with overrun := false }) (v := s.lmu.warmBack) (cause := .warmFailed)
    (unmet := some (State.warmUnmet { s with overrun := false })) (by rw [warming]; decide) (.inl (by rw [warming]; rfl))
    (noneOpen_of_idle idle.1) held no_stop no_test sb cmd (.inl state) unapplied
  have follows := followVariant_awake (n := 60) (v := s.lmu.warmBack) (s := State.withEb { s with
        overrun := false, lmu := s.lmu.entered { mode := .parked, variant := some s.lmu.warmBack, target := none }
        osp := s.osp.parked, slp := p }
      { cmd := .apply, state := .setting, timer := s.line.map LineFields.tEbResp }) awake
    ⟨sb, noneOpen_of_idle idle.1, by rw [entered_parked]; exact (nomatch ·)⟩ idle
  have expired : warmingExpired cascade { s with overrun := false } = _ :=
    (if_pos (show (s.lmu.mode == .warming) = true by rw [warming]; rfl)).trans parks
  refine ⟨p, _, ?_, follows⟩
  obtain ⟨_, _, _, _, _, _, _, _, followed, -⟩ := follows
  have due : (if s.lmu.warmTimer.isSome then warmingExpired cascade { s with overrun := false } else { s with overrun := false }) = _ :=
    (if_pos timed).trans expired
  refine (whileRunning_next (f := fun s => if s.lmu.warmTimer.isSome then warmingExpired cascade s else s) running ?_).trans
    (congrArg _ due)
  rw [show (if ({ s with overrun := false } : State).lmu.warmTimer.isSome then warmingExpired cascade { s with overrun := false }
    else { s with overrun := false }) = _ from due, followed]

/-! ## A warming completed (R171, R172, R175) -/

/-- The mode that a complete warming enters: its target, or REDUCED where that is SERVICE over a threshold (R175). -/
theorem warmingCheck_complete {k : Hand} {s : State} {w : WarmTarget} (warming : s.lmu.mode = .warming) (target : s.lmu.target = some w)
    (warm : s.warm = true) : warmingCheck k s =
      let forced := w = .service ∧ s.lmu.health.forcing.any = true
      k (.changeMode (.plain (if forced then .reduced else w.mode)) (if forced then .forced else .warmed) none) s := by
  have due : (s.lmu.mode == .warming && s.warm) = true := by rw [warming, warm]; rfl
  simp only [warmingCheck, due, if_true, target]
  cases w
  · cases over_threshold : s.lmu.health.forcing.any <;> simp [WarmTarget.mode]
  · simp
  · simp

/-- A change from WARMING to the mode of its target: the mode and its report (R171). -/
theorem changeMode_warmed {n : Nat} {m : Mode} {cause : ModeCause} {s : State} (warming : s.lmu.mode = .warming)
    (runs : m = .service ∨ m = .reduced ∨ m = .maintenance) :
    run (n + 1) (.changeMode (.plain m) cause none) s = post (.mode
        { event := .change, before := .warming, after := m, cause := some cause, variant := none, target := none, unmet := none
          counters := if cause = .forced then some s.lmu.health.forcing else none })
      { s with lmu := { s.lmu with mode := m, variant := none, target := none, warmTimer := none } } := by
  have entered : s.lmu.enter (.plain m) = { s.lmu with mode := m, variant := none, target := none, warmTimer := none } := by
    rcases runs with rfl | rfl | rfl <;> rfl
  have unsealed : m ≠ .parked ∧ m ≠ .warming ∧ m.sealsWindows = false := by
    rcases runs with rfl | rfl | rfl <;> decide
  obtain ⟨not_parked, not_warming, no_seal⟩ := unsealed
  have plain := changeModeNow_plain (k := run n) (cause := cause) (unmet := none) not_parked not_warming
    (s := s) (by rw [warming]; decide) (closeOnMode_keeps (by rw [warming]; rfl) (.inl no_seal))
  rw [run_succ]
  refine Eq.trans plain ?_
  rw [modeReport, entered, warming]
  simp only [Option.some.injEq]

/-- A change of brake states that leaves a warming complete at rest enters the mode that it enters, with its report (R72, R171,
R175). -/
theorem brakesChanged_completes {n : Nat} {s : State} {w : WarmTarget} (warming : s.lmu.mode = .warming)
    (target : s.lmu.target = some w) (warm : s.warm = true) (held : s.hac.state = .held) (no_stop : s.bsq.stop = none)
    (no_test : s.bsq.test = none) :
    let forced := w = .service ∧ s.lmu.health.forcing.any = true
    let after : Mode := if forced then .reduced else w.mode
    run (n + 3) .brakesChanged s = post (.mode
        { event := .change, before := .warming, after := after, cause := some (if forced then .forced else .warmed), variant := none
          target := none, unmet := none, counters := if forced then some s.lmu.health.forcing else none })
      { s with lmu := { s.lmu with mode := after, variant := none, target := none, warmTimer := none } } := by
  intro forced after
  have haulage : haulageOnBrakes (run (n + 2)) s = s := by simp only [haulageOnBrakes, held]
  have settled : run (n + 2) .settle s = s := settleNow_resting (k := run (n + 1)) held no_stop
  have test : testProgress (run (n + 2)) s = s := by simp only [testProgress, no_test]
  have runs : after = .service ∨ after = .reduced ∨ after = .maintenance := by
    by_cases over_threshold : forced
    · exact .inr (.inl (if_pos over_threshold))
    · rw [show after = w.mode from if_neg over_threshold]
      cases w <;> simp [WarmTarget.mode]
  have cause : (if forced then ModeCause.forced else .warmed) = .forced ↔ forced := by
    split <;> simp [*]
  have entered := changeMode_warmed (n := n + 1) (cause := if forced then .forced else .warmed) warming runs
  simp only [cause] at entered
  calc run (n + 3) .brakesChanged s
      = warmingCheck (run (n + 2)) (testProgress (run (n + 2)) (run (n + 2) .settle (haulageOnBrakes (run (n + 2)) s))) := rfl
    _ = run (n + 2) (.changeMode (.plain after) (if forced then .forced else .warmed) none) s := by
      rw [haulage, settled, test, warmingCheck_complete warming target warm]
    _ = _ := entered

/-- The state once the contacts of EB show it RELEASED and its record has followed (R70). -/
def State.ebReleased (s : State) : State :=
  { s with
    bsq := { s.bsq with
      recs := s.bsq.recs.set .eb { s.brake .eb with state := .released, timer := none }
      contacts := s.bsq.contacts.set .eb { applied := false, released := true } } }

/-- An EB lifting whose contacts come to show it RELEASED is RELEASED, and hands that over (R70, R72). -/
theorem contactsChanged_lifted {k : Hand} {s : State} (state : (s.brake .eb).state = .lifting) (unreleased : s.reading .eb ≠ .released) :
    contactsChanged k .eb { applied := false, released := true } s = k .brakesChanged s.ebReleased := by
  have changed : (Contacts.reading { applied := false, released := true } == s.reading .eb) = false :=
    beq_eq_false_iff_ne.2 (Ne.symm unreleased)
  refine (if_neg (ne_true_of_eq_false changed)).trans ?_
  simp only [show Contacts.reading { applied := false, released := true } = .released from rfl, readingChanged, State.brake] at state ⊢
  rw [state]
  rfl

/-- EB RELEASED on a line at rest with both cars FRESH completes the warming (R70, R171, R172). -/
theorem exec_ebReleased {s : State} {w : WarmTarget} (running : s.isRunning) (warming : s.lmu.mode = .warming)
    (target : s.lmu.target = some w) (state : (s.brake .eb).state = .lifting) (unreleased : s.reading .eb ≠ .released)
    (fresh : s.bothFresh = true) (held : s.hac.state = .held) (no_stop : s.bsq.stop = none) (no_test : s.bsq.test = none) :
    let forced := w = .service ∧ s.lmu.health.forcing.any = true
    let after : Mode := if forced then .reduced else w.mode
    exec (.brakeContactChange .eb false true) s = .next (post (.mode
        { event := .change, before := .warming, after := after, cause := some (if forced then .forced else .warmed), variant := none
          target := none, unmet := none, counters := if forced then some s.lmu.health.forcing else none })
      { s.ebReleased with
        overrun := false, lmu := { s.lmu with mode := after, variant := none, target := none, warmTimer := none } }) := by
  intro forced after
  have completed : contactsChanged cascade .eb { applied := false, released := true } { s with overrun := false } = _ :=
    (contactsChanged_lifted (s := { s with overrun := false }) state unreleased).trans
      (brakesChanged_completes (n := 61) (s := State.ebReleased { s with overrun := false }) warming target
        (Bool.and_eq_true_iff.2 ⟨rfl, fresh⟩) held no_stop no_test)
  have executed : exec (.brakeContactChange .eb false true) s =
      whileRunning (contactsChanged cascade .eb { applied := false, released := true }) s := by
    show execBrakeContactChange .eb false true s = _
    simp only [execBrakeContactChange, show s.inReset = none from running]
  rw [executed, whileRunning_next running (by rw [completed, post_overrun]; rfl), completed]
  rfl

end Sys2Proof.Machine
end

section
/-! SUPPORT. The changes that SET_MODE makes, and the statement of the modes together. -/

namespace Sys2Proof.Machine

/-! ## The changes that SET_MODE makes (R168) -/

section
variable {tag : Byte} {n : Nat} {m : Mode} {c : ModeConditions} {s : State} (listens : s.listening) (no_test : s.bsq.test = none)
  (named : targetOf? n = some m) (awake : s.lmu.mode ≠ .warming) (new : m ≠ s.lmu.mode) (allowed : s.modeChangeAllowed m = some c)
  (unforced : m = .service → s.lmu.health.forcing.any = false) (checked : c.checks = true → s.configFault = none)
  (met : s.modeReasons c = [])
include listens no_test named awake new allowed unforced checked met

/-- A change between modes of a running line with its doors SECURED and no window OPEN is the mode alone (R165). -/
theorem setMode_plain (not_warming : m ≠ .warming) (to_parked : m ≠ .parked) (from_init : s.lmu.mode ≠ .init)
    (from_parked : s.lmu.mode ≠ .parked) (secured : s.allSecured = true) (none_open : s.noneOpen) :
    ∃ u : State, exec (.setMode tag n 1 1) s = .next (u.replied tag .setMode (.accepted (.modeSet false m))) ∧
      State.sameBut { s.heard with
        lmu := { s.lmu with mode := m, variant := none, target := none, warmTimer := none } } u := by
  have entry : entryOf s.lmu.mode m m.flags = .plain m := by
    have old : (s.lmu.mode == .init || s.lmu.mode == .parked) = false := by
      rw [beq_eq_false_iff_ne.2 from_init, beq_eq_false_iff_ne.2 from_parked]
      rfl
    unfold entryOf
    split
    · exact absurd rfl to_parked
    · rw [old]
      rfl
  have entered : s.lmu.enter (.plain m) = { s.lmu with mode := m, variant := none, target := none, warmTimer := none } := by
    simp [LineMode.enter, ModeEntry.plain, not_warming]
  have changes : cascade (.changeMode (.plain m) .host none) s.heard = _ :=
    changeModeNow_plain (k := run 63) (s := s.heard) (cause := .host) (unmet := none) to_parked not_warming from_parked
      (closeOnMode_still (fun c d => closeSideNow_secured (by
        rw [modeReport, State.side, post_dru]; exact allSecured_iff.1 secured c d)) (by
        intro g; rw [modeReport, State.window, post_glm]; exact none_open g))
  have answered := setMode_changes (tag := tag)
    (v := { s.heard with lmu := { s.lmu with mode := m, variant := none, target := none, warmTimer := none } })
    listens no_test named awake new allowed unforced checked met
    (by rw [entry, changes, modeReport, post_eq_taking, show s.heard.lmu = s.lmu from rfl, entered]) rfl
  rw [entry] at answered
  exact answered

/-- A change out of INIT or PARKED into a warming target on a line at rest begins to warm (R171). -/
theorem setMode_warms {w : WarmTarget} (warms : warmTargetOf m = some w)
    (from_rest : (s.lmu.mode = .init ∧ s.lmu.variant = none) ∨ (s.lmu.mode = .parked ∧ s.lmu.variant = some ⟨true, true⟩))
    (runs : s.awake) (no_stop : s.bsq.stop = none) (latch : s.bsq.latch = none) (held : s.hac.state = .held)
    (cmd : (s.brake .eb).cmd = .apply) (state : (s.brake .eb).state = .applied) (unreleased : s.reading .eb ≠ .released) :
    ∃ u : State, exec (.setMode tag n 1 1) s = .next (u.replied tag .setMode (.accepted (.modeSet false .warming))) ∧
      State.sameBut { s.heard with
        lmu := { s.lmu with
          mode := .warming, variant := none, target := some w, warmBack := ⟨true, true⟩
          warmTimer := s.line.map (fun p => p.tWarm * 1000) }
        bsq := { s.bsq with
          recs := s.bsq.recs.set .eb { cmd := .release, state := .lifting, timer := s.line.map LineFields.tEbResp } } } u := by
  have entry : entryOf s.lmu.mode m m.flags = { mode := .warming, variant := none, target := some w } := by
    have old : (s.lmu.mode == .init || s.lmu.mode == .parked) = true := by
      rcases from_rest with ⟨mode, -⟩ | ⟨mode, -⟩ <;> rw [mode] <;> rfl
    unfold entryOf
    split
    · exact nomatch warms
    · rw [old, warms]
      rfl
  obtain ⟨p, changes⟩ := changeMode_warms (n := 60) (s := s.heard) (w := some w) (cause := .host) (unmet := none) from_rest runs held
    no_stop no_test latch cmd state unreleased
  have answered := setMode_changes (tag := tag) listens no_test named awake new allowed unforced checked met
    (v := { s.heard with
      lmu := { s.lmu with
        mode := .warming, variant := none, target := some w, warmBack := ⟨true, true⟩
        warmTimer := s.line.map (fun p => p.tWarm * 1000) }
      bsq := { s.bsq with
        recs := s.bsq.recs.set .eb { cmd := .release, state := .lifting, timer := s.line.map LineFields.tEbResp } } })
    (p := p) (by rw [entry]; exact changes) rfl
  rw [entry] at answered
  exact answered

/-- A change into PARKED on a line at rest that keeps its links and its loop (R170). -/
theorem setMode_parks (to_parked : m = .parked) (runs : s.awake) (no_stop : s.bsq.stop = none) (held : s.hac.state = .held)
    (secured : s.allSecured = true) (none_open : s.noneOpen) (sb : (s.brake .sb).cmd = .apply)
    (cmd : (s.brake .eb).cmd = .release) (state : (s.brake .eb).state = .released) (unapplied : s.reading .eb ≠ .applied) :
    ∃ u : State, exec (.setMode tag n 1 1) s = .next (u.replied tag .setMode (.accepted (.modeSet false .parked))) ∧
      State.sameBut { s.heard with
        lmu := { s.lmu with mode := .parked, variant := some ⟨true, true⟩, target := none, warmTimer := none }
        osp := s.osp.parked
        bsq := { s.bsq with
          recs := s.bsq.recs.set .eb { cmd := .apply, state := .setting, timer := s.line.map LineFields.tEbResp } } } u := by
  subst to_parked
  obtain ⟨p, changes⟩ := changeMode_parks (n := 60) (s := s.heard) (v := ⟨true, true⟩) (cause := .host) (unmet := none)
    (Ne.symm new) (.inr secured) none_open held no_stop no_test sb cmd (.inr state) unapplied
  refine setMode_changes (tag := tag) (p := p) listens no_test named awake new allowed unforced checked met ?_ rfl
  refine Eq.trans changes ?_
  rw [followVariant_both (by exact runs), entered_loud rfl]
  rfl

end

/-! ## The requests and the expiries together -/

/-- Settles O55: SET_MODE step by step, each change that it makes, a warming that fails, and one that completes. -/
theorem modeRequestsAct : Obligations.ModeRequestsAct := by
  unfold Obligations.ModeRequestsAct
  refine ⟨fun tag s => ?_, ?_⟩
  · intro name sent answered changed both awake
    have named : ∀ m, m ≠ .init → m ≠ .warming → targetOf? (name m) = some m := by
      intro m not_init not_warming
      cases m
      case init => exact absurd rfl not_init
      case warming => exact absurd rfl not_warming
      all_goals rfl
    refine ⟨fun listens no_test => ?_, ?_⟩
    · refine ⟨fun m l p => setMode_unknown listens no_test,
        fun m not_init not_warming => setMode_warming listens no_test (named m not_init not_warming),
        fun not_init not_warming => setMode_present listens no_test (named _ not_init not_warming) rfl not_warming,
        fun m not_init not_warming => setMode_wrongMode listens no_test (named m not_init not_warming),
        fun m c not_init not_warming idle new allowed => ?_⟩
      have target := named m not_init not_warming
      refine ⟨setMode_forced listens no_test target idle new allowed, fun unforced => ?_⟩
      refine ⟨fun check => setMode_configInvalid listens no_test target idle new allowed unforced, fun checked => ?_⟩
      refine ⟨setMode_inhibited listens no_test target idle new allowed unforced checked, ?_, ?_, ?_⟩
      · intro met to_parked from_init from_parked
        exact setMode_plain listens no_test target idle new allowed unforced checked met not_warming to_parked from_init from_parked
      · intro met to_parked from_rest runs no_stop latch held cmd state unreleased w warms
        exact setMode_warms listens no_test target idle new allowed unforced checked met warms from_rest runs no_stop latch held cmd
          state unreleased
      · rintro met rfl runs no_stop held secured none_open sb cmd state unapplied
        exact setMode_parks listens no_test target idle new allowed unforced checked met rfl runs no_stop held secured none_open sb
          cmd state unapplied
    · intro running warming timed held no_stop no_test quiet runs slot1 slot2 sb cmd state unapplied v is_quiet
      obtain ⟨p, t, expired, recs, ptr, dru, hac, glm, ptb, tally, slp, rfl, still_held, kept_links, stopped_links, kept_loop,
        stopped_loop⟩ := exec_warmingTimeout running warming timed held no_stop no_test ⟨quiet, slot1, slot2⟩ runs sb cmd state
          unapplied
      refine ⟨_, expired, entered_parked s.lmu v, rfl, rfl, rfl, rfl, rfl, still_held.trans held, ?_, ?_, kept_loop, stopped_loop⟩
      · intro keeps
        obtain ⟨rfl, rfl, rfl, rfl⟩ := kept_links keeps
        exact ⟨rfl, rfl, rfl, rfl⟩
      · intro stops
        obtain rfl := stopped_links stops
        intro c
        cases c <;> exact ⟨rfl, rfl, rfl⟩
  · intro s w running warming target _ state unreleased fresh held no_stop no_test _
    exact exec_ebReleased running warming target state unreleased fresh held no_stop no_test

end Sys2Proof.Machine
end

section
/-! SUPPORT. The laws of chapters 2 and 3 that every step keeps, and the requests on the trip plan. -/

namespace Sys2Proof.Machine

/-! ## The laws of the haulage, the plan and the TSR list (R25, R26, R30, R37, R41, R64) -/

/-- The blank haulage is HELD with the reference 0. -/
theorem blankState_haulageLaw (c : ResetCause) (s : State) : (blankState c s).haulageLaw :=
  ⟨fun _ => ⟨rfl, rfl⟩, fun moves => absurd rfl moves, Nat.le_refl _, fun moves => absurd rfl moves, fun _ => rfl⟩

/-- Settles O14: every operation keeps the law, which speaks of neither the link nor the queue, and the reset values meet it. -/
theorem driveReferenceLawKept : Obligations.DriveReferenceLawKept := fun _ _ law h =>
  step_keeps State.haulageLaw (fun _ _ r p => .inl (r.haulageLaw p)) (fun _ _ _ p => p) blankState_haulageLaw
    (fun s _ => blankState_haulageLaw .restart s) (fun _ _ p => p) (fun _ p => (tick_run _).haulageLaw p) (fun _ _ _ p => p) law h

/-- A run keeps the law of the trip plan and that of the TSR list. -/
theorem Run.planAndTsrLaws {s t : State} (h : Run s t) :
    (s.hac.planLaw → t.hac.planLaw) ∧ (tsrLaw s.osp.tsrs → tsrLaw t.osp.tsrs) := by
  induction h with
  | trans _ _ ih1 ih2 => exact ⟨ih2.1 ∘ ih1.1, ih2.2 ∘ ih1.2⟩
  | haul _ _ _ _ plan tsrs => exact ⟨plan, tsrs⟩
  | post s r => rw [post_eq]; exact ⟨id, id⟩
  | side _ _ _ _ _ _ ih => exact ih
  | fresh _ _ _ _ _ _ ih => exact ih
  | health _ _ _ _ _ ih => exact ih
  | _ => exact ⟨id, id⟩

/-- Settles O15: every operation keeps both laws, and the blank plan and the blank list meet them. -/
theorem planAndTsrLawsKept : Obligations.PlanAndTsrLawsKept := by
  intro s t h
  constructor <;> intro law
  · exact step_keeps (fun s => s.hac.planLaw) (fun _ _ r p => .inl (r.planAndTsrLaws.1 p)) (fun _ _ _ p => p)
      (fun _ _ => ⟨Nat.zero_le _, .nil⟩) (fun _ _ => ⟨Nat.zero_le _, .nil⟩) (fun _ _ p => p)
      (fun _ p => (tick_run _).planAndTsrLaws.1 p) (fun _ _ _ p => p) law h
  · have blank : tsrLaw [] := ⟨Nat.zero_le _, List.nodup_nil, .nil, fun _ h => nomatch h⟩
    exact step_keeps (fun s => tsrLaw s.osp.tsrs) (fun _ _ r p => .inl (r.planAndTsrLaws.2 p)) (fun _ _ _ p => p)
      (fun _ _ => blank) (fun _ _ => blank) (fun _ _ p => p)
      (fun _ p => (tick_run _).planAndTsrLaws.2 p) (fun _ _ _ p => p) law h

/-! ## The examination of a plan (R27) -/

/-- The first check that fails gives the fault. -/
theorem firstFault_at {l : List FieldCheck} {k : Nat} {c : FieldCheck} (here : l[k]? = some c) (fails : c.good = false)
    (before : ∀ j d, j < k → l[j]? = some d → d.good = true) : firstFault l = some c.offset := by
  obtain ⟨bound, rfl⟩ := List.getElem?_eq_some_iff.1 here
  have found : l.find? (fun c => !c.good) = some l[k] := by
    refine List.find?_eq_some_iff_getElem.2 ⟨by simp [fails], k, bound, rfl, fun j lower => ?_⟩
    simp [before j _ lower (List.getElem?_eq_getElem (lower.trans bound))]
  rw [firstFault, found, Option.map_some]

/-- The check of each plan entry, with the entry before it. -/
theorem planChecks_getElem? (stops : List StopRec) (prev : Option Nat) (l : List Nat) (o k : Nat) :
    (planChecks stops prev l o)[k]? = l[k]?.map (fun i =>
      { good := stops.any (fun r => r.index == i) && (if k = 0 then prev else l[k - 1]?) != some i, offset := o + k }) := by
  induction l generalizing prev o k with
  | nil => simp [planChecks]
  | cons a rest ih =>
    cases k with
    | zero => simp [planChecks]
    | succ k =>
      have entry_before : (if k = 0 then some a else rest[k - 1]?) = (a :: rest)[k]? := by cases k <;> simp
      simp only [planChecks, List.getElem?_cons_succ, ih, entry_before, Nat.add_right_comm o 1 k]
      rfl

/-- A plan entry that R27 faults: without a record, the first equal to the stop of the berth, or equal to the one before it. -/
def State.faultsEntry (s : State) (l : List Nat) (k : Nat) : Prop := ∃ i, l[k]? = some i ∧
  ((∀ r ∈ s.stops, r.index ≠ i) ∨ (k = 0 ∧ s.hac.berth.stop = some i) ∨ (∃ j, k = j + 1 ∧ l[j]? = some i))

/-- The check of an entry fails where R27 faults it. -/
theorem planCheck_fails (s : State) (l : List Nat) (k : Nat) {i : Nat} (entry : l[k]? = some i) :
    (s.stops.any (fun r => r.index == i) && (if k = 0 then s.hac.berth.stop else l[k - 1]?) != some i) = false ↔
      s.faultsEntry l k := by
  have predecessor : (if k = 0 then s.hac.berth.stop else l[k - 1]?) = some i ↔
      (k = 0 ∧ s.hac.berth.stop = some i) ∨ (∃ j, k = j + 1 ∧ l[j]? = some i) := by cases k <;> simp
  simp only [State.faultsEntry, entry, Option.some.injEq, exists_eq_left', Bool.and_eq_false_iff, List.any_eq_false, beq_iff_eq,
    bne_eq_false_iff_eq, predecessor, ne_eq]

theorem planFault_long {s : State} {l : List Nat} (long : 8 < l.length) : s.planFault l = some 0 := by
  have fails : (FieldCheck.range l.length 0 Config.planPlaces 0).good = false :=
    decide_eq_false fun within => Nat.not_le.2 long within.2
  exact firstFault_at (k := 0) (c := .range l.length 0 Config.planPlaces 0) rfl fails (fun _ _ lower => absurd lower (Nat.not_lt_zero _))

/-- The first entry that R27 faults gives the fault, where the count is within bounds. -/
theorem planFault_first {s : State} {l : List Nat} {k : Nat} (short : l.length ≤ 8) (faulted : s.faultsEntry l k)
    (first : ∀ j, j < k → ¬s.faultsEntry l j) : s.planFault l = some (1 + k) := by
  obtain ⟨i, entry, -⟩ := id faulted
  have here := planChecks_getElem? s.stops s.hac.berth.stop l 1 k
  rw [entry, Option.map_some] at here
  have fails := (planCheck_fails s l k entry).2 faulted
  refine firstFault_at (k := k + 1) (c := { good := _, offset := 1 + k }) here fails (fun j d lower at_j => ?_)
  cases j with
  | zero =>
    obtain rfl : FieldCheck.range l.length 0 Config.planPlaces 0 = d := Option.some.inj at_j
    exact range_of_le (Nat.zero_le _) short
  | succ j =>
    rw [List.getElem?_cons_succ, planChecks_getElem?] at at_j
    obtain ⟨e, entry_j, rfl⟩ := Option.map_eq_some_iff.1 at_j
    exact Bool.of_not_eq_false fun fails => first j (Nat.lt_of_succ_lt_succ lower) ((planCheck_fails s l j entry_j).1 fails)

/-- A plan within its count without an entry that R27 faults passes. -/
theorem planFault_passes {s : State} {l : List Nat} (short : l.length ≤ 8) (good : ∀ k, ¬s.faultsEntry l k) :
    s.planFault l = none := by
  refine listFault_none short (fun c member => ?_)
  obtain ⟨k, at_k⟩ := List.getElem?_of_mem member
  rw [planChecks_getElem?] at at_k
  obtain ⟨e, entry, rfl⟩ := Option.map_eq_some_iff.1 at_k
  exact Bool.of_not_eq_false fun fails => good k ((planCheck_fails s l k entry).1 fails)

/-! ## The requests on the plan (R27, R28, R29) -/

theorem moving_iff {s : State} : s.moving = true ↔ s.hac.state ≠ .held := bne_iff_ne

theorem not_moving {s : State} (held : s.hac.state = .held) : s.moving = false := bne_eq_false_iff_eq.2 held

theorem handlePlanSet_faulty {l : List Nat} {s : State} {o : Nat} (held : s.hac.state = .held) (fault : s.planFault l = some o) :
    handlePlanSet l s = (s, badField o) := by
  simp only [handlePlanSet, not_moving held, fault, Bool.false_eq_true, if_false]

theorem handlePlanSet_good {l : List Nat} {s : State} (held : s.hac.state = .held) (good : s.planFault l = none) :
    handlePlanSet l s = ({ s with hac := { s.hac with plan := l, legMark := false } }, accept .none) := by
  simp only [handlePlanSet, not_moving held, good, Bool.false_eq_true, if_false]

/-- Settles O28: the haulage state, the count and the first faulted entry decide, in this order. -/
theorem planSetExamined : Obligations.PlanSetExamined := by
  intro tag l s listens bad
  have held_goes : ∀ {o}, s.hac.state = .held → s.heard.planFault l = some o →
      exec (.planSet tag l) s = .next (s.heard.replied tag .planSet (.refused .badField (.field o))) := fun held fault =>
    request_answers listens (handlePlanSet_faulty (s := s.heard) held fault) rfl
  refine ⟨fun moves => ?_, fun held long => held_goes held (planFault_long long),
    fun k held short faulted first => held_goes held (planFault_first (s := s.heard) short faulted first),
    fun held short good => ?_, request_answers listens (h := handlePlanClear) rfl rfl⟩
  · exact request_answers listens (if_pos (moving_iff.2 moves)) rfl
  · exact request_answers listens (handlePlanSet_good (s := s.heard) held (planFault_passes (s := s.heard) short good)) rfl

/-- The predecessor of an entry to be appended: the tail of the plan, else the destination, else the stop of the berth (R28). -/
theorem predecessor_eq (s : State) : s.predecessor =
    if s.hac.plan ≠ [] then s.hac.plan.getLast? else if s.hac.dest.isSome then s.hac.dest else s.hac.berth.stop := by
  unfold State.predecessor
  cases tail : s.hac.plan.getLast? with
  | none =>
    rw [List.getLast?_eq_none_iff.1 tail]
    cases s.hac.dest <;> rfl
  | some i => rw [if_pos (by rintro empty; rw [empty] at tail; cases tail)]

/-- Settles O29: the record of the index, the room in the plan and the entry before it decide, in this order. -/
theorem planAppendExamined : Obligations.PlanAppendExamined := by
  intro tag i s listens prev recorded
  have any_iff : s.stops.any (fun r => r.index == i) = true ↔ recorded := by simp [recorded, List.any_eq_true]
  have predecessor : s.heard.predecessor = prev := predecessor_eq s
  have bad_index : ∀ {r}, handlePlanAppend i s.heard = (s.heard, r) →
      exec (.planAppend tag i) s = .next (s.heard.replied tag .planAppend r) := fun handled => request_answers listens handled rfl
  have known : ∀ {rest : State × Answer}, recorded →
      (if !s.stops.any (fun r => r.index == i) then (s.heard, badField 0) else rest) = rest :=
    fun r => if_neg (by rw [any_iff.2 r]; decide)
  have room : ∀ {taken : State × Answer}, s.hac.plan.length < 8 →
      (if Config.planPlaces ≤ s.hac.plan.length then (s.heard, refuse .queueFull) else taken) = taken :=
    fun r => if_neg (Nat.not_le.2 r)
  refine ⟨fun unknown => bad_index (if_pos ?_), fun r full => bad_index ((known r).trans (if_pos full)), fun r short same => ?_,
    fun r short other => ?_⟩
  · rw [Bool.not_eq_true', Bool.eq_false_iff]
    exact fun any => unknown (any_iff.1 any)
  · exact bad_index ((known r).trans ((room short).trans (if_pos (predecessor.trans same))))
  · exact request_answers listens ((known r).trans ((room short).trans (if_neg (by rw [predecessor]; exact other)))) rfl

end Sys2Proof.Machine
end

section
/-! SUPPORT. STOP, and the 20 ms update of the drive reference. -/

namespace Sys2Proof.Machine

variable {k : Hand}

/-! ## A CONTROLLED stop (R38, R74, R75) -/

/-- A CONTROLLED stop in BERTHING leaves the haulage; in a trip under a reference above 0 it starts the ramp (R38, R38a). -/
theorem haulageOnStop_controlled {s : State} (trip : s.hac.state = .berthing ∨ (s.hac.state.drives = true ∧ s.hac.vRef ≠ 0)) :
    haulageOnStop .controlled s =
      { s with hac := if s.hac.state = .berthing then s.hac else { s.hac with ramp := true } } := by
  rcases trip with berthing | ⟨drives, moves⟩
  · simp only [haulageOnStop, berthing, if_true]
  · have ramps : (s.hac.vRef == 0) = false := beq_eq_false_iff_ne.2 moves
    cases state : s.hac.state <;> simp_all [haulageOnStop, HState.drives]

theorem stopCommands_controlled {s : State} (grounded : (s.brake .sb).state ≠ .lifting) : stopCommands .controlled s = s :=
  if_neg (by simpa using grounded)

theorem setLatch_controlled (cause : StopCause) (s : State) : setLatch .controlled cause s = s := rfl

theorem emergencyMode_controlled (s : State) : emergencyMode k .controlled s = s := rfl

/-- The record of a CONTROLLED stop taken at a state (R74). -/
abbrev State.controlledRecord (s : State) (cause : StopCause) : StopRecord :=
  { kind := .controlled, cause := cause, x := s.ptr.x, vMeas := s.ptr.vMeas, check := .absent }

/-- A CONTROLLED order on a running line whose SB does not lift: the record and the ramp, and no brake moves (R74, R75). -/
theorem controlled_taken {n : Nat} {cause : StopCause} {s : State} (empty : s.bsq.stop = none) (no_test : s.bsq.test = none)
    (runs : s.ptr.standstill = false) (grounded : (s.brake .sb).state ≠ .lifting)
    (trip : s.hac.state = .berthing ∨ (s.hac.state.drives = true ∧ s.hac.vRef ≠ 0)) :
    ∃ p, run (n + 2) (.orderStop .controlled cause) s = { s with
      hac := if s.hac.state = .berthing then s.hac else { s.hac with ramp := true }
      bsq := { s.bsq with stop := some (s.controlledRecord cause) }, slp := p } := by
  have order : run (n + 2) (.orderStop .controlled cause) s = _ :=
    orderStopNow_taken (k := run (n + 1)) (kind := .controlled) empty (abortTestNow_none no_test)
  rw [haulageOnStop_controlled (by exact trip), stopCommands_controlled (by exact grounded), setLatch_controlled,
    emergencyMode_controlled, post_eq_taking] at order
  have unmoved : ∀ u : State, u.brakeStates = s.brakeStates → handOverBrakes (run (n + 1)) s.brakeStates u = u :=
    fun u same => if_pos same
  rw [unmoved _ (by rfl)] at order
  exact ⟨_, order.trans (settleNow_running runs)⟩

/-- Any stop in progress absorbs a CONTROLLED order (R74). -/
theorem controlled_absorbed {cause : StopCause} {s : State} (stopping : s.bsq.stop.isSome = true) :
    orderStopNow k .controlled cause s = s := by
  obtain ⟨r, record⟩ := Option.isSome_iff_exists.1 stopping
  have weaker : s.takesStop .controlled = false := by
    simp only [State.takesStop, record]
    cases r.kind <;> rfl
  simp only [orderStopNow, weaker, Bool.false_eq_true, if_false]

/-! ## STOP (R38) -/

/-- Settles O31: STOP orders a CONTROLLED stop while the line moves and does nothing while HELD. -/
theorem stopRequestActs : Obligations.StopRequestActs := by
  intro tag s listens reply
  refine ⟨fun held => ?_, fun drives moves empty no_test runs grounded => ?_⟩
  · have handled : handleStop s.heard = (s.heard, reply) := by
      simp only [handleStop, not_moving (s := s.heard) held, Bool.false_eq_true, if_false]
      rfl
    exact request_answers listens handled rfl
  · obtain ⟨p, taken⟩ := controlled_taken (n := 62) (cause := .host) (s := s.heard) empty no_test runs grounded
      (.inr ⟨drives, moves⟩)
    have not_berthing : s.heard.hac.state ≠ .berthing := by
      intro berthing
      rw [show s.hac.state = .berthing from berthing] at drives
      cases drives
    rw [if_neg not_berthing] at taken
    have handled : handleStop s.heard = ({ s.heard with
        hac := { s.hac with ramp := true }, bsq := { s.bsq with stop := some (s.controlledRecord .host) }, slp := p }, reply) :=
      Prod.ext ((if_pos (moving_iff.2 (show s.heard.hac.state ≠ .held from not_held_of_drives drives))).trans taken) rfl
    exact ⟨_, request_answers listens handled rfl, rfl⟩

/-! ## The update of the drive reference in its stages (R33, R41, R42) -/

/-- DRIVE_REFERENCE_UPDATE on a running device. -/
theorem exec_driveReferenceUpdate {s t : State} {ready fault : Bool} (running : s.isRunning)
    (e : driveUpdate cascade ready fault { s with overrun := false } = t) (clear : t.overrun = false) :
    exec (.driveReferenceUpdate ready fault) s = .next t := by
  subst e
  exact whileRunning_next running clear

/-- Lines read as good, or while HELD, change their readings alone (R42). -/
theorem readDriveLines_quiet {ready fault : Bool} {s : State} (quiet : ready = true ∧ fault = false ∨ s.hac.state = .held) :
    readDriveLines k ready fault s = { s with hac := { s.hac with ready := ready, fault := fault } } := by
  refine if_neg ?_
  rcases quiet with ⟨rfl, rfl⟩ | held
  · simp
  · simp [State.moving, held]

/-- Outside a trip the update leaves the reference (R33). -/
theorem referenceUpdate_idle {s : State} (idle : s.hac.state.drives = false) : referenceUpdate s = s := by
  unfold referenceUpdate
  cases s.line with
  | none => rfl
  | some p => cases state : s.hac.state <;> simp_all [HState.drives]

/-- An update while HELD with no stop in the record: the lines and the word. -/
theorem driveUpdate_held {ready fault : Bool} {s : State} (held : s.hac.state = .held) (no_stop : s.bsq.stop = none) :
    driveUpdate cascade ready fault s = sendWord { s with hac := { s.hac with ready := ready, fault := fault } } := by
  have settled : cascade .settle s = s := settleNow_resting held no_stop
  rw [driveUpdate, referenceUpdate_idle (by rw [held]; rfl), settled, readDriveLines_quiet (.inr held)]

/-- Settles O32: while HELD the update has no reference to compute and nothing to settle. -/
theorem driveUpdateHeldSendsWord : Obligations.DriveUpdateHeldSendsWord := fun _ _ s running held no_stop =>
  exec_driveReferenceUpdate running (driveUpdate_held (s := { s with overrun := false }) held no_stop) rfl

/-! ## The haulage state of a moving line (R24, R62) -/

/-- A change between moving states clears the wrong-way accumulator and its flag, and nothing else follows it (R62). -/
theorem setHaulage_moving {new : HState} {s : State} (moves : s.hac.state ≠ .held) (stays : new ≠ .held) :
    setHaulage new s = { s with
      hac := { s.hac with state := new }
      osp := if s.hac.state = new then s.osp else { s.osp with acc := 0, ordered := false } } := by
  unfold setHaulage
  by_cases same : s.hac.state = new
  · subst same
    simp
  · have left : (s.hac.state == .held) = false := beq_eq_false_iff_ne.2 moves
    have reached : (new == .held) = false := beq_eq_false_iff_ne.2 stays
    simp [same, left, reached, supervisorOnHaulage]

/-- STOPPING with the reference 0 and no ramp, reached from a moving state. -/
theorem enterStopping_moving {s : State} (moves : s.hac.state ≠ .held) : enterStopping s = { s with
    hac := { s.hac with state := .stopping, vRef := 0, ramp := false }
    osp := if s.hac.state = .stopping then s.osp else { s.osp with acc := 0, ordered := false } } :=
  setHaulage_moving (s := { s with hac := { s.hac with vRef := 0, ramp := false } }) moves (by decide)

theorem comingDir_moving {s : State} (moves : s.hac.state ≠ .held) : s.comingDir = s.hac.tripDir :=
  if_pos (moving_iff.2 moves)

/-- The drive word of a moving line with its parameters loaded (R41). -/
theorem driveWordOf_moving {s : State} (moves : s.hac.state ≠ .held) (loaded : s.line.isSome = true) :
    driveWordOf s = { vRef := s.hac.vRef, dir := s.hac.tripDir } := by
  rw [driveWordOf, if_pos (by exact loaded), comingDir_moving moves]

/-! ## The reference of a trip (R33, R34, R38a) -/

/-- A driving state is neither HELD nor STOPPING nor BERTHING. -/
theorem ne_of_drives {h x : HState} (drives : h.drives = true) (idle : x.drives = false) : h ≠ x := by
  rintro rfl
  rw [drives] at idle
  cases idle

/-- In a trip the update is that of its ramp or that of its target (R33, R38a). -/
theorem referenceUpdate_drives {s : State} {p : LineFields} (loaded : s.line = some p) (drives : s.hac.state.drives = true) :
    referenceUpdate s = if s.hac.ramp then rampUpdate p s else tripUpdate p s := by
  unfold referenceUpdate
  rw [loaded]
  cases state : s.hac.state <;> simp_all [HState.drives]

theorem referenceUpdate_trip {s : State} {p : LineFields} (loaded : s.line = some p) (drives : s.hac.state.drives = true)
    (no_ramp : s.hac.ramp = false) : referenceUpdate s = tripUpdate p s := by
  rw [referenceUpdate_drives loaded drives, no_ramp, if_neg (by decide)]

theorem referenceUpdate_ramp {s : State} {p : LineFields} (loaded : s.line = some p) (drives : s.hac.state.drives = true)
    (ramp : s.hac.ramp = true) : referenceUpdate s = rampUpdate p s := by
  rw [referenceUpdate_drives loaded drives, ramp, if_pos rfl]

/-- An update of the ramp: the reference, and STOPPING at 0 (R38a). -/
theorem rampUpdate_eq {p : LineFields} {s : State} (drives : s.hac.state.drives = true) :
    let v := if s.allSecured = true then min (s.hac.vRef - p.aSs * 20 / 1000) s.osp.vPerm else 0
    rampUpdate p s = if v = 0 then { s with
        hac := { s.hac with state := .stopping, vRef := 0, ramp := false }, osp := { s.osp with acc := 0, ordered := false } }
      else { s with hac := { s.hac with vRef := v } } := by
  intro v
  have stops := enterStopping_moving (s := { s with hac := { s.hac with vRef := v } }) (not_held_of_drives drives)
  rw [if_neg (ne_of_drives drives rfl)] at stops
  have ramp : rampUpdate p s = if (v == 0) = true then enterStopping { s with hac := { s.hac with vRef := v } }
      else { s with hac := { s.hac with vRef := v } } := rfl
  rw [ramp, stops]
  simp only [beq_iff_eq]

/-- The distance to the stop of the destination (R33). -/
abbrev State.toStop (s : State) (r : StopRec) : Nat :=
  if s.hac.tripDir = .up then ((r.pos : Int) - s.ptr.x).toNat else (s.ptr.x - (r.pos : Int)).toNat

theorem stopDistance_eq (s : State) (r : StopRec) : stopDistance s.hac.tripDir s.ptr.x r.pos = s.toStop r := by
  unfold stopDistance State.toStop
  cases s.hac.tripDir <;> rfl

/-- The stop of the destination is where a trip goes (R33). -/
theorem destination_pos {s : State} {i : Nat} {r : StopRec} (dest : s.hac.dest = some i) (stop : s.stopAt? i = some r) :
    ((s.hac.dest.bind s.stopAt?).map (fun r => (r.pos : Int))).getD s.ptr.x = r.pos := by
  rw [dest, Option.bind_some, stop]
  rfl

/-- At the destination, within the berthing tolerance, the reference is 0 in BERTHING (R33, R35). -/
theorem tripUpdate_berths {p : LineFields} {s : State} {i : Nat} {r : StopRec} (drives : s.hac.state.drives = true)
    (dest : s.hac.dest = some i) (stop : s.stopAt? i = some r) (close : s.toStop r ≤ p.berthTol) : tripUpdate p s = { s with
      hac := { s.hac with state := .berthing, vRef := 0 }, osp := { s.osp with acc := 0, ordered := false } } := by
  have berths := setHaulage_moving (s := { s with hac := { s.hac with vRef := 0 } }) (new := .berthing) (not_held_of_drives drives)
    (by decide)
  rw [if_neg (ne_of_drives drives rfl)] at berths
  unfold tripUpdate
  simp only [destination_pos dest stop, stopDistance_eq]
  rw [if_pos (by rw [approachSpeed, if_pos close]; rfl), berths]

/-- Short of the berthing tolerance with a cap above 0: the reference within its ramp steps, and the state of the term that binds (R34). -/
theorem tripUpdate_runs {p : LineFields} {s : State} {i : Nat} {r : StopRec} (drives : s.hac.state.drives = true)
    (dest : s.hac.dest = some i) (stop : s.stopAt? i = some r) (secured : s.allSecured = true) (away : p.berthTol < s.toStop r)
    (creeps : 0 < p.vCreep) (cap : 0 < s.speedCap p) : ∃ o, tripUpdate p s = { s with
      osp := o
      hac := { s.hac with
        state := boundState p (s.toStop r) (approachSpeed p (s.toStop r)) (s.speedCap p), stalled := false
        vRef := rampedReference p s.hac.vRef (min (s.speedCap p) (approachSpeed p (s.toStop r))) s.osp.vPerm } } := by
  have approach : (approachSpeed p (s.toStop r) == 0) = false := by
    rw [approachSpeed, if_neg (Nat.not_le.2 away), beq_eq_false_iff_ne]
    split <;> omega
  unfold tripUpdate
  simp only [destination_pos dest stop, stopDistance_eq, approach, Bool.false_eq_true, if_false,
    secured, if_true]
  rw [setHaulage_moving (by exact not_held_of_drives drives) (not_held_of_drives (boundState_drives _ _ _ _)), stallWatch, if_pos cap]
  exact ⟨_, rfl⟩

/-- What the reference part of an update changes in a trip: the haulage but for its direction, its plan and its lines, the
supervisor's accumulator, and the link by a STALLED report. -/
def State.Refers (s t : State) : Prop :=
  ∃ h o p, t = { s with hac := h, osp := o, slp := p } ∧ h.state ≠ .held ∧ h.tripDir = s.hac.tripDir ∧ h.plan = s.hac.plan ∧
    h.ready = s.hac.ready ∧ h.fault = s.hac.fault

theorem stallWatch_refers {p : LineFields} {cap v : Nat} {s t : State} (a : s.Refers t) : s.Refers (stallWatch p cap v t) := by
  obtain ⟨h, o, q, rfl, rest⟩ := a
  unfold stallWatch
  split
  · exact ⟨_, _, _, rfl, rest⟩
  · split
    · exact ⟨_, _, _, post_eq_taking _ _, rest⟩
    · exact ⟨_, _, _, rfl, rest⟩

/-- In a trip the update stays within those changes. -/
theorem referenceUpdate_refers {p : LineFields} {s : State} (loaded : s.line = some p) (drives : s.hac.state.drives = true) :
    s.Refers (referenceUpdate s) := by
  have moves := not_held_of_drives drives
  rw [referenceUpdate_drives loaded drives]
  split
  · rw [rampUpdate_eq drives]
    generalize (if s.allSecured = true then _ else 0) = v
    split
    · exact ⟨_, _, _, rfl, nofun, rfl, rfl, rfl, rfl⟩
    · exact ⟨_, _, _, rfl, moves, rfl, rfl, rfl, rfl⟩
  · unfold tripUpdate
    dsimp only
    split
    · rw [setHaulage_moving (by exact moves) (by decide)]
      exact ⟨_, _, _, rfl, nofun, rfl, rfl, rfl, rfl⟩
    · refine stallWatch_refers ?_
      rw [setHaulage_moving (by exact moves) (not_held_of_drives (boundState_drives _ _ _ _))]
      exact ⟨_, _, _, rfl, not_held_of_drives (boundState_drives _ _ _ _), rfl, rfl, rfl, rfl⟩

/-! ## The update in a trip (R33, R41, R42) -/

theorem sendWord_moving {s : State} (moves : s.hac.state ≠ .held) (loaded : s.line.isSome = true) :
    sendWord s = { s with hac := { s.hac with word := some { vRef := s.hac.vRef, dir := s.hac.tripDir } } } := by
  rw [sendWord, driveWordOf_moving moves loaded]

/-- The drive word does not speak of the link. -/
theorem sendWord_post (r : Report) (s : State) : sendWord (post r s) = post r (sendWord s) := by
  simp only [post_eq_taking]
  rfl

/-- While the cars run the update is the reference, the lines and the word. -/
theorem driveUpdate_running {ready fault : Bool} {s t : State} (e : referenceUpdate s = t) (runs : t.ptr.standstill = false) :
    driveUpdate cascade ready fault s = sendWord (readDriveLines cascade ready fault t) := by
  have settled : cascade .settle t = t := settleNow_running runs
  rw [driveUpdate, e, settled]

/-- A drive fault, or drive ready lost, first read while moving: the order and the report (R42). -/
theorem readDriveLines_bad {ready fault : Bool} {s t : State} (moves : s.hac.state ≠ .held)
    (good : s.hac.ready = true ∧ s.hac.fault = false) (bad : ready = false ∨ fault = true)
    (ordered : k (.orderStop .controlled .drive) { s with hac := { s.hac with ready := ready, fault := fault } } = t) :
    readDriveLines k ready fault s = post (.trip (tripReport t .drive s.hac.tripDir)) t := by
  subst ordered
  have changed : (fault && !s.hac.fault || !ready && s.hac.ready) = true := by
    rcases bad with rfl | rfl <;> simp [good]
  have dir := comingDir_moving (s := { s with hac := { s.hac with ready := ready, fault := fault } }) moves
  unfold readDriveLines
  dsimp only
  rw [if_pos (by simp [changed, State.moving, moves]), dir]

section
variable {s : State} {p : LineFields} (loaded : s.line = some p) (drives : s.hac.state.drives = true)
  (runs : s.ptr.standstill = false) (good : s.hac.ready = true ∧ s.hac.fault = false)
include loaded drives runs good

/-- An update with good lines in a trip: the reference and the word. -/
theorem driveUpdate_good : driveUpdate cascade true false s = sendWord (referenceUpdate s) := by
  obtain ⟨h, o, q, changed, -, -, -, ready, fault⟩ := referenceUpdate_refers loaded drives
  have lines : { h with ready := true, fault := false } = h := by
    cases h
    simp_all
  rw [driveUpdate_running changed runs, readDriveLines_quiet (.inl ⟨rfl, rfl⟩), changed]
  exact congrArg (fun h => sendWord { s with hac := h, osp := o, slp := q }) lines

variable {i : Nat} {r : StopRec} (no_ramp : s.hac.ramp = false) (dest : s.hac.dest = some i) (stop : s.stopAt? i = some r)
include no_ramp dest stop

/-- An update within the berthing tolerance of the destination. -/
theorem driveUpdate_berths (close : s.toStop r ≤ p.berthTol) : driveUpdate cascade true false s = { s with
    hac := { s.hac with state := .berthing, vRef := 0, word := some { vRef := 0, dir := s.hac.tripDir } }
    osp := { s.osp with acc := 0, ordered := false } } := by
  rw [driveUpdate_good loaded drives runs good, referenceUpdate_trip loaded drives no_ramp, tripUpdate_berths drives dest stop close,
    sendWord_moving (by nofun) (by exact Option.isSome_iff_exists.2 ⟨p, loaded⟩)]

/-- An update short of it, with a cap above 0. -/
theorem driveUpdate_runs (secured : s.allSecured = true) (away : p.berthTol < s.toStop r) (creeps : 0 < p.vCreep)
    (cap : 0 < s.speedCap p) : ∃ o,
    let v := rampedReference p s.hac.vRef (min (s.speedCap p) (approachSpeed p (s.toStop r))) s.osp.vPerm
    driveUpdate cascade true false s = { s with
      osp := o
      hac := { s.hac with
        state := boundState p (s.toStop r) (approachSpeed p (s.toStop r)) (s.speedCap p), stalled := false
        vRef := v, word := some { vRef := v, dir := s.hac.tripDir } } } := by
  obtain ⟨o, updated⟩ := tripUpdate_runs drives dest stop secured away creeps cap
  refine ⟨o, ?_⟩
  intro v
  rw [driveUpdate_good loaded drives runs good, referenceUpdate_trip loaded drives no_ramp, updated,
    sendWord_moving (by exact not_held_of_drives (boundState_drives _ _ _ _)) (by exact Option.isSome_iff_exists.2 ⟨p, loaded⟩)]

omit no_ramp dest stop

/-- An update of the controlled ramp (R38a). -/
theorem driveUpdate_ramps (ramp : s.hac.ramp = true) :
    let v := if s.allSecured = true then min (s.hac.vRef - p.aSs * 20 / 1000) s.osp.vPerm else 0
    let word : Option DriveWord := some { vRef := v, dir := s.hac.tripDir }
    driveUpdate cascade true false s = if v = 0 then { s with
        hac := { s.hac with state := .stopping, vRef := v, ramp := false, word := word }, osp := { s.osp with acc := 0, ordered := false } }
      else { s with hac := { s.hac with vRef := v, word := word } } := by
  have is_loaded : s.line.isSome = true := Option.isSome_iff_exists.2 ⟨p, loaded⟩
  dsimp only
  rw [driveUpdate_good loaded drives runs good, referenceUpdate_ramp loaded drives ramp, rampUpdate_eq drives]
  generalize (if s.allSecured = true then _ else 0) = v
  split
  · rename_i ended
    rw [sendWord_moving (by nofun) (by exact is_loaded), ended]
  · rw [sendWord_moving (by exact not_held_of_drives drives) (by exact is_loaded)]

end

/-! ## A drive fault while moving (R42, R74) -/

/-- A brake lifting or RELEASED whose command becomes APPLY sets with its response timer, where it does not read applied (R70). -/
theorem commanded_sets {r : BrakeRec} {x : Reading} {bound : Timer} (cmd : r.cmd = .release)
    (state : r.state = .lifting ∨ r.state = .released) (unapplied : x ≠ .applied) :
    r.commanded .apply x bound = { cmd := .apply, state := .setting, timer := bound } := by
  rcases state with lifting | released
  · simp [BrakeRec.commanded, cmd, BrakeRec.commandApply, lifting, unapplied]
  · simp [BrakeRec.commanded, cmd, BrakeRec.commandApply, released, unapplied]

/-- A CONTROLLED order while SB lifts for a departure: STOPPING at once, and SB setting (R32, R75). -/
theorem controlled_lifting {n : Nat} {cause : StopCause} {s : State} (releasing : s.hac.state = .releasing) (empty : s.bsq.stop = none)
    (no_test : s.bsq.test = none) (runs : s.ptr.standstill = false) (lifting : (s.brake .sb).state = .lifting)
    (cmd : (s.brake .sb).cmd = .release) (unapplied : s.reading .sb ≠ .applied) (not_warming : s.lmu.mode ≠ .warming) :
    ∃ q, run (n + 3) (.orderStop .controlled cause) s = { s with
      hac := { s.hac with state := .stopping, vRef := 0, ramp := false }, osp := { s.osp with acc := 0, ordered := false }, slp := q
      bsq := { s.bsq with
        stop := some (s.controlledRecord cause)
        recs := s.bsq.recs.set .sb { cmd := .apply, state := .setting, timer := s.line.map LineFields.tSbResp } } } := by
  have order : run (n + 3) (.orderStop .controlled cause) s = _ :=
    orderStopNow_taken (k := run (n + 2)) (kind := .controlled) empty (abortTestNow_none no_test)
  let stopped : State := { s with
    hac := { s.hac with state := .stopping, vRef := 0, ramp := false }, osp := { s.osp with acc := 0, ordered := false }
    bsq := { s.bsq with stop := some (s.controlledRecord cause) } }
  let braked : State := { stopped with bsq := { stopped.bsq with
    recs := s.bsq.recs.set .sb { cmd := .apply, state := .setting, timer := s.line.map LineFields.tSbResp } } }
  have haulage : haulageOnStop .controlled { s with bsq := { s.bsq with stop := some (s.controlledRecord cause) } } = stopped := by
    have stops := enterStopping_moving (s := { s with bsq := { s.bsq with stop := some (s.controlledRecord cause) } })
      (by show s.hac.state ≠ .held; rw [releasing]; decide)
    rw [if_neg (by show s.hac.state ≠ .stopping; rw [releasing]; decide)] at stops
    simp only [haulageOnStop, releasing]
    exact stops
  have commands : stopCommands .controlled stopped = braked := by
    have lifts : ((stopped.brake .sb).state == .lifting) = true := beq_iff_eq.2 lifting
    have sets : (s.brake .sb).commanded .apply (s.reading .sb) (s.respBound .sb) = _ := commanded_sets cmd (.inl lifting) unapplied
    exact (if_pos lifts).trans (congrArg (stopped.setBrake .sb) sets)
  rw [show s.firstCheck .controlled = .absent from rfl, haulage, commands, setLatch_controlled, emergencyMode_controlled,
    post_eq_taking] at order
  generalize Link.taking _ _ = q at order
  have still := brakesChangedNow_still (k := run (n + 1)) (s := { braked with slp := q }) nofun nofun (settleNow_running runs)
    no_test not_warming
  rw [handOverBrakes_still (by exact still)] at order
  exact ⟨q, order.trans (settleNow_running runs)⟩

/-- A drive fault, or drive ready lost, first read at an update while moving, with the CONTROLLED order that it gives. -/
theorem driveUpdate_fault {s t u : State} {ready fault : Bool} (e : referenceUpdate s = t) (runs : t.ptr.standstill = false)
    (moves : t.hac.state ≠ .held) (good : t.hac.ready = true ∧ t.hac.fault = false) (bad : ready = false ∨ fault = true)
    (ordered : cascade (.orderStop .controlled .drive) { t with hac := { t.hac with ready := ready, fault := fault } } = u) :
    driveUpdate cascade ready fault s = post (.trip (tripReport u .drive t.hac.tripDir)) (sendWord u) := by
  rw [driveUpdate_running e runs, readDriveLines_bad moves good bad ordered, sendWord_post]

/-- Settles O33: a trip by its distance to the stop, a ramp by its step, and a drive fault by the stop that it finds. -/
theorem tripUpdateSetsReference : Obligations.TripUpdateSetsReference := by
  refine ⟨fun s p i r running loaded drives no_ramp dest stop _ runs secured ready fault => ?_,
    fun s p running loaded drives ramp runs ready fault => ?_,
    fun s ready fault running moves was_ready no_fault bad idle runs loaded => ⟨fun stopping => ?_, ?_⟩,
    fun s p ready fault running loaded drives runs was_ready no_fault bad => ?_⟩
  · intro dStop vApp cruise vCap vTgt v
    refine ⟨fun close => ?_, fun away creeps cap => ?_⟩
    · exact ⟨_, exec_driveReferenceUpdate running (driveUpdate_berths (s := { s with overrun := false }) loaded drives runs
        ⟨ready, fault⟩ no_ramp dest stop close) rfl, rfl, rfl, rfl, rfl, rfl, rfl⟩
    · obtain ⟨o, updated⟩ := driveUpdate_runs (s := { s with overrun := false }) loaded drives runs ⟨ready, fault⟩ no_ramp
        dest stop secured away creeps cap
      have approach : approachSpeed p (s.toStop r) = vApp := if_neg (Nat.not_le.2 away)
      have bound : boundState p (s.toStop r) vApp vCap =
          if dStop ≤ p.dCreep then .creeping else if vApp < vCap then .approaching else .motoring := by
        unfold boundState
        simp only [show p.berthTol < s.toStop r from away, true_and]
        rfl
      rw [show approachSpeed p (State.toStop { s with overrun := false } r) = vApp from approach,
        show boundState p (State.toStop { s with overrun := false } r) vApp (State.speedCap { s with overrun := false } p) = _ from
          bound] at updated
      exact ⟨_, exec_driveReferenceUpdate running updated rfl, rfl, rfl, rfl, rfl, rfl, rfl⟩
  · have updated := driveUpdate_ramps (s := { s with overrun := false }) loaded drives runs ⟨ready, fault⟩ ramp
    intro v now
    refine ⟨fun moves => ?_, fun ends => ?_⟩
    · exact exec_driveReferenceUpdate running (updated.trans (if_neg moves)) rfl
    · exact exec_driveReferenceUpdate running (updated.trans (if_pos ends)) rfl
  · have updated := driveUpdate_fault (s := { s with overrun := false }) (referenceUpdate_idle idle) runs moves
      ⟨was_ready, no_fault⟩ bad (controlled_absorbed stopping)
    rw [sendWord_moving (by exact moves) (by exact loaded)] at updated
    exact exec_driveReferenceUpdate running updated (by rw [post_overrun])
  · intro releasing no_ramp empty no_test lifting cmd unapplied not_warming stop sb
    obtain ⟨q, ordered⟩ := controlled_lifting (n := 61) (cause := .drive)
      (s := { s with overrun := false, hac := { s.hac with ready := ready, fault := fault } }) releasing empty no_test runs lifting cmd
      unapplied not_warming
    have updated := driveUpdate_fault (s := { s with overrun := false }) (referenceUpdate_idle idle) runs moves
      ⟨was_ready, no_fault⟩ bad ordered
    rw [sendWord_moving (by nofun) (by exact loaded), post_eq_taking] at updated
    refine ⟨_, exec_driveReferenceUpdate running updated rfl, ?_⟩
    rw [show (false : Bool) = s.hac.ramp from no_ramp.symm]
  · intro ordered
    have refers := referenceUpdate_refers (s := { s with overrun := false }) loaded drives
    generalize e : referenceUpdate { s with overrun := false } = t at refers
    obtain ⟨h, o, q, rfl, moves, dir, plan, ready_kept, fault_kept⟩ := refers
    have good := driveUpdate_good (s := { s with overrun := false }) loaded drives runs ⟨was_ready, no_fault⟩
    have lines : h.ready = true ∧ h.fault = false := ⟨ready_kept.trans was_ready, fault_kept.trans no_fault⟩
    rw [e] at good
    refine ⟨_, exec_driveReferenceUpdate running good rfl, fun stopping => ?_, fun empty u_drives u_moves no_test grounded => ?_⟩
    · have updated := driveUpdate_fault (s := { s with overrun := false }) e runs moves lines bad (controlled_absorbed stopping)
      refine (exec_driveReferenceUpdate running updated (by rw [post_overrun]; rfl)).trans ?_
      rw [← dir, ← plan]
      rfl
    · obtain ⟨p', taken⟩ := controlled_taken (n := 62) (cause := .drive)
        (s := { s with overrun := false, hac := { h with ready := ready, fault := fault }, osp := o, slp := q }) empty no_test runs
        grounded (.inr ⟨u_drives, u_moves⟩)
      have updated := driveUpdate_fault (s := { s with overrun := false }) e runs moves lines bad taken
      rw [post_eq_taking] at updated
      refine ⟨_, exec_driveReferenceUpdate running updated rfl, ?_⟩
      rw [if_neg (ne_of_drives (by exact u_drives) rfl)]
      rfl

end Sys2Proof.Machine
end

section
/-! SUPPORT. BRAKE stops, and a car that falls silent. -/

namespace Sys2Proof.Machine

/-! ## BRAKE and EMERGENCY stops as the haulage meets them (R39, R62) -/

/-- The haulage and the supervisor after a BRAKE or EMERGENCY order: as they were in HELD and STOPPING, else STOPPING with the
reference at 0; the level and v_perm stand. -/
structure State.Halted (s : State) (h : Haulage) (o : Supervisor) : Prop where
  stays : s.hac.state = .held ∨ s.hac.state = .stopping → h = s.hac ∧ o = s.osp
  stops : s.hac.state ≠ .held → h.state = .stopping
  zero : s.hac.state ≠ .held → s.hac.state ≠ .stopping → h.vRef = 0
  level : o.level = s.osp.level
  vPerm : o.vPerm = s.osp.vPerm

/-- A halted line neither waits for a lift nor for a berth. -/
theorem State.Halted.idle {s : State} {h : Haulage} {o : Supervisor} (halted : s.Halted h o) :
    h.state ≠ .releasing ∧ h.state ≠ .berthing := by
  by_cases at_rest : s.hac.state = .held
  · rw [(halted.stays (.inl at_rest)).1, at_rest]
    decide
  · rw [halted.stops at_rest]
    decide

theorem haulageOnStop_halts {kind : StopKind} {s : State} (hard : kind ≠ .controlled) :
    ∃ h o, haulageOnStop kind s = { s with hac := h, osp := o } ∧ s.Halted h o := by
  have stays : s.hac.state = .held ∨ s.hac.state = .stopping → haulageOnStop kind s = s := by
    unfold haulageOnStop
    rintro (rest | rest) <;> rw [rest] <;> cases kind <;> rfl
  have enters : s.hac.state ≠ .held → s.hac.state ≠ .stopping → haulageOnStop kind s = sendWord (enterStopping s) := by
    unfold haulageOnStop
    cases kind
    case controlled => exact absurd rfl hard
    all_goals cases state : s.hac.state <;> simp
  by_cases held : s.hac.state = .held
  · exact ⟨s.hac, s.osp, stays (.inl held), fun _ => ⟨rfl, rfl⟩, fun no => absurd held no, fun no => absurd held no, rfl, rfl⟩
  · by_cases stopping : s.hac.state = .stopping
    · exact ⟨s.hac, s.osp, stays (.inr stopping), fun _ => ⟨rfl, rfl⟩, fun _ => stopping, fun _ no => absurd stopping no, rfl, rfl⟩
    · rw [enters held stopping, enterStopping_moving held, if_neg stopping]
      exact ⟨_, _, rfl, fun rest => absurd rest (not_or.2 ⟨held, stopping⟩), fun _ => rfl, fun _ _ => rfl, rfl, rfl⟩

/-- The record of a BRAKE stop taken at a state (R74, R76). -/
abbrev State.brakeRecord (s : State) (cause : StopCause) : StopRecord :=
  { kind := .brake, cause := cause, x := s.ptr.x, vMeas := s.ptr.vMeas, check := s.firstCheck .brake }

/-- A BRAKE order while the cars run, with no stop in progress and no test, and in WARMING with SB commanded APPLY already: the record,
the haulage halted and SB commanded APPLY (R39, R76). -/
theorem brake_order {n : Nat} {cause : StopCause} {s : State} (empty : s.bsq.stop = none) (no_test : s.bsq.test = none)
    (runs : s.ptr.standstill = false) (unwarmed : s.lmu.mode = .warming → (s.brake .sb).cmd = .apply) :
    ∃ h o r q, run (n + 3) (.orderStop .brake cause) s = { s with
        hac := h, osp := o, slp := q
        bsq := { s.bsq with recs := s.bsq.recs.set .sb r, stop := some (s.brakeRecord cause) } } ∧
      s.Halted h o ∧ r.cmd = .apply := by
  have order : run (n + 3) (.orderStop .brake cause) s = _ :=
    orderStopNow_taken (k := run (n + 2)) (kind := .brake) empty (abortTestNow_none no_test)
  obtain ⟨h, o, haulage, halted⟩ := haulageOnStop_halts (kind := .brake) (by decide)
    (s := { s with bsq := { s.bsq with stop := some (s.brakeRecord cause) } })
  dsimp only at order
  rw [haulage, post_eq_taking] at order
  generalize Link.taking _ _ = q at order
  let r := (s.brake .sb).commanded .apply (s.reading .sb) (s.respBound .sb)
  let braked : State := { s with
    hac := h, osp := o, slp := q, bsq := { s.bsq with recs := s.bsq.recs.set .sb r, stop := some (s.brakeRecord cause) } }
  have settled : run (n + 2) .settle braked = braked := settleNow_running runs
  have handed : handOverBrakes (run (n + 2)) s.brakeStates braked = braked := by
    by_cases warming : s.lmu.mode = .warming
    · have same : r = s.brake .sb := if_pos (unwarmed warming)
      have unmoved : braked.brakeStates = s.brakeStates := by
        show ((s.setBrake .sb r).brakeStates) = _
        rw [same, setBrake_self]
      exact if_pos unmoved
    · exact handOverBrakes_still (brakesChangedNow_still (k := run (n + 1)) halted.idle.1 halted.idle.2 (settleNow_running runs)
        no_test warming)
  exact ⟨h, o, r, q, order.trans ((congrArg (run (n + 2) .settle) handed).trans settled), { halted with }, commanded_cmd _ _ _ _⟩

/-! ## A side of a car that leaves FRESH (R37, R107, R121) -/

/-- A side after its car has left FRESH (R121). -/
def DoorSide.unproved (r : DoorSide) : DoorSide := if r.state = .fault then r else r.unproven

/-- A side that becomes UNPROVEN, before the interlock watch: the reference is 0 if it was SECURED (R37). -/
theorem sideTaken_unproven {c : Car} {d : Side} {r : DoorSide} {event : DoorEvent} {cause : Option DoorCause} {s : State}
    (unproven : r.state = .unproven) : ∃ q, sideTaken c d r event cause s = { s.setSide c d r with
      hac := if (s.side c d).state = .secured then s.referenceZero.hac else s.hac, slp := q } := by
  have not_released : (r.state == .released) = false := by rw [unproven]; rfl
  have not_secured : (r.state != .secured) = true := by rw [unproven]; rfl
  simp only [sideTaken, doorReport, not_released, not_secured, Bool.and_true, Bool.false_eq_true, if_false, beq_iff_eq, post_eq_taking]
  split
  · exact ⟨_, rfl⟩
  · exact ⟨_, rfl⟩

/-- With no window OPEN nothing follows a side that becomes UNPROVEN (R149). -/
theorem sideFollows_unproven {k : Hand} {c : Car} {old r : DoorSide} {s : State} (unproven : r.state = .unproven)
    (none_open : s.noneOpen) : sideFollows k c old r s = s := by
  have not_released : (r.state == .released) = false := by rw [unproven]; rfl
  simp only [sideFollows, not_released, Bool.and_false, Bool.false_and, Bool.false_eq_true, if_false, sealUnreleased_none none_open]

/-- The state after a side's car has left FRESH and before the interlock watch: the side, the reference and the link. -/
def State.Unproves (s : State) (c : Car) (d : Side) (u : State) : Prop :=
  ∃ q, u = { s.setSide c d (s.side c d).unproved with
    hac := if (s.side c d).state = .secured then s.referenceZero.hac else s.hac, slp := q }

theorem unproveSide_fault {k : Hand} {c : Car} {d : Side} {s : State} (fault : (s.side c d).state = .fault) :
    unproveSide k c d s = s := by
  simp only [unproveSide, fault]

theorem unproveSide_unproven {k : Hand} {c : Car} {d : Side} {s : State} (unproven : (s.side c d).state = .unproven) :
    unproveSide k c d s = s.setSide c d (s.side c d).unproven := by
  simp only [unproveSide, unproven]

theorem unproveSide_proven {k : Hand} {c : Car} {d : Side} {s : State} (not_fault : (s.side c d).state ≠ .fault)
    (not_unproven : (s.side c d).state ≠ .unproven) :
    unproveSide k c d s = k (.sideTo c d (s.side c d).unproven .unproven (some .link)) s := by
  unfold unproveSide
  dsimp only
  split
  case h_1 fault => exact absurd fault not_fault
  case h_2 unproven => exact absurd unproven not_unproven
  all_goals rfl

/-- A side whose car leaves FRESH: FAULT and UNPROVEN set nothing off, and any other state has the interlock watch consulted
(R107, R121). -/
theorem unproveSide_cases {n : Nat} {c : Car} {d : Side} {s : State}
    (kept : ∀ u, s.Unproves c d u → (run n .interlock u).glm = u.glm) (none_open : s.noneOpen) :
    ∃ u, s.Unproves c d u ∧
      (unproveSide (run (n + 1)) c d s = u ∨ unproveSide (run (n + 1)) c d s = run n .interlock u) := by
  by_cases fault : (s.side c d).state = .fault
  · refine ⟨s, ⟨s.slp, ?_⟩, .inl (unproveSide_fault fault)⟩
    rw [DoorSide.unproved, if_pos fault, if_neg (by rw [fault]; decide), setSide_self]
  by_cases unproven : (s.side c d).state = .unproven
  · refine ⟨_, ⟨s.slp, ?_⟩, .inl (unproveSide_unproven unproven)⟩
    rw [DoorSide.unproved, if_neg fault, if_neg (by rw [unproven]; decide)]
    rfl
  · obtain ⟨q, taken⟩ := sideTaken_unproven (c := c) (d := d) (r := (s.side c d).unproven) (event := .unproven) (cause := some .link)
      (s := s) rfl
    generalize e : sideTaken c d (s.side c d).unproven .unproven (some .link) s = u at taken
    have unproves : s.Unproves c d u := ⟨q, by rw [DoorSide.unproved, if_neg fault]; exact taken⟩
    have quiet : (run n .interlock u).noneOpen := by
      intro g
      rw [State.window, kept u unproves, taken]
      exact none_open g
    refine ⟨u, unproves, .inr ?_⟩
    rw [unproveSide_proven fault unproven, run_succ, act, sideToNow_eq, e, sideFollows_unproven rfl quiet]

theorem State.Unproves.dru {s u : State} {c : Car} {d : Side} (a : s.Unproves c d u) :
    u.dru = (s.setSide c d (s.side c d).unproved).dru := by
  obtain ⟨_, rfl⟩ := a
  rfl

/-- While the line is undisturbed the side is all that changes, with the reference and the link. -/
theorem unproveSide_calm {n : Nat} {c : Car} {d : Side} {s : State} (calm : s.undisturbed) :
    s.Unproves c d (unproveSide (run (n + 2)) c d s) := by
  have uncut : ∀ u, s.Unproves c d u → run (n + 1) .interlock u = u := by
    rintro u ⟨q, rfl⟩
    exact (run_succ n .interlock _).trans (interlockNow_applied calm.1)
  obtain ⟨u, unproves, e | e⟩ := unproveSide_cases (n := n + 1) (c := c) (d := d) (fun u a => by rw [uncut u a]) calm.2.1
  · rw [e]
    exact unproves
  · rw [e, uncut u unproves]
    exact unproves

/-- Both sides of a car, whatever else has changed between them. -/
theorem side_unproved {s u v : State} {c : Car} (first : u.dru = (s.setSide c .left (s.side c .left).unproved).dru)
    (second : v.dru = (u.setSide c .right (u.side c .right).unproved).dru) :
    (∀ d, v.side c d = (s.side c d).unproved) ∧ ∀ d, v.side c.other d = s.side c.other d := by
  simp only [State.side, second, setSide_dru, first]
  cases c <;> exact ⟨fun d => by cases d <;> rfl, fun d => by cases d <;> rfl⟩

/-- The reference after both sides of a car: 0 if one was SECURED (R37). -/
theorem referenceZero_unproved {s u v : State} {c : Car} {d : Side} (first : s.Unproves c .left u) (second : u.Unproves c .right v)
    (secured : (s.side c d).state = .secured) : v.hac = s.referenceZero.hac := by
  have right_kept : u.side c .right = s.side c .right := by
    rw [State.side, first.dru]
    cases c <;> rfl
  obtain ⟨p, rfl⟩ := first
  obtain ⟨q, rfl⟩ := second
  dsimp only
  rw [right_kept]
  by_cases right : (s.side c .right).state = .secured
  · rw [if_pos right]
    unfold State.referenceZero
    dsimp only
    split <;> rfl
  · have left : (s.side c .left).state = .secured := by
      cases d
      · exact secured
      · exact absurd secured right
    rw [if_neg right, if_pos left]

/-! ## A car that falls STALE (R37, R94, R121) -/

/-- The state of a car that has become STALE, its report posted. -/
def State.staled (s : State) (c : Car) : State :=
  carLinkReport c .freshness .fresh none (s.setCar c { s.car c with freshness := .stale })

theorem staled_eq (s : State) (c : Car) :
    ∃ q, s.staled c = { s.setCar c { s.car c with freshness := .stale } with slp := q } :=
  ⟨_, post_eq_taking _ _⟩

/-- A FRESH car that becomes STALE: its sides, the interlock watch and a warming (R94). -/
theorem freshnessNow_stale {k : Hand} {c : Car} {s : State} (fresh : (s.car c).freshness = .fresh) : freshnessNow k c .stale s =
    warmingCheck k (k .interlock (unproveSide k c .right (unproveSide k c .left (s.staled c)))) := by
  unfold freshnessNow
  dsimp only
  rw [fresh, if_neg (by decide)]
  rfl

/-- A car that falls STALE on a line undisturbed by it: its sides become UNPROVEN. -/
theorem freshnessNow_stale_calm {n : Nat} {c : Car} {s : State} (fresh : (s.car c).freshness = .fresh) (calm : s.undisturbed) :
    ∃ u, (s.staled c).Unproves c .left u ∧ u.Unproves c .right (freshnessNow (run (n + 2)) c .stale s) := by
  obtain ⟨p, staled⟩ := staled_eq s c
  have first := unproveSide_calm (n := n) (c := c) (d := .left) (s := s.staled c) (by rw [staled]; exact calm)
  generalize e : unproveSide (run (n + 2)) c .left (s.staled c) = u at first
  have calm_left : u.undisturbed := by
    obtain ⟨q, rfl⟩ := first
    rw [staled]
    exact calm
  have second := unproveSide_calm (n := n) (c := c) (d := .right) calm_left
  refine ⟨u, first, ?_⟩
  rw [freshnessNow_stale fresh, e]
  generalize unproveSide (run (n + 2)) c .right u = v at second ⊢
  have calm_right : v.undisturbed := by
    obtain ⟨q, rfl⟩ := second
    exact calm_left
  rw [run_succ, act, interlockNow_applied calm_right.1, warmingCheck_elsewhere calm_right.2.2]
  exact second

/-! ## A car that falls STALE under way (R73, R76) -/

/-- A trip under way that a stale car cuts: SB commanded RELEASE, the cars running, nothing else in progress. -/
structure State.Cuttable (s : State) : Prop where
  trip : s.hac.state.drives = true ∨ s.hac.state = .berthing
  released : (s.brake .sb).cmd = .release
  empty : s.bsq.stop = none
  no_test : s.bsq.test = none
  runs : s.ptr.standstill = false
  none_open : s.noneOpen
  not_warming : s.lmu.mode ≠ .warming
  stale : s.bothFresh = false

/-- The BRAKE stop with cause INTERLOCK on such a line (R73, R76). -/
def State.CutBy (s : State) (h : Haulage) (b : Brakes) : Prop :=
  h.state = .stopping ∧ h.vRef = 0 ∧ ∃ r : BrakeRec, r.cmd = .apply ∧ b = { s.bsq with
    recs := s.bsq.recs.set .sb r
    stop := some { kind := .brake, cause := .interlock, x := s.ptr.x, vMeas := s.ptr.vMeas
                   check := .running (s.line.map LineFields.tCheck) } }

/-- What the sides of a stale car and the interlock watch change under way: the doors, the haulage, the brakes and the link, either
before the watch has cut the trip or after it. -/
def State.Silences (s u : State) : Prop :=
  ∃ d h o b q, u = { s with dru := d, hac := h, osp := o, bsq := b, slp := q } ∧ ((h.state = s.hac.state ∧ b = s.bsq) ∨ s.CutBy h b)

/-- A side that becomes UNPROVEN leaves the trip as far as it was. -/
theorem silences_unproves {s u v : State} {c : Car} {d : Side} (silenced : s.Silences u) (a : u.Unproves c d v) : s.Silences v := by
  obtain ⟨_, h, _, b, _, rfl, phase⟩ := silenced
  obtain ⟨q, rfl⟩ := a
  refine ⟨_, _, _, _, _, rfl, ?_⟩
  split
  · exact phase.imp id (fun cut => ⟨cut.1, rfl, cut.2.2⟩)
  · exact phase

theorem interlockHolds_stale {s : State} (stale : s.bothFresh = false) : s.interlockHolds = false := by
  rw [State.interlockHolds, stale, Bool.and_false]

section
variable {s : State} (cuttable : s.Cuttable)
include cuttable

/-- The interlock watch cuts the trip, or finds it cut (R73). -/
theorem interlock_cuts {n : Nat} {u : State} (silenced : s.Silences u) : ∃ h o b q,
    run (n + 4) .interlock u = { s with dru := u.dru, hac := h, osp := o, bsq := b, slp := q } ∧ s.CutBy h b := by
  obtain ⟨d, h, o, b, q, rfl, ⟨state, rfl⟩ | cut⟩ := silenced
  · obtain ⟨h', o', r, q', ordered, halted, applied⟩ := brake_order (n := n) (cause := .interlock)
      (s := { s with dru := d, hac := h, osp := o, slp := q }) cuttable.empty cuttable.no_test cuttable.runs
      (fun warming => absurd warming cuttable.not_warming)
    have trip : h.state ≠ .held ∧ h.state ≠ .stopping ∧ h.state ≠ .releasing := by
      rw [state]
      rcases cuttable.trip with drives | berthing
      · exact ⟨ne_of_drives drives rfl, ne_of_drives drives rfl, ne_of_drives drives rfl⟩
      · rw [berthing]
        decide
    have check : State.firstCheck { s with dru := d, hac := h, osp := o, slp := q } .brake = .running (s.line.map LineFields.tCheck) := by
      simp [State.firstCheck, State.isHeld, State.bound, cuttable.runs, trip]
    have cuts : ((s.brake .sb).cmd == .release && !State.interlockHolds { s with dru := d, hac := h, osp := o, slp := q }) = true := by
      rw [cuttable.released, interlockHolds_stale (by exact cuttable.stale)]
      rfl
    have commanded := commandBrake_same (k := run (n + 2)) (b := .sb) (c := .apply)
      (s := { s with
        dru := d, hac := h', osp := o', slp := q'
        bsq := { s.bsq with
          recs := s.bsq.recs.set .sb r
          stop := some (State.brakeRecord { s with dru := d, hac := h, osp := o, slp := q } .interlock) } }) applied
    refine ⟨h', o', _, q', ?_, halted.stops trip.1, halted.zero trip.1 trip.2.1, r, applied, rfl⟩
    rw [← check, run_succ, act, interlockNow, if_pos (by exact cuts), if_pos (moving_iff.2 (by exact trip.1)), ordered, run_succ, act,
      commanded]
  · obtain ⟨state, reference, r, applied, rfl⟩ := cut
    refine ⟨h, o, _, q, ?_, state, reference, r, applied, rfl⟩
    rw [run_succ, act, interlockNow_applied (by exact applied)]

/-- A side of the stale car, with the interlock watch that it has consulted. -/
theorem unproveSide_silences {n : Nat} {c : Car} {d : Side} {u : State} (silenced : s.Silences u) :
    s.Silences (unproveSide (run (n + 5)) c d u) ∧
      (unproveSide (run (n + 5)) c d u).dru = (u.setSide c d (u.side c d).unproved).dru := by
  have glm : u.glm = s.glm := by
    obtain ⟨_, _, _, _, _, rfl, _⟩ := silenced
    rfl
  have kept : ∀ v, u.Unproves c d v → (run (n + 4) .interlock v).glm = v.glm := by
    intro v a
    obtain ⟨_, _, _, _, cut, _⟩ := interlock_cuts cuttable (n := n) (silences_unproves silenced a)
    obtain ⟨_, rfl⟩ := a
    rw [cut]
    exact glm.symm
  have none_open : u.noneOpen := by
    intro g
    rw [State.window, glm]
    exact cuttable.none_open g
  obtain ⟨v, unproves, e | e⟩ := unproveSide_cases kept none_open
  · rw [e]
    exact ⟨silences_unproves silenced unproves, unproves.dru⟩
  · obtain ⟨h, o, b, q, cut, by_stop⟩ := interlock_cuts cuttable (n := n) (silences_unproves silenced unproves)
    rw [e, cut]
    exact ⟨⟨_, _, _, _, _, rfl, .inr by_stop⟩, unproves.dru⟩

end

/-- A line whose SB lifts a trip is cut when one of its cars falls STALE (R73, R76, R94). -/
theorem freshnessNow_stale_cuts {n : Nat} {c : Car} {s : State} (fresh : (s.car c).freshness = .fresh) (cuttable : (s.staled c).Cuttable) :
    ∃ h o b q, (s.staled c).CutBy h b ∧ freshnessNow (run (n + 5)) c .stale s = { s.staled c with
      dru := (freshnessNow (run (n + 5)) c .stale s).dru, hac := h, osp := o, bsq := b, slp := q } ∧
      (∀ d, (freshnessNow (run (n + 5)) c .stale s).side c d = (s.side c d).unproved) ∧
      ∀ d, (freshnessNow (run (n + 5)) c .stale s).side c.other d = s.side c.other d := by
  have sides : ∀ e d, (s.staled c).side e d = s.side e d := by
    intro e d
    obtain ⟨_, staled⟩ := staled_eq s c
    rw [staled]
    rfl
  have start : (s.staled c).Silences (s.staled c) := ⟨_, _, _, _, _, rfl, .inl ⟨rfl, rfl⟩⟩
  obtain ⟨silent_left, left⟩ := unproveSide_silences (n := n) (c := c) (d := .left) cuttable start
  obtain ⟨silent_right, right⟩ := unproveSide_silences (n := n) (c := c) (d := .right) cuttable silent_left
  have both := side_unproved left right
  obtain ⟨h, o, b, q, cut, stopped⟩ := interlock_cuts (n := n + 1) cuttable silent_right
  rw [freshnessNow_stale fresh, cut, warmingCheck_elsewhere (by exact cuttable.not_warming)]
  simp only [sides] at both
  exact ⟨h, o, b, q, stopped, rfl, both⟩

/-! ## A car that falls LOST (R94) -/

/-- A STALE car that becomes LOST: the count, the report, the interlock watch and a warming, and the stop of a moving line. -/
theorem freshnessNow_lost {k : Hand} {c : Car} {s u : State} (stale : (s.car c).freshness = .stale)
    (e : warmingCheck k (k .interlock (carLinkReport c .freshness .stale none
      (bumpHealth k (linkCounter c) 1 (s.setCar c { s.car c with freshness := .lost })))) = u) :
    freshnessNow k c .lost s = if u.moving then k (.orderStop .controlled .link) u else u := by
  have changes : (Freshness.stale == .lost) = false ∧ (Freshness.lost == .never) = false ∧ (Freshness.lost == .lost) = true := by decide
  simp only [freshnessNow, stale, changes, doorsOnFreshness, Bool.true_and, Bool.false_eq_true, if_false, if_true, e]

/-- The state of a car that has become LOST, the loss counted, before its report (R94, R179). -/
def State.lostNow (s : State) (c : Car) : State := State.setCar (s.counted (linkCounter c) 1) c { s.car c with freshness := .lost }

/-- On an undisturbed line a loss that crosses no threshold is counted and reported, and nothing follows it but the stop of a moving
line. -/
theorem freshnessNow_lost_calm {n : Nat} {c : Car} {s : State} (stale : (s.car c).freshness = .stale) (calm : s.undisturbed)
    (uncrossed : s.uncrossed (linkCounter c) 1) : ∃ q, freshnessNow (run (n + 1)) c .lost s =
      if s.moving then run (n + 1) (.orderStop .controlled .link) { s.lostNow c with slp := q } else { s.lostNow c with slp := q } := by
  have bumped : bumpHealth (run (n + 1)) (linkCounter c) 1 (s.setCar c { s.car c with freshness := .lost }) = s.lostNow c :=
    bumpHealth_uncrossed uncrossed
  have lost := freshnessNow_lost (k := run (n + 1)) stale rfl
  rw [bumped, carLinkReport, post_eq_taking] at lost
  generalize Link.taking _ _ = q at lost
  have uncut : run (n + 1) .interlock { s.lostNow c with slp := q } = { s.lostNow c with slp := q } :=
    (run_succ n .interlock _).trans (interlockNow_applied calm.1)
  rw [uncut, warmingCheck_elsewhere (by exact calm.2.2)] at lost
  exact ⟨q, lost⟩

/-! ## The two timeouts (R94) -/

/-- CAR_STALE_TIMEOUT of a FRESH car. -/
theorem exec_carStaleTimeout_fresh {c : Car} {s t : State} (running : s.isRunning) (fresh : s.isFresh c = true)
    (e : freshnessNow (run 63) c .stale { s with overrun := false } = t) (clear : t.overrun = false) :
    exec (.carStaleTimeout c) s = .next t := by
  subst e
  have expires : (if (s.car c).freshness == .fresh then cascade (.freshness c .stale) { s with overrun := false }
      else { s with overrun := false }) = freshnessNow (run 63) c .stale { s with overrun := false } := if_pos fresh
  exact (whileRunning_next running (by exact (congrArg State.overrun expires).trans clear)).trans (congrArg _ expires)

/-- CAR_STALE_TIMEOUT of a car that is not FRESH does nothing. -/
theorem exec_carStaleTimeout_unfresh {c : Car} {s : State} (running : s.isRunning) (unfresh : s.isFresh c = false) :
    exec (.carStaleTimeout c) s = .next { s with overrun := false } := by
  have idle : ¬((s.car c).freshness == .fresh) = true := ne_true_of_eq_false unfresh
  exact (whileRunning_next running (by exact congrArg State.overrun (if_neg idle))).trans (congrArg _ (if_neg idle))

/-- CAR_LOST_TIMEOUT of a STALE car. -/
theorem exec_carLostTimeout_stale {c : Car} {s t : State} (running : s.isRunning) (stale : (s.car c).freshness = .stale)
    (e : freshnessNow (run 63) c .lost { s with overrun := false } = t) (clear : t.overrun = false) :
    exec (.carLostTimeout c) s = .next t := by
  subst e
  have expires : (if (s.car c).freshness == .stale then cascade (.freshness c .lost) { s with overrun := false }
      else { s with overrun := false }) = freshnessNow (run 63) c .lost { s with overrun := false } := if_pos (beq_iff_eq.2 stale)
  exact (whileRunning_next running (by exact (congrArg State.overrun expires).trans clear)).trans (congrArg _ expires)

/-- CAR_LOST_TIMEOUT of a car that is not STALE does nothing. -/
theorem exec_carLostTimeout_unstale {c : Car} {s : State} (running : s.isRunning) (unstale : (s.car c).freshness ≠ .stale) :
    exec (.carLostTimeout c) s = .next { s with overrun := false } := by
  have idle : ¬((s.car c).freshness == .stale) = true := by simpa using unstale
  exact (whileRunning_next running (by exact congrArg State.overrun (if_neg idle))).trans (congrArg _ (if_neg idle))

/-- Settles O41: a car falls STALE on a line undisturbed by it, or under way, and LOST on a line at rest, or under way; each timeout
minds the freshness that it belongs to. -/
theorem silenceUnprovesCar : Obligations.SilenceUnprovesCar := by
  intro c s running
  refine ⟨fun calm fresh => ?_, fun fresh trip released empty no_test runs none_open not_warming => ?_, fun not_fresh => ?_,
    fun calm stale held => ?_, fun calm stale moves uncrossed => ?_, fun not_stale => ?_⟩
  · obtain ⟨u, left, right⟩ := freshnessNow_stale_calm (n := 61) (c := c) (s := { s with overrun := false }) (beq_iff_eq.1 fresh) calm
    generalize e : freshnessNow (run 63) c .stale { s with overrun := false } = t at right
    obtain ⟨sides, other⟩ := side_unproved left.dru right.dru
    have reference : ∀ d, _ → t.hac = _ := fun d => referenceZero_unproved (d := d) left right
    obtain ⟨p, staled⟩ := staled_eq { s with overrun := false } c
    rw [staled] at left sides other reference
    obtain ⟨q, rfl⟩ := left
    obtain ⟨q', rfl⟩ := right
    refine ⟨_, exec_carStaleTimeout_fresh running fresh e rfl, ?_, ?_, sides, other, fun ⟨d, secured⟩ => reference d secured,
      rfl, rfl, rfl, rfl, rfl, rfl, rfl⟩
    · cases c <;> rfl
    · cases c <;> rfl
  · obtain ⟨p, staled⟩ := staled_eq { s with overrun := false } c
    have cuttable : (State.staled { s with overrun := false } c).Cuttable := by
      rw [staled]
      refine ⟨trip, released, empty, no_test, runs, none_open, not_warming, ?_⟩
      cases c <;> simp [State.bothFresh, State.isFresh, State.car, State.setCar, PerCar.set, PerCar.get]
    obtain ⟨h, o, b, q, ⟨state, reference, r, applied, rfl⟩, fell, sides, other⟩ := freshnessNow_stale_cuts (n := 58) (c := c)
      (s := { s with overrun := false }) (beq_iff_eq.1 fresh) cuttable
    generalize e : freshnessNow (run 63) c .stale { s with overrun := false } = t at fell sides other
    rw [staled] at fell
    refine ⟨t, exec_carStaleTimeout_fresh running fresh e (by rw [fell]; rfl), ?_, ?_, sides, other, ?_⟩
    · rw [fell]
      cases c <;> rfl
    · rw [fell]
      cases c <;> rfl
    · rw [fell]
      exact ⟨state, reference, applied, rfl, rfl, rfl, rfl, rfl, rfl, rfl⟩
  · exact exec_carStaleTimeout_unfresh running not_fresh
  · intro n uncrossed
    obtain ⟨q, lost⟩ := freshnessNow_lost_calm (n := 62) (s := { s with overrun := false }) stale calm uncrossed
    rw [if_neg (by rw [not_moving (by exact held)]; decide)] at lost
    exact ⟨_, exec_carLostTimeout_stale running stale lost rfl, rfl⟩
  · obtain ⟨q, fell⟩ := freshnessNow_lost_calm (n := 62) (s := { s with overrun := false }) stale calm uncrossed
    rw [if_pos (moving_iff.2 (by exact moves))] at fell
    refine ⟨fun stopping => ?_, fun empty no_test runs grounded trip => ?_⟩
    · rw [run_succ, act, controlled_absorbed (by exact stopping)] at fell
      exact ⟨_, exec_carLostTimeout_stale running stale fell rfl, rfl⟩
    · obtain ⟨q', taken⟩ := controlled_taken (n := 61) (cause := .link)
        (s := { State.lostNow { s with overrun := false } c with slp := q }) empty no_test runs grounded trip
      exact ⟨_, exec_carLostTimeout_stale running stale (fell.trans taken) rfl, rfl⟩
  · exact exec_carLostTimeout_unstale running not_stale

end Sys2Proof.Machine
end

section
/-! SUPPORT. The begin and the ends of a trip. -/

namespace Sys2Proof.Machine

variable {k : Hand}

/-! ## A line that leaves HELD (R24, R48, R149) -/

/-- A window at the departure of the line (R149). -/
def Window.departed (w : Window) : Window := if w.state = .sealed then .reset else w

/-- A gate at the departure of the line, its group's window having been w (R143, R149). -/
def GateRec.departed (h : GateRec) (w : Window) : GateRec :=
  if w.state = .sealed ∧ h.state = .ready then { h with state := .shut } else h

/-- A window that becomes SHUT, with the READY gates of its group (R143). -/
theorem setWindow_shut {g : Group} {cause : WindowCause} {s : State} : ∃ q, setWindow g .reset cause s = { s with
    slp := q
    glm := { s.glm with
      windows := s.glm.windows.set g .reset
      gates := s.glm.gates.map (fun h => if h.group = g ∧ h.state = .ready then { h with state := .shut } else h) } } := by
  have follow : ∀ h : GateRec, (if h.group == g && Window.reset.state == .opened && h.state == .shut then { h with state := .ready }
      else if h.group == g && Window.reset.state != .opened && h.state == .ready then { h with state := .shut } else h) =
      if h.group = g ∧ h.state = .ready then { h with state := .shut } else h := fun h => by simp [Window.reset]
  unfold setWindow
  dsimp only
  simp only [follow]
  split
  · exact ⟨_, rfl⟩
  · exact ⟨_, post_eq_taking _ _⟩

/-- The SEALED windows of a list of groups become SHUT, with the gates that their windows kept READY. -/
theorem forEach_shutSealed (l : List Group) (s : State) : ∃ w q,
    forEach l (fun g t => if (t.window g).state == .sealed then setWindow g .reset .departure t else t) s = { s with
      slp := q
      glm := { s.glm with
        windows := w, gates := s.glm.gates.map (fun h => if h.group ∈ l then h.departed (s.window h.group) else h) } } ∧
    ∀ g, w.get g = if g ∈ l then (s.window g).departed else s.window g := by
  induction l generalizing s with
  | nil => exact ⟨s.glm.windows, s.slp, by simp [forEach], fun g => rfl⟩
  | cons a rest ih =>
    show ∃ w q, forEach rest _ (if (s.window a).state == .sealed then _ else s) = _ ∧ _
    by_cases sealed : (s.window a).state = .sealed
    · obtain ⟨p, shut⟩ := setWindow_shut (g := a) (cause := .departure) (s := s)
      rw [if_pos (beq_iff_eq.2 sealed), shut]
      obtain ⟨w, q, others, windows⟩ := ih { s with
        slp := p
        glm := { s.glm with
          windows := s.glm.windows.set a .reset
          gates := s.glm.gates.map (fun h => if h.group = a ∧ h.state = .ready then { h with state := .shut } else h) } }
      have window : ∀ g, (s.glm.windows.set a .reset).get g = if g = a then .reset else s.window g := by
        intro g
        split
        · rename_i same
          rw [same, PerGroup.get_set]
        · rename_i other
          exact PerGroup.get_set_other _ _ other
      have gate : ∀ h : GateRec, ((fun h => if h.group ∈ rest then h.departed ((s.glm.windows.set a .reset).get h.group) else h) ∘
          fun h => if h.group = a ∧ h.state = .ready then { h with state := .shut } else h) h =
          if h.group ∈ a :: rest then h.departed (s.window h.group) else h := by
        intro h
        by_cases here : h.group = a
        · by_cases ready : h.state = .ready
          · simp [here, ready, sealed, GateRec.departed, Window.reset]
          · simp [here, ready, GateRec.departed]
        · simp [here, window, GateRec.departed]
      refine ⟨w, q, others.trans ?_, fun g => (windows g).trans ?_⟩
      · have mapped := List.map_map.trans (congrArg (fun f => s.glm.gates.map f) (funext gate))
        exact congrArg (fun l => { s with slp := q, glm := { s.glm with windows := w, gates := l } }) mapped
      · show (if g ∈ rest then ((s.glm.windows.set a .reset).get g).departed else (s.glm.windows.set a .reset).get g) = _
        rw [window]
        by_cases same : g = a
        · simp [same, Window.departed, Window.reset, sealed]
        · simp [same]
    · rw [if_neg (by rw [beq_iff_eq]; exact sealed)]
      obtain ⟨w, q, others, windows⟩ := ih s
      have calm : (s.window a).departed = s.window a := if_neg sealed
      have fixed : ∀ h : GateRec, h.group = a → h.departed (s.window h.group) = h := by
        rintro h rfl
        exact if_neg fun both => sealed both.1
      refine ⟨w, q, others.trans ?_, fun g => (windows g).trans ?_⟩
      · have gate : ∀ h : GateRec, (if h.group ∈ rest then h.departed (s.window h.group) else h) =
            if h.group ∈ a :: rest then h.departed (s.window h.group) else h := by
          intro h
          by_cases here : h.group = a
          · rw [fixed h here, ite_self, ite_self]
          · simp [here]
        rw [funext gate]
      · by_cases same : g = a
        · simp [same, calm]
        · simp [same]

/-- The windows that the departure leaves. -/
def State.windowsLeft (s : State) (w : PerGroup Window) : Prop := ∀ g, w.get g = (s.window g).departed

/-- A line that leaves HELD: the supervisor takes its load snapshot, the clearance marks fall and the SEALED windows shut (R48, R114,
R149). -/
theorem setHaulage_departs {new : HState} {s : State} (held : s.hac.state = .held) (leaves : new ≠ .held) : ∃ w q,
    setHaulage new s = { s with
      hac := { s.hac with state := new }
      osp := { s.osp with acc := 0, ordered := false, snapshot := some s.liveLoads }
      dru := { s.dru with cleared := ⟨false, false⟩ }
      glm := { s.glm with windows := w, gates := s.glm.gates.map (fun h => h.departed (s.window h.group)) }
      slp := q } ∧ s.windowsLeft w := by
  have supervised : setHaulage new s = shutSealedWindows { s with
      hac := { s.hac with state := new }
      osp := { s.osp with acc := 0, ordered := false, snapshot := some s.liveLoads }
      dru := { s.dru with cleared := ⟨false, false⟩ } } := by
    have changes : (HState.held == new) = false := beq_eq_false_iff_ne.2 leaves.symm
    have away : (new == .held) = false := beq_eq_false_iff_ne.2 leaves
    simp only [setHaulage, supervisorOnHaulage, held, changes, away, Bool.false_eq_true, if_false, beq_self_eq_true, if_true]
    rfl
  obtain ⟨w, q, shut, windows⟩ := forEach_shutSealed allGroups { s with
      hac := { s.hac with state := new }
      osp := { s.osp with acc := 0, ordered := false, snapshot := some s.liveLoads }
      dru := { s.dru with cleared := ⟨false, false⟩ } }
  have every : ∀ g : Group, g ∈ allGroups := fun g => by cases g <;> decide
  simp only [every, if_true] at shut windows
  exact ⟨w, q, supervised.trans shut, windows⟩

/-! ## What a departure hands to the brakes (R31, R72) -/

/-- With no stop in the record and the line neither berthing nor stopping nothing waits for standstill (R35a, R40, R75, R79). -/
theorem settleNow_unstopped {s : State} (not_berthing : s.hac.state ≠ .berthing) (not_stopping : s.hac.state ≠ .stopping)
    (no_stop : s.bsq.stop = none) : settleNow k s = s := by
  have not_due : s.setDue = false := by simp [State.setDue, not_berthing, not_stopping]
  have no_end : endStop s = s := by simp only [endStop, no_stop]
  simp only [settleNow, not_due, beq_eq_false_iff_ne.2 not_stopping, Bool.false_and, Bool.false_eq_true, if_false, no_end, ite_self]

/-- What follows a change of brake states, where no test runs and no warming goes on, is the haulage and what waits for standstill (R72). -/
theorem brakesChangedNow_working {s t : State} (haulage : haulageOnBrakes k s = t) (settled : k .settle t = t)
    (no_test : t.bsq.test = none) (not_warming : t.lmu.mode ≠ .warming) : brakesChangedNow k s = t := by
  have test : testProgress k t = t := by simp only [testProgress, no_test]
  simp only [brakesChangedNow, haulage, settled, test, warmingCheck_elsewhere not_warming]

/-- The record of SB that has begun to lift (R70). -/
abbrev State.sbLifting (s : State) : BrakeRec := { cmd := .release, state := .lifting, timer := s.line.map LineFields.tSbResp }

/-- SB APPLIED that is commanded RELEASE with its reading short of released lifts, and the trip waits for it (R31, R70). -/
theorem release_lifts {n : Nat} {s : State} (releasing : s.hac.state = .releasing) (no_stop : s.bsq.stop = none)
    (no_test : s.bsq.test = none) (not_warming : s.lmu.mode ≠ .warming) (interlock : s.interlockHolds = true)
    (applied : (s.brake .sb).state = .applied) (cmd : (s.brake .sb).cmd = .apply) (unreleased : s.reading .sb ≠ .released) :
    run (n + 3) (.command .sb .release) s = s.setBrake .sb s.sbLifting := by
  have lifts : (s.brake .sb).commanded .release (s.reading .sb) (s.respBound .sb) = s.sbLifting := by
    simp [BrakeRec.commanded, BrakeRec.commandRelease, cmd, applied, unreleased]
    rfl
  have waits : haulageOnBrakes (run (n + 1)) (s.setBrake .sb s.sbLifting) = s.setBrake .sb s.sbLifting := by
    unfold haulageOnBrakes
    simp only [setBrake_hac, releasing, brake_setBrake]
    rfl
  have settled : run (n + 1) .settle (s.setBrake .sb s.sbLifting) = _ :=
    settleNow_unstopped (by simp [releasing]) (by simp [releasing]) no_stop
  rw [run_succ, act, commandBrake, if_pos (by exact interlock), rawCommand, lifts]
  exact handOverBrakes_still (brakesChangedNow_working waits settled no_test not_warming)

/-! ## DEPART (R30, R31) -/

/-- What no inhibit says of the line that DEPART begins a trip from (R30). -/
theorem departs_of_inhibits {s : State} (free : s.inhibits = []) : s.lmu.mode ≠ .warming ∧ s.interlockHolds = true ∧
    (s.brake .sb).state = .applied ∧ s.bsq.test = none := by
  have absent := namesPresent_nil free
  simp only [List.forall_mem_cons] at absent
  obtain ⟨mode, -, -, doors, -, links, -, -, brakes, -, -, test, -⟩ := absent
  refine ⟨fun warming => ?_, ?_, ?_, ?_⟩
  · rw [warming] at mode
    cases mode
  · simp_all [State.interlockHolds]
  · simp_all
  · simpa using test

/-- The state of a trip that has begun, but for its windows and the link (R31). -/
abbrev State.begun (s : State) (r : StopRec) (w : PerGroup Window) : State := { s with
  hac := { s.hac with
    state := .releasing, dest := some r.index, legMark := true, tripDir := directionTo r.pos s.ptr.x, berth := .offStop }
  osp := { s.osp with acc := 0, ordered := false, snapshot := some s.liveLoads }
  dru := { s.dru with cleared := ⟨false, false⟩ }
  glm := { s.glm with windows := w, gates := s.glm.gates.map (fun h => h.departed (s.window h.group)) }
  bsq := { s.bsq with recs := s.bsq.recs.set .sb s.sbLifting } }

/-- A departure with no inhibit: the trip and its lift, the windows and the marks (R31). -/
theorem departTo_begins {r : StopRec} {s : State} (held : s.hac.state = .held) (free : s.inhibits = []) (no_stop : s.bsq.stop = none)
    (cmd : (s.brake .sb).cmd = .apply) (unreleased : s.reading .sb ≠ .released) :
    ∃ w q, departTo cascade r s = { s.begun r w with slp := q } ∧ s.windowsLeft w := by
  obtain ⟨not_warming, interlock, applied, no_test⟩ := departs_of_inhibits free
  obtain ⟨w, q, departs, windows⟩ := setHaulage_departs (new := .releasing)
    (s := setBerth .offStop { s with hac := { s.hac with dest := some r.index, legMark := true, tripDir := directionTo r.pos s.ptr.x } })
    (by rw [setBerth_offStop]; exact held) (by decide)
  refine ⟨w, q, ?_, fun g => (windows g).trans (by rw [setBerth_offStop]; rfl)⟩
  unfold departTo
  dsimp only
  rw [departs, setBerth_offStop, if_neg (by rw [show s.bsq.stop = none from no_stop]; decide)]
  exact release_lifts (n := 61) rfl no_stop no_test not_warming interlock applied cmd unreleased

theorem handleDepart_inhibited {s : State} (held : s.hac.state = .held) (inhibited : s.inhibits ≠ []) :
    handleDepart s = (s, .refused .inhibited (.inhibits s.inhibits)) := by
  rw [handleDepart, not_moving held, if_neg (by decide)]
  split
  · rename_i free _
    exact absurd free inhibited
  · rfl

theorem handleDepart_begins {s : State} {i : Nat} {rest : List Nat} {r : StopRec} (held : s.hac.state = .held) (free : s.inhibits = [])
    (head : s.hac.plan = i :: rest) (stop : s.stopAt? i = some r) :
    handleDepart s = (departTo cascade r s, accept (.departed r.index r.pos (directionTo r.pos s.ptr.x))) := by
  simp only [handleDepart, not_moving held, Bool.false_eq_true, if_false, free, head, List.head?_cons, Option.bind_some, stop]

/-! ## The automatic release at a stop (R108, R109) -/

/-- A side as the automatic release at a stop leaves it RELEASE_PENDING (R108). -/
abbrev DoorSide.autoPending (r : DoorSide) (i : Nat) : DoorSide :=
  { r with state := .releasePending, kind := some .auto, stop := some i, ackTimer := some 500 }

/-- A line at rest at a stop as the automatic release finds it: released sides set nothing else off (R107, R108, R149). -/
structure State.Berthed (s : State) : Prop where
  held : s.hac.state = .held
  applied : s.sbApplied = true
  still : s.ptr.standstill = true
  cmd : (s.brake .sb).cmd = .apply
  none_open : s.noneOpen
  loaded : s.line.isSome = true

/-- The sides that the automatic release releases (R109). -/
abbrev State.releases (s : State) (c : Car) (d : Side) : Prop := s.isFresh c = true ∧ (s.side c d).state = .secured

/-- The state once the automatic release has come by some of the sides (R109). -/
structure State.ReleasedFor (s : State) (i : Nat) (visited : Car → Side → Prop) (u : State) : Prop where
  frame : u = { s with hac := u.hac, dru := { s.dru with sides := u.dru.sides }, slp := u.slp }
  haulage : u.hac = { s.hac with vRef := u.hac.vRef, word := u.hac.word }
  zero : ∀ c d, visited c d → s.releases c d → u.hac.vRef = 0
  pending : ∀ c d, visited c d → s.releases c d → u.side c d = (s.side c d).autoPending i
  other : ∀ c d, ¬(visited c d ∧ s.releases c d) → u.side c d = s.side c d

theorem State.ReleasedFor.start (s : State) (i : Nat) : s.ReleasedFor i (fun _ _ => False) s :=
  ⟨rfl, rfl, fun _ _ no => no.elim, fun _ _ no => no.elim, fun _ _ _ => rfl⟩

section
variable {s u : State} {i : Nat} {visited visited' : Car → Side → Prop} (so_far : s.ReleasedFor i visited u)
include so_far

theorem State.ReleasedFor.berthed (berthed : s.Berthed) : u.Berthed := by
  have haulage : u.hac.state = s.hac.state := by rw [so_far.haulage]
  have frame := so_far.frame
  generalize u.hac = h, u.dru.sides = d, u.slp = q at haulage frame
  subst frame
  exact ⟨haulage.trans berthed.held, berthed.applied, berthed.still, berthed.cmd, berthed.none_open, berthed.loaded⟩

theorem State.ReleasedFor.fresh (c : Car) : u.isFresh c = s.isFresh c := by
  rw [so_far.frame]
  rfl

/-- Coming by sides that are not to be released changes nothing. -/
theorem State.ReleasedFor.more (same : ∀ c d, s.releases c d → (visited c d ↔ visited' c d)) : s.ReleasedFor i visited' u where
  frame := so_far.frame
  haulage := so_far.haulage
  zero := fun c d v r => so_far.zero c d ((same c d r).2 v) r
  pending := fun c d v r => so_far.pending c d ((same c d r).2 v) r
  other := fun c d not => so_far.other c d (fun both => not ⟨(same c d both.2).1 both.1, both.2⟩)

/-- Nor does a report. -/
theorem State.ReleasedFor.post (r : Report) : s.ReleasedFor i visited (post r u) := by
  have frame := so_far.frame
  rw [post_eq_taking]
  exact { so_far with frame := by rw [frame] }

end

/-- A SECURED side of a berthed line that is released: the side, the reference and the report (R37, R107, R108). -/
theorem releaseSide_berthed {n : Nat} {c : Car} {d : Side} {i : Nat} {s : State} (berthed : s.Berthed)
    (secured : (s.side c d).state = .secured) : ∃ q, releaseSide (run (n + 2)) c d .auto (some i) s =
      { s.setSide c d ((s.side c d).autoPending i) with hac := s.referenceZero.hac, slp := q } := by
  obtain ⟨p, loaded⟩ := Option.isSome_iff_exists.1 berthed.loaded
  have pending : (s.side c d).pending .auto (some i) s.ackBound = (s.side c d).autoPending i := by
    rw [State.ackBound, loaded]
    rfl
  have taken : ∃ q, sideTaken c d ((s.side c d).autoPending i) .releasePending (some ReleaseKind.auto.cause) s =
      { s.setSide c d ((s.side c d).autoPending i) with hac := s.referenceZero.hac, slp := q } := by
    simp only [sideTaken, doorReport, post_eq_taking, secured]
    exact ⟨_, rfl⟩
  obtain ⟨q, taken⟩ := taken
  refine ⟨q, ?_⟩
  rw [releaseSide, pending, run_succ, act, sideToNow_eq, taken, run_succ, act, interlockNow_applied (by exact berthed.cmd)]
  simp only [sideFollows, secured]
  exact sealUnreleased_none (by exact berthed.none_open)

/-- The automatic release comes by a side of a berthed line (R109). -/
theorem State.ReleasedFor.visit {n : Nat} {c : Car} {d : Side} {i : Nat} {visited : Car → Side → Prop} {s u : State}
    (berthed : s.Berthed) (so_far : s.ReleasedFor i visited u) :
    s.ReleasedFor i (fun e x => visited e x ∨ (e = c ∧ x = d)) (autoReleaseSide (run (n + 2)) c d i u) := by
  have now := so_far.berthed berthed
  have allowed : u.releaseAllowed c = s.isFresh c := by
    simp [State.releaseAllowed, State.isHeld, now.held, now.applied, now.still, so_far.fresh]
  rw [autoReleaseSide, allowed]
  by_cases fresh : s.isFresh c = true
  · rw [if_pos fresh]
    by_cases secured : (u.side c d).state = .secured
    · have unreleased : ¬(visited c d ∧ s.releases c d) := by
        rintro ⟨v, r⟩
        rw [so_far.pending c d v r] at secured
        cases secured
      have side := so_far.other c d unreleased
      obtain ⟨q, released⟩ := releaseSide_berthed (n := n) (i := i) now secured
      simp only [secured, beq_self_eq_true, if_true, released]
      have here : (u.setSide c d ((u.side c d).autoPending i)).side c d = (s.side c d).autoPending i := by rw [side_setSide, side]
      have there : ∀ e x, (e, x) ≠ (c, d) → (u.setSide c d ((u.side c d).autoPending i)).side e x = u.side e x := fun e x other =>
        side_setSide_other u _ other
      refine ⟨?_, ?_, fun _ _ _ _ => rfl, fun e x v r => ?_, fun e x not => ?_⟩
      · rw [so_far.frame]
        rfl
      · rw [so_far.frame, so_far.haulage]
        rfl
      · by_cases same : (e, x) = (c, d)
        · obtain ⟨rfl, rfl⟩ := Prod.mk.inj same
          exact here
        · exact (there e x same).trans (so_far.pending e x (v.resolve_right fun both => same (Prod.ext both.1 both.2)) r)
      · by_cases same : (e, x) = (c, d)
        · obtain ⟨rfl, rfl⟩ := Prod.mk.inj same
          exact absurd ⟨.inr ⟨rfl, rfl⟩, fresh, side ▸ secured⟩ not
        · exact (there e x same).trans (so_far.other e x fun both => not ⟨.inl both.1, both.2⟩)
    · simp only [beq_eq_false_iff_ne.2 secured, Bool.false_eq_true, if_false]
      refine (so_far.more fun e x r => ⟨.inl, fun v => ?_⟩).post _
      by_contra unvisited
      obtain ⟨rfl, rfl⟩ := v.resolve_left unvisited
      rw [so_far.other e x fun both => unvisited both.1] at secured
      exact secured r.2
  · rw [if_neg fresh]
    refine so_far.more fun e x r => ⟨.inl, fun v => v.resolve_right ?_⟩
    rintro ⟨rfl, rfl⟩
    exact fresh r.1

/-- The automatic release comes by the sides of a list, one after the other. -/
theorem State.ReleasedFor.visits {n : Nat} {c : Car} {i : Nat} {s u : State} (berthed : s.Berthed) (l : List Side)
    {visited : Car → Side → Prop} (so_far : s.ReleasedFor i visited u) :
    s.ReleasedFor i (fun e x => visited e x ∨ (e = c ∧ x ∈ l)) (forEach l (fun d u => autoReleaseSide (run (n + 2)) c d i u) u) := by
  induction l generalizing u visited with
  | nil => exact so_far.more fun _ _ _ => by simp
  | cons d rest ih =>
    refine (ih (so_far.visit (n := n) (c := c) (d := d) berthed)).more fun e x _ => ?_
    simp only [List.mem_cons, and_or_left, or_assoc]

/-- In SERVICE and REDUCED the automatic release comes by every platform side of both cars (R109). -/
theorem autoRelease_berthed {n : Nat} {r : StopRec} {i : Nat} {s : State} (berthed : s.Berthed) (stop : s.stopAt? i = some r)
    (mode : s.lmu.mode = .service ∨ s.lmu.mode = .reduced) :
    s.ReleasedFor i (fun c d => d ∈ s.platformSides c i) (autoRelease (run (n + 2)) i (Berth.at r).onA (Berth.at r).onB s) := by
  have releasing : (s.lmu.mode == .service || s.lmu.mode == .reduced) = true := by simpa using mode
  have car : ∀ (c : Car) {visited : Car → Side → Prop} {u : State}, s.ReleasedFor i visited u →
      s.ReleasedFor i (fun e x => visited e x ∨ (e = c ∧ x ∈ s.platformSides c i))
        (if (r.car.get c).sides != .none then forEach (u.platformSides c i) (fun d u => autoReleaseSide (run (n + 2)) c d i u) u
          else u) := by
    intro c visited u so_far
    have sides : u.platformSides c i = s.platformSides c i := by
      rw [so_far.frame]
      rfl
    rw [sides]
    split
    · exact so_far.visits berthed _
    · rename_i bare
      have none : s.platformSides c i = [] := by
        have bare : (r.car.get c).sides = .none := by simpa using bare
        rw [State.platformSides, stop, Option.map_some, Option.getD_some, bare]
        rfl
      exact so_far.more fun _ _ _ => by simp [none]
  rw [autoRelease, if_pos releasing]
  refine (car .b (car .a (.start s i))).more fun c d _ => ?_
  cases c <;> simp

/-! ## The entry to HELD (R25, R35, R40, R48, R62) -/

/-- The supervisor of a line that has come to HELD (R48, R62). -/
abbrev State.restingSupervisor (s : State) : Supervisor :=
  { s.osp with acc := 0, ordered := false, heldRef := s.ptr.dp, snapshot := none }

theorem setHaulage_held {s : State} (moves : s.hac.state ≠ .held) :
    setHaulage .held s = { s with hac := { s.hac with state := .held }, osp := s.restingSupervisor } := by
  have left : (s.hac.state == .held) = false := beq_eq_false_iff_ne.2 moves
  simp only [setHaulage, left, supervisorOnHaulage, Bool.false_eq_true, if_false, beq_self_eq_true, if_true]

/-- A berth record that is written with no clearance mark set (R25, R114). -/
theorem setBerth_unmarked {b : Berth} {s : State} (unmarked : s.dru.cleared = ⟨false, false⟩) :
    setBerth b s = { s with hac := { s.hac with berth := b } } := by
  unfold setBerth
  split
  · rename_i same
    rw [← same]
  · rw [← unmarked]

/-- The haulage of a trip that has ended at its berth (R35). -/
abbrev State.arrivedHaulage (s : State) (b : Berth) : Haulage := { s.hac with
  state := .held, berth := b, plan := if s.hac.legMark then s.hac.plan.tail else s.hac.plan, legMark := false, dest := none }

/-- The ARRIVED report (R35, R44). -/
abbrev State.arrivedReport (s : State) (i : Nat) (r : StopRec) (b : Berth) : TripReport :=
  { event := .arrived, x := s.ptr.x, dir := s.hac.tripDir, dest := none, stop := some i, offset := some (s.ptr.x - (r.pos : Int))
    atStop := b.stop.isSome, onA := b.onA, onB := b.onB, kind := none, head := (s.arrivedHaulage b).plan.head?
    ready := s.hac.ready, fault := s.hac.fault }

/-- The state of a trip that has ended at its berth, before the automatic release (R35). -/
abbrev State.arrived (s : State) (i : Nat) (r : StopRec) (b : Berth) : State :=
  post (.trip (s.arrivedReport i r b)) { s with hac := s.arrivedHaulage b, osp := s.restingSupervisor }

theorem berthArrive_eq {p : LineFields} {i : Nat} {r : StopRec} {s : State} (berthing : s.hac.state = .berthing) (loaded : s.line = some p)
    (dest : s.hac.dest = some i) (stop : s.stopAt? i = some r) (unmarked : s.dru.cleared = ⟨false, false⟩) :
    let b := berthResult p r s.ptr.x
    berthArrive k s = match b.stop with
      | some j => autoRelease k j b.onA b.onB (s.arrived i r b)
      | none => s.arrived i r b := by
  have moves : s.hac.state ≠ .held := by rw [berthing]; decide
  unfold berthArrive
  simp only [comingDir_moving moves, loaded, dest, Option.bind_some, stop]
  rw [setHaulage_held moves, setBerth_unmarked (by exact unmarked)]
  rfl

/-- The stop that an index finds has that index. -/
theorem stopAt?_index {s : State} {i : Nat} {r : StopRec} (stop : s.stopAt? i = some r) : r.index = i := by
  simpa using List.find?_some stop

/-! ## The contacts of SB (R69, R70) -/

/-- BRAKE_CONTACT_CHANGE on a running device. -/
theorem exec_brakeContactChange {b : BrakeId} {a r : Bool} {s t : State} (running : s.isRunning)
    (e : contactsChanged cascade b { applied := a, released := r } { s with overrun := false } = t) (clear : t.overrun = false) :
    exec (.brakeContactChange b a r) s = .next t := by
  subst e
  have executed : exec (.brakeContactChange b a r) s = whileRunning (contactsChanged cascade b { applied := a, released := r }) s := by
    show execBrakeContactChange b a r s = _
    simp only [execBrakeContactChange, show s.inReset = none from running]
  rw [executed, whileRunning_next running clear]

/-- The state of a line whose SB has come to a state with its contacts (R70). -/
abbrev State.sbMoved (s : State) (st : BrakeState) (c : Contacts) : State := { s with bsq := { s.bsq with
  recs := s.bsq.recs.set .sb { s.brake .sb with state := st, timer := none }, contacts := s.bsq.contacts.set .sb c } }

/-- Contacts of SB that come to a reading at which its record settles hand that over (R70, R72). -/
theorem contactsChanged_settles {c : Contacts} {st : BrakeState} {s : State} (changed : s.reading .sb ≠ c.reading)
    (settles : ∀ u : State, (u.brake .sb).state = (s.brake .sb).state → readingChanged k .sb c.reading u = settleBrake k .sb st u) :
    contactsChanged k .sb c s = k .brakesChanged (s.sbMoved st c) := by
  have differs : (c.reading == s.reading .sb) = false := beq_eq_false_iff_ne.2 changed.symm
  refine (if_neg (ne_true_of_eq_false differs)).trans ?_
  rw [settles _ (by rfl)]
  rfl

/-- SB setting whose contacts come to show it APPLIED is APPLIED (R70). -/
theorem contactsChanged_applied {s : State} (state : (s.brake .sb).state = .setting) (unapplied : s.reading .sb ≠ .applied) :
    contactsChanged k .sb { applied := true, released := false } s =
      k .brakesChanged (s.sbMoved .applied { applied := true, released := false }) :=
  contactsChanged_settles unapplied fun u same => by
    simp only [readingChanged, same, state, show Contacts.reading { applied := true, released := false } = .applied from rfl]

/-- SB lifting whose contacts come to show it RELEASED is RELEASED (R70). -/
theorem contactsChanged_released {s : State} (state : (s.brake .sb).state = .lifting) (unreleased : s.reading .sb ≠ .released) :
    contactsChanged k .sb { applied := false, released := true } s =
      k .brakesChanged (s.sbMoved .released { applied := false, released := true }) :=
  contactsChanged_settles unreleased fun u same => by
    simp only [readingChanged, same, state, show Contacts.reading { applied := false, released := true } = .released from rfl]

/-! ## SB APPLIED at the end of a trip (R35, R40, R79) -/

/-- SB APPLIED in BERTHING hands its state over to the arrival (R35, R72). -/
theorem brakesChanged_arrives {n : Nat} {s t : State} (berthing : s.hac.state = .berthing) (applied : s.sbApplied = true)
    (arrives : berthArrive (run (n + 1)) s = t) (held : t.hac.state = .held) (same : t.bsq = s.bsq) (mode : t.lmu = s.lmu)
    (no_stop : s.bsq.stop = none) (no_test : s.bsq.test = none) (not_warming : s.lmu.mode ≠ .warming) :
    run (n + 2) .brakesChanged s = t := by
  have haulage : haulageOnBrakes (run (n + 1)) s = t := by
    simp only [haulageOnBrakes, berthing, applied, if_true, arrives]
  rw [run_succ, act]
  exact brakesChangedNow_working haulage (settleNow_resting held (same ▸ no_stop)) (same ▸ no_test) (mode ▸ not_warming)

/-- The state of a line that has come to rest from STOPPING (R40, R79). -/
abbrev State.stopped (s : State) : State := { s with
  bsq := { s.bsq with stop := none }, osp := s.restingSupervisor
  hac := { s.hac with state := .held, dest := none, legMark := false, berth := .offStop }
  dru := { s.dru with cleared := if s.hac.berth = .offStop then s.dru.cleared else ⟨false, false⟩ } }

/-- Leaving STOPPING at rest (R40). -/
theorem heldFromStopping_eq {s : State} (stopping : s.hac.state = .stopping) :
    ∃ q, heldFromStopping s = { s.stopped with bsq := s.bsq, slp := q } := by
  have moves : s.hac.state ≠ .held := by rw [stopping]; decide
  unfold heldFromStopping
  dsimp only
  rw [setHaulage_held moves, setBerth_offStop, post_eq_taking]
  exact ⟨_, rfl⟩

/-- A stop in progress or not, there is none after its end (R79). -/
theorem endStop_eq (s : State) : ∃ q, endStop s = { s with bsq := { s.bsq with stop := none }, slp := q } := by
  unfold endStop
  split
  · rename_i no_stop
    exact ⟨s.slp, by rw [← no_stop]⟩
  · rw [post_eq_taking]
    exact ⟨_, rfl⟩

/-- At rest with SB APPLIED and commanded so, STOPPING ends, and so does the stop (R40, R79). -/
theorem settleNow_stopping {s : State} (stopping : s.hac.state = .stopping) (still : s.ptr.standstill = true)
    (applied : s.sbApplied = true) (cmd : (s.brake .sb).cmd = .apply) : ∃ q, settleNow k s = { s.stopped with slp := q } := by
  have not_due : s.setDue = false := by simp [State.setDue, cmd]
  obtain ⟨q, held⟩ := heldFromStopping_eq stopping
  obtain ⟨q', ended⟩ := endStop_eq { s.stopped with bsq := s.bsq, slp := q }
  refine ⟨q', ?_⟩
  have rests : (s.hac.state == .stopping && s.ptr.standstill && s.sbApplied) = true := by simp [stopping, still, applied]
  simp only [settleNow, not_due, Bool.false_eq_true, if_false, rests, if_true, held]
  exact (if_pos (by rw [Bool.and_eq_true]; exact ⟨still, applied⟩)).trans ended

/-- SB APPLIED in STOPPING at rest ends the stop (R40, R72, R79). -/
theorem brakesChanged_stops {n : Nat} {s : State} (stopping : s.hac.state = .stopping) (still : s.ptr.standstill = true)
    (applied : s.sbApplied = true) (cmd : (s.brake .sb).cmd = .apply) (no_test : s.bsq.test = none)
    (not_warming : s.lmu.mode ≠ .warming) : ∃ q, run (n + 2) .brakesChanged s = { s.stopped with slp := q } := by
  obtain ⟨q, settled⟩ := settleNow_stopping (k := run n) stopping still applied cmd
  have haulage : haulageOnBrakes (run (n + 1)) s = s := by simp only [haulageOnBrakes, stopping]
  have settle : run (n + 1) .settle s = { s.stopped with slp := q } := settled
  refine ⟨q, ?_⟩
  rw [run_succ, act, brakesChangedNow, haulage, settle]
  have test : testProgress (run (n + 1)) { s.stopped with slp := q } = { s.stopped with slp := q } := by simp only [testProgress, no_test]
  simp only [test]
  exact warmingCheck_elsewhere not_warming

/-! ## SB RELEASED at the beginning of a trip (R32) -/

/-- The DEPARTED report (R32, R44). -/
abbrev State.departedReport (s : State) : TripReport :=
  { event := .departed, x := s.ptr.x, dir := s.hac.tripDir, dest := s.hac.dest, stop := none, offset := none, atStop := false
    onA := false, onB := false, kind := none, head := s.hac.plan.head?, ready := s.hac.ready, fault := s.hac.fault }

/-- SB RELEASED in RELEASING hands its state over to the trip (R32, R72). -/
theorem brakesChanged_departs {n : Nat} {s : State} (releasing : s.hac.state = .releasing) (released : (s.brake .sb).state = .released)
    (no_stop : s.bsq.stop = none) (no_test : s.bsq.test = none) (not_warming : s.lmu.mode ≠ .warming) :
    run (n + 2) .brakesChanged s = post (.trip s.departedReport)
      { s with hac := { s.hac with state := .motoring }, osp := { s.osp with acc := 0, ordered := false } } := by
  have moves : s.hac.state ≠ .held := by rw [releasing]; decide
  have haulage : haulageOnBrakes (run (n + 1)) s = post (.trip s.departedReport)
      { s with hac := { s.hac with state := .motoring }, osp := { s.osp with acc := 0, ordered := false } } := by
    simp only [haulageOnBrakes, releasing, released, beq_self_eq_true, if_true, departed]
    rw [setHaulage_moving moves (by decide), if_neg (by rw [releasing]; decide)]
    rfl
  have settled : run (n + 1) .settle (post (.trip s.departedReport)
      { s with hac := { s.hac with state := .motoring }, osp := { s.osp with acc := 0, ordered := false } }) = _ :=
    settleNow_unstopped (by rw [post_hac]; nofun) (by rw [post_hac]; nofun) (by rw [post_bsq]; exact no_stop)
  rw [run_succ, act]
  exact brakesChangedNow_working haulage settled (by rw [post_bsq]; exact no_test) (by rw [post_lmu]; exact not_warming)

/-! ## The contact changes of SB in a trip (R32, R35, R40) -/

/-- A line at rest whose SB the contacts now show APPLIED. -/
abbrev State.sbSet (s : State) : State := { s with
  overrun := false
  bsq := { s.bsq with
    recs := s.bsq.recs.set .sb { cmd := .apply, state := .applied, timer := none }
    contacts := s.bsq.contacts.set .sb { applied := true, released := false } } }

/-- A running device whose SB sets and does not read applied yet, with nothing else under way. -/
structure State.SetsSb (s : State) : Prop where
  running : s.isRunning
  state : (s.brake .sb).state = .setting
  unapplied : s.reading .sb ≠ .applied
  cmd : (s.brake .sb).cmd = .apply
  no_test : s.bsq.test = none
  not_warming : s.lmu.mode ≠ .warming

/-- The contacts of SB come to show it APPLIED. -/
theorem exec_sbApplied {s t : State} (sets : s.SetsSb) (changes : cascade .brakesChanged s.sbSet = t) (clear : t.overrun = false) :
    exec (.brakeContactChange .sb true false) s = .next t := by
  have record : ({ s.brake .sb with state := .applied, timer := none } : BrakeRec) =
      { cmd := .apply, state := .applied, timer := none } := congrArg (fun c => (⟨c, .applied, none⟩ : BrakeRec)) sets.cmd
  have moved : State.sbMoved { s with overrun := false } .applied { applied := true, released := false } = s.sbSet :=
    congrArg (fun r => { s with
      overrun := false
      bsq := { s.bsq with
        recs := s.bsq.recs.set .sb r, contacts := s.bsq.contacts.set .sb { applied := true, released := false } } }) record
  refine exec_brakeContactChange sets.running ?_ clear
  rw [contactsChanged_applied (s := { s with overrun := false }) sets.state sets.unapplied, moved, changes]

/-- A trip that waits in BERTHING at its destination. -/
structure State.Berths (s : State) (p : LineFields) (i : Nat) (r : StopRec) : Prop where
  berthing : s.hac.state = .berthing
  no_stop : s.bsq.stop = none
  loaded : s.line = some p
  dest : s.hac.dest = some i
  stop : s.stopAt? i = some r
  unmarked : s.dru.cleared = ⟨false, false⟩

section
variable {s : State} {p : LineFields} {i : Nat} {r : StopRec} (sets : s.SetsSb) (berths : s.Berths p i r)
include sets berths

/-- SB APPLIED in BERTHING off stop, or outside SERVICE and REDUCED, ends the trip and releases no side (R35, R109). -/
theorem exec_arrives (unreleased : (berthResult p r s.ptr.x).stop = none ∨ (s.lmu.mode ≠ .service ∧ s.lmu.mode ≠ .reduced)) :
    exec (.brakeContactChange .sb true false) s = .next (s.sbSet.arrived i r (berthResult p r s.ptr.x)) := by
  have arrives : berthArrive (run 63) s.sbSet = s.sbSet.arrived i r (berthResult p r s.ptr.x) := by
    refine (berthArrive_eq (s := s.sbSet) berths.berthing berths.loaded berths.dest berths.stop berths.unmarked).trans ?_
    split
    · rename_i j at_stop
      obtain off | ⟨not_service, not_reduced⟩ := unreleased
      · exact nomatch at_stop.symm.trans off
      · refine if_neg ?_
        simp only [post_lmu, Bool.or_eq_true, beq_iff_eq, not_or]
        exact ⟨not_service, not_reduced⟩
    · rfl
  exact exec_sbApplied sets (brakesChanged_arrives (n := 62) berths.berthing rfl arrives (by rw [post_hac]) (by rw [post_bsq])
    (by rw [post_lmu]) berths.no_stop sets.no_test sets.not_warming) (by rw [post_overrun])

/-- SB APPLIED in BERTHING in SERVICE or REDUCED ends the trip, and at the stop releases the platform sides (R35, R109). -/
theorem exec_arrives_releasing (still : s.ptr.standstill = true) (none_open : s.noneOpen)
    (mode : s.lmu.mode = .service ∨ s.lmu.mode = .reduced) :
    ∃ t, exec (.brakeContactChange .sb true false) s = .next t ∧ (s.sbSet.arrived i r (berthResult p r s.ptr.x)).ReleasedFor i
      (fun c d => (berthResult p r s.ptr.x).stop.isSome = true ∧ d ∈ s.platformSides c i) t := by
  have at_or_off : berthResult p r s.ptr.x = .at r ∨ berthResult p r s.ptr.x = .offStop := by
    unfold berthResult
    split
    · exact .inl rfl
    · exact .inr rfl
  rcases at_or_off with at_stop | off_stop
  · have arrived := post_eq_taking (.trip (s.sbSet.arrivedReport i r (.at r)))
      { s.sbSet with hac := s.sbSet.arrivedHaulage (.at r), osp := s.sbSet.restingSupervisor }
    have index : (Berth.at r).stop = some i := congrArg some (stopAt?_index berths.stop)
    have arrives := berthArrive_eq (k := run 63) (s := s.sbSet) berths.berthing berths.loaded berths.dest berths.stop berths.unmarked
    simp only [show berthResult p r s.sbSet.ptr.x = .at r from at_stop, index] at arrives
    have berthed : (s.sbSet.arrived i r (.at r)).Berthed := by
      rw [State.arrived, arrived]
      exact ⟨rfl, rfl, still, rfl, none_open, by rw [berths.loaded]; rfl⟩
    have released := autoRelease_berthed (n := 61) (i := i) berthed (by rw [State.arrived, arrived]; exact berths.stop)
      (by rw [State.arrived, arrived]; exact mode)
    have platforms : ∀ c, (s.sbSet.arrived i r (.at r)).platformSides c i = s.platformSides c i := fun c => by
      rw [State.arrived, arrived]
      rfl
    rw [← arrives] at released
    generalize e : berthArrive (run 63) s.sbSet = t at released
    have frame := released.frame
    have same : t.bsq = s.sbSet.bsq ∧ t.lmu = s.sbSet.lmu ∧ t.overrun = false := by
      rw [frame, State.arrived, arrived]
      exact ⟨rfl, rfl, rfl⟩
    rw [at_stop]
    refine ⟨t, exec_sbApplied sets (brakesChanged_arrives (n := 62) berths.berthing rfl e (released.berthed berthed).held same.1 same.2.1
      berths.no_stop sets.no_test sets.not_warming) same.2.2, released.more fun c d _ => ?_⟩
    rw [platforms, index]
    simp
  · rw [off_stop]
    have none : (berthResult p r s.ptr.x).stop = none := by rw [off_stop]; rfl
    refine ⟨_, off_stop ▸ exec_arrives sets berths (.inl none), (State.ReleasedFor.start _ i).more fun c d _ => ?_⟩
    simp [Berth.offStop]

end

/-- SB APPLIED in STOPPING at rest ends the stop (R40, R79). -/
theorem exec_stops {s : State} (sets : s.SetsSb) (still : s.ptr.standstill = true) (stopping : s.hac.state = .stopping) :
    ∃ q, exec (.brakeContactChange .sb true false) s = .next { s.sbSet.stopped with slp := q } := by
  obtain ⟨q, changes⟩ := brakesChanged_stops (n := 62) (s := s.sbSet) stopping still rfl rfl sets.no_test sets.not_warming
  exact ⟨q, exec_sbApplied sets changes rfl⟩

/-- SB RELEASED in RELEASING begins to drive the trip (R32). -/
theorem exec_departs {s : State} (running : s.isRunning) (releasing : s.hac.state = .releasing)
    (lifting : (s.brake .sb).state = .lifting) (unreleased : s.reading .sb ≠ .released) (no_stop : s.bsq.stop = none)
    (no_test : s.bsq.test = none) (not_warming : s.lmu.mode ≠ .warming) :
    exec (.brakeContactChange .sb false true) s = .next (post (.trip s.departedReport) { s with
      overrun := false, hac := { s.hac with state := .motoring }, osp := { s.osp with acc := 0, ordered := false }
      bsq := { s.bsq with
        recs := s.bsq.recs.set .sb { s.brake .sb with state := .released, timer := none }
        contacts := s.bsq.contacts.set .sb { applied := false, released := true } } }) := by
  have changed := (contactsChanged_released (k := cascade) (s := { s with overrun := false }) lifting unreleased).trans
    (brakesChanged_departs (n := 62) releasing rfl no_stop no_test not_warming)
  exact exec_brakeContactChange running changed (by rw [post_overrun])

/-- The berth record that a trip leaves (R35). -/
theorem berthResult_eq (p : LineFields) (r : StopRec) (x : Int) : berthResult p r x =
    if decide ((x - (r.pos : Int)).natAbs ≤ p.platWindow) = true then .at r else .offStop := by
  simp only [decide_eq_true_eq]
  rfl

/-- A trip stands at its stop where its berth record names one (R35). -/
theorem berthResult_stop (p : LineFields) (r : StopRec) (x : Int) :
    (berthResult p r x).stop.isSome = decide ((x - (r.pos : Int)).natAbs ≤ p.platWindow) := by
  unfold berthResult
  split
  · rename_i near
    exact (decide_eq_true near).symm
  · rename_i far
    exact (decide_eq_false far).symm

/-- Settles O30: DEPART by its inhibits, and the contacts of SB by the state of the haulage. -/
theorem tripsBeginAndEnd : Obligations.TripsBeginAndEnd := by
  refine ⟨fun tag s listens => ⟨fun moves => ?_, fun held inhibited => ?_,
      fun i rest r held free head stop no_stop cmd unreleased => ?_⟩,
    fun s running state unapplied cmd still no_test not_warming none_open => ?_,
    fun s running releasing lifting unreleased no_stop no_test not_warming =>
      exec_departs running releasing lifting unreleased no_stop no_test not_warming⟩
  · exact request_answers listens (if_pos (moving_iff.2 moves)) rfl
  · exact request_answers listens (handleDepart_inhibited (s := s.heard) held inhibited) rfl
  · intro dir
    obtain ⟨w, q, departs, windows⟩ := departTo_begins (r := r) (s := s.heard) held free no_stop cmd unreleased
    have handled := (handleDepart_begins (s := s.heard) held free head stop).trans (congrArg (·, _) departs)
    exact ⟨_, request_answers listens handled rfl, rfl, rfl, rfl, rfl, rfl, windows, rfl, rfl, rfl, rfl, rfl, rfl, rfl, rfl⟩
  · intro set supervisor
    have sets : s.SetsSb := ⟨running, state, unapplied, cmd, no_test, not_warming⟩
    refine ⟨fun p i r berthing no_stop loaded dest stop off_stop unmarked => ?_, fun stopping => ?_⟩
    · intro on berth plan hac released
      have berths : s.Berths p i r := ⟨berthing, no_stop, loaded, dest, stop, unmarked⟩
      have result : berthResult p r s.ptr.x = berth := berthResult_eq p r s.ptr.x
      have at_stop : berth.stop.isSome = on := result ▸ berthResult_stop p r s.ptr.x
      refine ⟨fun unreleased => ?_, fun mode => ?_⟩
      · have off : on = false → berth.stop = none := fun off => Option.not_isSome_iff_eq_none.1 (by rw [at_stop, off]; decide)
        have arrives := exec_arrives sets berths (unreleased.imp_left fun no => result ▸ off no)
        rw [result] at arrives
        refine arrives.trans ?_
        rw [State.arrived, State.arrivedReport, at_stop]
      · obtain ⟨t, arrives, for_sides⟩ := exec_arrives_releasing sets berths still none_open mode
        rw [result, at_stop, State.arrived, post_eq_taking] at for_sides
        exact ⟨t, arrives, for_sides.frame, for_sides.haulage,
          fun ⟨c, d, on_it, platform, r⟩ => for_sides.zero c d ⟨on_it, platform⟩ r,
          fun c d ⟨on_it, platform, r⟩ => for_sides.pending c d ⟨on_it, platform⟩ r,
          fun c d not => for_sides.other c d fun both => not ⟨both.1.1, both.1.2, both.2⟩⟩
    · obtain ⟨q, stops⟩ := exec_stops sets still stopping
      exact ⟨_, stops, rfl⟩

end Sys2Proof.Machine
end

section
/-! SUPPORT. The envelope, and the orders of an evaluation. -/

namespace Sys2Proof.Machine

/-! ## The integer square root -/

/-- The bits that remain find the root, which lies in their span. -/
theorem isqrtFrom_root {i n r : Nat} (low : r * r ≤ n) (high : n < (r + 2 ^ i) * (r + 2 ^ i)) :
    isqrtFrom i n r * isqrtFrom i n r ≤ n ∧ n < (isqrtFrom i n r + 1) * (isqrtFrom i n r + 1) := by
  induction i generalizing r with
  | zero => exact ⟨low, high⟩
  | succ i ih =>
    rw [isqrtFrom]
    split
    · rename_i fits
      refine ih fits ?_
      rwa [Nat.add_assoc, ← Nat.two_mul, ← Nat.pow_succ']
    · rename_i beyond
      exact ih low (Nat.not_le.1 beyond)

theorem isqrt_root (n : Nat) : isqrt n * isqrt n ≤ n ∧ n < (isqrt n + 1) * (isqrt n + 1) := by
  refine isqrtFrom_root (Nat.zero_le n) ?_
  calc n < 2 ^ (n.log2 + 1) := Nat.lt_log2_self
    _ ≤ 2 ^ ((n.log2 / 2 + 1) + (n.log2 / 2 + 1)) := Nat.pow_le_pow_right (by decide) (by omega)
    _ = (0 + 2 ^ (n.log2 / 2 + 1)) * (0 + 2 ^ (n.log2 / 2 + 1)) := by rw [Nat.zero_add, Nat.pow_add]

/-! ## The least ceiling and the level (R56, R57) -/

/-- A ceiling is the first of the least ones of a list (R56). -/
def FirstLeast (l : List (Nat × Binding)) (m : Nat × Binding) : Prop :=
  ∃ before after, l = before ++ m :: after ∧ (∀ c ∈ before, m.1 < c.1) ∧ (∀ c ∈ after, m.1 ≤ c.1)

theorem FirstLeast.le {l : List (Nat × Binding)} {m c : Nat × Binding} (least : FirstLeast l m) (member : c ∈ l) : m.1 ≤ c.1 := by
  obtain ⟨before, after, rfl, above, beyond⟩ := least
  rcases List.mem_append.1 member with early | rest
  · exact (above c early).le
  · rcases List.mem_cons.1 rest with rfl | late
    · exact Nat.le_refl _
    · exact beyond c late

theorem leastCeiling_eq_none {l : List (Nat × Binding)} (none : leastCeiling l = none) : l = [] := by
  cases l with
  | nil => rfl
  | cons h rest =>
    rw [leastCeiling] at none
    split at none
    · cases none
    · split at none <;> cases none

theorem firstLeast_of_leastCeiling {l : List (Nat × Binding)} {m : Nat × Binding} (least : leastCeiling l = some m) : FirstLeast l m := by
  induction l generalizing m with
  | nil => cases least
  | cons h rest ih =>
    rw [leastCeiling] at least
    split at least
    · rename_i empty
      cases least
      exact ⟨[], rest, rfl, nofun, fun c member => by rw [leastCeiling_eq_none empty] at member; cases member⟩
    · rename_i n found
      split at least
      · rename_i lower
        cases least
        obtain ⟨before, after, rfl, above, beyond⟩ := ih found
        exact ⟨h :: before, after, rfl, List.forall_mem_cons.2 ⟨lower, above⟩, beyond⟩
      · rename_i not_lower
        cases least
        exact ⟨[], rest, rfl, nofun, fun c member => (Nat.not_lt.1 not_lower).trans ((ih found).le member)⟩

theorem leastCeiling_of_firstLeast {l : List (Nat × Binding)} {m : Nat × Binding} (least : FirstLeast l m) : leastCeiling l = some m := by
  obtain ⟨before, after, rfl, above, beyond⟩ := least
  induction before with
  | nil =>
    rw [List.nil_append, leastCeiling]
    split
    · rfl
    · rename_i n found
      obtain ⟨b, a, rfl, -, -⟩ := firstLeast_of_leastCeiling found
      exact if_neg (Nat.not_lt.2 (beyond n (by simp)))
  | cons h rest ih =>
    rw [List.cons_append, leastCeiling, ih fun c member => above c (List.mem_cons_of_mem _ member)]
    exact if_pos (above h List.mem_cons_self)

theorem leastCeiling_iff {l : List (Nat × Binding)} {m : Nat × Binding} : leastCeiling l = some m ↔ FirstLeast l m :=
  ⟨firstLeast_of_leastCeiling, leastCeiling_of_firstLeast⟩

/-- v_perm is at most every ceiling (R56). -/
theorem envelope_vPerm_le {s : State} {p : LineFields} {c : Nat × Binding}
    (member : c ∈ s.ceilings p s.comingDir (s.envelope p).eval.braking.aEff (s.envelope p).eval.c) : (s.envelope p).vPerm ≤ c.1 := by
  have vPerm : (s.envelope p).vPerm = min p.vLineMax (((leastCeiling
      (s.ceilings p s.comingDir (s.envelope p).eval.braking.aEff (s.envelope p).eval.c)).map Prod.fst).getD 0) := rfl
  rw [vPerm]
  generalize s.ceilings p s.comingDir (s.envelope p).eval.braking.aEff (s.envelope p).eval.c = l at member
  cases least : leastCeiling l with
  | none =>
    rw [leastCeiling_eq_none least] at member
    cases member
  | some m => exact (Nat.min_le_right _ _).trans ((leastCeiling_iff.1 least).le member)

/-- The level by its conditions, from the highest down (R57). -/
theorem levelOf_iff (p : LineFields) (vPerm v : Nat) :
    let service := vPerm + max p.mSAbs (vPerm * p.mSPm / 1000)
    let emergency := vPerm + max p.mEAbs (vPerm * p.mEPm / 1000)
    (levelOf p vPerm v = .rail ↔ p.vRail < v) ∧
    (levelOf p vPerm v = .emergency ↔ v ≤ p.vRail ∧ emergency < v) ∧
    (levelOf p vPerm v = .service ↔ v ≤ p.vRail ∧ v ≤ emergency ∧ service < v) ∧
    (levelOf p vPerm v = .warn ↔ v ≤ p.vRail ∧ v ≤ emergency ∧ v ≤ service ∧ vPerm < v) ∧
    (levelOf p vPerm v = .none ↔ v ≤ p.vRail ∧ v ≤ vPerm) := by
  intro service emergency
  have level : levelOf p vPerm v = if p.vRail < v then .rail else if emergency < v then .emergency else if service < v then .service
      else if vPerm < v then .warn else .none := rfl
  have above : vPerm ≤ service ∧ vPerm ≤ emergency := ⟨Nat.le_add_right _ _, Nat.le_add_right _ _⟩
  rw [level]
  split_ifs <;> simp <;> omega

end Sys2Proof.Machine
end

section
/-! SUPPORT. The orders of an evaluation at a sample. -/

namespace Sys2Proof.Machine

/-! ## The travel of a sample and the wrong-way accumulator (R12, R62) -/

theorem sampled_travel {s : State} {p : LineFields} {w : Switches} (ordinary : s.ptr.first = .ordinary) :
    travelOf s.ptr (s.ptr.terms p) = (s.sampled p w).dp - s.ptr.dp := by
  rw [sampled_eq, ordinary, travelOf, ordinary]
  rfl

theorem accumulate_eq (s : State) (t : Int) : accumulate s t =
    if s.osp.fresh then 0
    else if s.hac.state = .held then (s.ptr.dp - s.osp.heldRef).natAbs
    else if s.hac.tripDir = .up then ((s.osp.acc : Int) - t).toNat
    else ((s.osp.acc : Int) + t).toNat := by
  unfold accumulate
  by_cases held : s.hac.state = .held
  · simp [State.isHeld, held]
  · rw [comingDir_moving held]
    cases s.hac.tripDir <;> simp [State.isHeld, held]

/-! ## v_perm handed over to the haulage (R37, R38a) -/

/-- The haulage and the supervisor after v_perm is handed over: HELD stays, a moving line stays in its state or its ramp has ended in
STOPPING; the level and v_perm stand. -/
structure State.Cut (s : State) (h : Haulage) (o : Supervisor) : Prop where
  held : s.hac.state = .held → h.state = .held ∧ o = s.osp
  moves : s.hac.state ≠ .held → h.state = s.hac.state ∨ (h.state = .stopping ∧ h.vRef = 0)
  level : o.level = s.osp.level
  vPerm : o.vPerm = s.osp.vPerm

theorem cutReference_cuts (v : Nat) (s : State) : ∃ h o, cutReference v s = { s with hac := h, osp := o } ∧ s.Cut h o := by
  unfold cutReference
  split
  · dsimp only
    split
    · rename_i ends
      have moves : s.hac.state ≠ .held := moving_iff.1 (Bool.and_eq_true_iff.1 ends).2
      rw [enterStopping_moving (by exact moves)]
      refine ⟨_, _, rfl, fun held => absurd held moves, fun _ => .inr ⟨rfl, rfl⟩, ?_, ?_⟩
      · split <;> rfl
      · split <;> rfl
    · exact ⟨_, _, rfl, fun held => ⟨held, rfl⟩, fun _ => .inl rfl, rfl, rfl⟩
  · exact ⟨_, _, rfl, fun held => ⟨held, rfl⟩, fun _ => .inl rfl, rfl, rfl⟩

/-- Without a ramp the reference alone is cut (R37). -/
theorem cutReference_unramped {v : Nat} {s : State} (no_ramp : s.hac.ramp = false) : ∃ w,
    cutReference v s = { s with hac := { s.hac with vRef := min s.hac.vRef v, word := w } } := by
  unfold cutReference
  split
  · rename_i above
    simp only [sendWord, no_ramp, Bool.false_and, Bool.false_eq_true, if_false, Nat.min_eq_right above.le]
    exact ⟨_, rfl⟩
  · rename_i below
    rw [Nat.min_eq_left (Nat.not_lt.1 below)]
    exact ⟨_, rfl⟩

/-! ## An EMERGENCY stop (R39, R74, R78) -/

/-- An EMERGENCY order on a plain line with no stop in progress: the record and the latch, the haulage halted, both brakes commanded
APPLY and the mode TRIPPED. -/
theorem emergency_order {n : Nat} {cause : StopCause} {s : State} (plain : s.plain) (empty : s.bsq.stop = none) :
    ∃ h o r l q, run (n + 4) (.orderStop .emergency cause) s = { s with
        hac := h, osp := o, lmu := l, slp := q
        bsq := { s.bsq with recs := r, stop := some (s.emergencyRecord cause), latch := some (s.bsq.latch.getD cause) } } ∧
      s.Halted h o ∧ (∀ b, (r.get b).cmd = .apply) ∧ l.mode = .tripped := by
  obtain ⟨runs, no_test, from_parked, secured, none_open⟩ := plain
  have order : run (n + 4) (.orderStop .emergency cause) s = _ :=
    orderStopNow_taken (k := run (n + 3)) (kind := .emergency) empty (abortTestNow_none no_test)
  dsimp only at order
  obtain ⟨h, o, haulage, halted⟩ := haulageOnStop_halts (kind := .emergency) (by decide)
    (s := { s with bsq := { s.bsq with stop := some (s.emergencyRecord cause) } })
  obtain ⟨r, commanded, applied⟩ := stopCommands_emergency
    { s with hac := h, osp := o, bsq := { s.bsq with stop := some (s.emergencyRecord cause) } }
  rw [show s.firstCheck .emergency = .absent from rfl, haulage, commanded, setLatch_emergency, post_eq_taking] at order
  generalize Link.taking _ _ = q at order
  obtain ⟨l, q', mode, tripped⟩ := emergencyMode_still (n := n + 1) (s := { s with
    hac := h, osp := o, slp := q
    bsq := { s.bsq with recs := r, stop := some (s.emergencyRecord cause), latch := some (s.bsq.latch.getD cause) } })
    from_parked secured none_open
  rw [mode] at order
  have still := brakesChangedNow_still (k := run (n + 2)) (s := { s with
    hac := h, osp := o, slp := q', lmu := l
    bsq := { s.bsq with recs := r, stop := some (s.emergencyRecord cause), latch := some (s.bsq.latch.getD cause) } })
    halted.idle.1 halted.idle.2 (settleNow_running runs) no_test (by rw [tripped]; decide)
  rw [handOverBrakes_still still] at order
  exact ⟨h, o, r, l, q', order.trans (settleNow_running runs), { halted with }, applied, tripped⟩

/-! ## The end of a sample (R77, R84) -/

theorem decelerationSample_unstopped {s : State} (no_stop : s.bsq.stop = none) : decelerationSample s = s.speedKept := by
  simp only [decelerationSample, no_stop]
  rw [← no_stop]
  rfl

/-- A stop in progress keeps its record, the check of it apart (R77). -/
theorem decelerationSample_stopped {s : State} {r : StopRecord} (stop : s.bsq.stop = some r) :
    ∃ check, decelerationSample s = { s.speedKept with bsq := { s.speedKept.bsq with stop := some { r with check := check } } } := by
  have unchanged : s.speedKept = { s.speedKept with bsq := { s.speedKept.bsq with stop := some { r with check := r.check } } } := by
    rw [← stop]
    rfl
  unfold decelerationSample
  dsimp only
  split
  · rename_i r' found
    cases stop.symm.trans found
    split
    · split
      · exact ⟨_, rfl⟩
      · exact ⟨_, unchanged⟩
    all_goals exact ⟨_, unchanged⟩
  · rename_i empty
    exact nomatch stop.symm.trans empty

/-- A stop without a check keeps its record whole (R77). -/
theorem decelerationSample_unchecked {s : State} {r : StopRecord} (stop : s.bsq.stop = some r) (unchecked : r.check = .absent) :
    decelerationSample s = s.speedKept := by
  simp only [decelerationSample, stop, unchecked]
  rw [← stop]
  rfl

/-- A completed sample of a line that runs without a test: the evaluation, and the speed that it keeps (R47, R77, R84). -/
theorem onSample_evaluates {n : Nat} {p : LineFields} {t : Int} {s u : State} (loaded : s.line = some p) (evaluates : s.evaluates = true)
    (e : evaluate (run (n + 1)) p t s = u) (runs : u.ptr.standstill = false) (no_test : u.bsq.test = none) :
    onSample (run (n + 1)) t s = decelerationSample u := by
  have evaluated : onSample (run (n + 1)) t s = run (n + 1) .settle (testSample (run (n + 1)) (decelerationSample u)) := by
    simp only [onSample, loaded, evaluates, if_true, e]
  have kept : ∃ st, decelerationSample u = { u.speedKept with bsq := { u.speedKept.bsq with stop := st } } := by
    cases stop : u.bsq.stop with
    | none => exact ⟨none, by rw [decelerationSample_unstopped stop, ← stop]; rfl⟩
    | some r =>
      obtain ⟨_, checked⟩ := decelerationSample_stopped stop
      exact ⟨_, checked⟩
  obtain ⟨st, kept⟩ := kept
  rw [evaluated, kept]
  simp only [testSample, State.speedKept, no_test]
  exact settleNow_running runs

/-! ## An evaluation in its stages (R47, R58, R62, R63) -/

/-- A rollback that an evaluation finds (R63). -/
def State.rollsBack (s : State) (t : Int) : Bool := decide (200 < accumulate s t) && (s.osp.fresh || !s.osp.ordered)

/-- The state of an evaluation whose results are stored and handed to the haulage, before its orders (R37, R47, R62). -/
def State.evaluated (s : State) (p : LineFields) (t : Int) : State :=
  cutReference (s.envelope p).vPerm (storeEvaluation (s.envelope p) (accumulate s t) (s.rollsBack t) s)

/-- A rise of level at an evaluation (R58). -/
def State.rises (s : State) (p : LineFields) : Bool := decide (s.osp.level.rank < (s.envelope p).level.rank)

/-- The state of an evaluation after the order that a rise of level gives (R58). -/
def State.levelled (s : State) (k : Hand) (p : LineFields) (t : Int) : State :=
  if s.rises p then levelOrder k (s.envelope p).level (s.evaluated p t) else s.evaluated p t

/-- What an evaluation stores, and what it leaves outside the haulage and the supervisor (R37, R47, R62). -/
theorem evaluated_cuts (s : State) (p : LineFields) (t : Int) : ∃ h o, s.evaluated p t = { s with hac := h, osp := o } ∧
    (storeEvaluation (s.envelope p) (accumulate s t) (s.rollsBack t) s).Cut h o :=
  cutReference_cuts _ _

variable {n : Nat} {p : LineFields} {t : Int} {s : State}

/-- While the cars run an evaluation is its results, the order of a rise, and the order of a rollback, with their reports. -/
theorem evaluate_running (runs : s.ptr.standstill = false) : ∃ q q', evaluate (run (n + 1)) p t s =
    if s.rollsBack t then
      { run (n + 1) (.orderStop .emergency .rollback) { s.levelled (run (n + 1)) p t with slp := q } with slp := q' }
    else { s.levelled (run (n + 1)) p t with slp := q } := by
  have settled : run (n + 1) .settle (s.evaluated p t) = s.evaluated p t := by
    obtain ⟨h, o, evaluated, -⟩ := evaluated_cuts s p t
    rw [evaluated]
    exact settleNow_running runs
  have reported : ∀ (c : Prop) [Decidable c] (r : Report) (u : State), ∃ q, (if c then u else post r u) = { u with slp := q } := by
    intro c _ r u
    split
    · exact ⟨u.slp, rfl⟩
    · exact ⟨_, post_eq_taking _ _⟩
  have stages : ∃ change rollback : Report, evaluate (run (n + 1)) p t s =
      let e := run (n + 1) .settle (s.evaluated p t)
      let m := if s.rises p then levelOrder (run (n + 1)) (s.envelope p).level e else e
      let m := if (s.envelope p).level == s.osp.level then m else post change m
      if s.rollsBack t then post rollback (run (n + 1) (.orderStop .emergency .rollback) m) else m := ⟨_, _, rfl⟩
  obtain ⟨change, rollback, stages⟩ := stages
  dsimp only at stages
  rw [settled, ← State.levelled] at stages
  obtain ⟨q, changed⟩ := reported ((s.envelope p).level == s.osp.level) change (s.levelled (run (n + 1)) p t)
  rw [changed, post_eq_taking] at stages
  exact ⟨q, _, stages⟩

/-- Without a rise into a level that orders a stop, a rise orders nothing (R58). -/
theorem levelled_calm {k : Hand} (calm : s.rises p = false ∨ (s.envelope p).level = .warn) : s.levelled k p t = s.evaluated p t := by
  unfold State.levelled
  rcases calm with flat | warn
  · rw [flat, if_neg (by decide)]
  · rw [warn]
    exact ite_self _

theorem levelled_rises {k : Hand} (rises : s.rises p = true) : s.levelled k p t = levelOrder k (s.envelope p).level (s.evaluated p t) :=
  if_pos rises

/-- What an evaluation stores (R47, R62). -/
abbrev State.stored (s : State) (p : LineFields) (t : Int) : Supervisor :=
  (storeEvaluation (s.envelope p) (accumulate s t) (s.rollsBack t) s).osp

/-- An evaluation without a stop to order: its results, and the reference that v_perm cuts (R37, R47, R62). -/
theorem evaluate_calm (runs : s.ptr.standstill = false) (calm : s.rises p = false ∨ (s.envelope p).level = .warn)
    (rolls_not : s.rollsBack t = false) (no_ramp : s.hac.ramp = false) : ∃ w q, evaluate (run (n + 1)) p t s =
      { s with hac := { s.hac with vRef := min s.hac.vRef (s.envelope p).vPerm, word := w }, osp := s.stored p t, slp := q } := by
  obtain ⟨q, q', evaluate⟩ := evaluate_running (n := n) (p := p) (t := t) runs
  obtain ⟨w, cut⟩ := cutReference_unramped (v := (s.envelope p).vPerm)
    (s := storeEvaluation (s.envelope p) (accumulate s t) (s.rollsBack t) s) no_ramp
  rw [rolls_not, if_neg (by decide), levelled_calm calm, State.evaluated, cut] at evaluate
  exact ⟨w, q, evaluate⟩

/-- An evaluation that rises into SERVICE: a BRAKE stop with cause OVERSPEED (R58). -/
theorem evaluate_service (runs : s.ptr.standstill = false) (no_test : s.bsq.test = none) (empty : s.bsq.stop = none)
    (rolls_not : s.rollsBack t = false) (rises : s.rises p = true) (level : (s.envelope p).level = .service)
    (unwarmed : s.lmu.mode = .warming → (s.brake .sb).cmd = .apply) : ∃ h o r q check, evaluate (run (n + 3)) p t s = { s with
        hac := h, osp := o, slp := q
        bsq := { s.bsq with
          recs := s.bsq.recs.set .sb r
          stop := some { kind := .brake, cause := .overspeed, x := s.ptr.x, vMeas := s.ptr.vMeas, check := check } } } ∧
      r.cmd = .apply ∧ o.level = .service ∧ o.vPerm = (s.envelope p).vPerm ∧ (s.hac.state = .held → h.state = .held) ∧
      (s.hac.state ≠ .held → h.state = .stopping) ∧ (s.hac.state.drives = true → h.vRef = 0) := by
  obtain ⟨q, q', evaluate⟩ := evaluate_running (n := n + 2) (p := p) (t := t) runs
  obtain ⟨h, o, evaluated, cut⟩ := evaluated_cuts s p t
  obtain ⟨h', o', r, q'', ordered, halted, applied⟩ := brake_order (n := n) (cause := .overspeed) (s := { s with hac := h, osp := o })
    empty no_test runs unwarmed
  rw [rolls_not, if_neg (by decide), levelled_rises rises, level, levelOrder, evaluated, ordered] at evaluate
  have stored_level : o'.level = .service := halted.level.trans (cut.level.trans level)
  have still : s.hac.state ≠ .held → h.state ≠ .held := by
    intro moves
    rcases cut.moves moves with same | ⟨stopping, -⟩
    · rw [same]
      exact moves
    · rw [stopping]
      decide
  refine ⟨h', o', r, q, _, evaluate, applied, stored_level, halted.vPerm.trans cut.vPerm, fun held => ?_,
    fun moves => halted.stops (still moves), fun drives => ?_⟩
  · rw [(halted.stays (.inl (cut.held held).1)).1]
    exact (cut.held held).1
  · rcases cut.moves (not_held_of_drives drives) with same | ⟨stopping, zero⟩
    · have drives : h.state.drives = true := same ▸ drives
      exact halted.zero (not_held_of_drives drives) (ne_of_drives drives rfl)
    · rw [(halted.stays (.inr stopping)).1]
      exact zero

/-! ## The emergencies of an evaluation (R58, R63) -/

/-- An EMERGENCY stop taken within an evaluation: beside its record, the haulage and the supervisor, the mode, the rail-brake trip and
the reports (R74, R78, R80). -/
def State.Trips (s : State) (cause : StopCause) (h : Haulage) (o : Supervisor) (b : Bool) (t : State) : Prop :=
  ∃ r l q, t = { s with
      hac := h, osp := o, lmu := l, slp := q
      bsq := { s.bsq with
        recs := r, stop := some (s.emergencyRecord cause), latch := some (s.bsq.latch.getD cause), railTrip := b } } ∧
    (∀ b, (r.get b).cmd = .apply) ∧ l.mode = .tripped ∧ (s.hac.state = .held → h.state = .held) ∧
    (s.hac.state ≠ .held → h.state = .stopping)

variable {cause : StopCause} {h : Haulage} {o : Supervisor} {b : Bool} {u : State}

theorem State.Trips.behind (trips : s.Trips cause h o b u) (plain : s.plain) : u.BehindEmergency := by
  obtain ⟨r, l, q, rfl, -, -, held, moves⟩ := trips
  refine ⟨⟨_, rfl, rfl, rfl⟩, plain.1, ?_, plain.2.1⟩
  by_cases rest : s.hac.state = .held
  · exact .inl (held rest)
  · exact .inr (moves rest)

theorem State.Trips.linked (trips : s.Trips cause h o b u) (q : Link) : s.Trips cause h o b { u with slp := q } := by
  obtain ⟨r, l, _, rfl, rest⟩ := trips
  exact ⟨r, l, q, rfl, rest⟩

/-- The kept speeds apart, the state is as an emergency stop leaves it. -/
theorem State.Trips.taken (trips : s.Trips cause h o b u) : s.speedKept.emergencyTaken u.speedKept cause := by
  obtain ⟨r, l, q, rfl, applied, tripped, held, moves⟩ := trips
  exact ⟨rfl, rfl, applied, tripped, fun rest => held (beq_iff_eq.1 rest), fun away => moves (bne_iff_ne.1 away), rfl, rfl, rfl, rfl, rfl,
    rfl, rfl, rfl, rfl, rfl⟩

/-- An EMERGENCY order on the state that an evaluation has stored. -/
theorem evaluated_trips (plain : s.plain) (empty : s.bsq.stop = none) (cause : StopCause) (q : Link) : ∃ h o,
    s.Trips cause h o s.bsq.railTrip (run (n + 4) (.orderStop .emergency cause) { s.evaluated p t with slp := q }) ∧
      (s.hac.state = .held → o = s.stored p t) := by
  obtain ⟨h, o, evaluated, cut⟩ := evaluated_cuts s p t
  obtain ⟨h', o', r, l, q', ordered, halted, applied, tripped⟩ := emergency_order (n := n) (cause := cause)
    (s := { s with hac := h, osp := o, slp := q }) plain empty
  refine ⟨h', o', ⟨r, l, q', ?_, applied, tripped, fun held => ?_, fun moves => halted.stops ?_⟩, fun held => ?_⟩
  · rw [evaluated]
    exact ordered
  · rw [(halted.stays (.inl (cut.held held).1)).1]
    exact (cut.held held).1
  · rcases cut.moves moves with same | ⟨stopping, -⟩
    · show h.state ≠ .held
      rw [same]
      exact moves
    · show h.state ≠ .held
      rw [stopping]
      decide
  · exact (halted.stays (.inl (cut.held held).1)).2.trans (cut.held held).2

/-- A rollback finds the emergency stop of a rise in the record, and changes nothing of it (R63, R74). -/
theorem evaluate_levelled_trips (plain : s.plain) (trips : s.Trips cause h o b (s.levelled (run (n + 1)) p t)) :
    s.Trips cause h o b (evaluate (run (n + 1)) p t s) := by
  obtain ⟨q, q', evaluate⟩ := evaluate_running (n := n) (p := p) (t := t) plain.1
  have absorbed : run (n + 1) (.orderStop .emergency .rollback) { s.levelled (run (n + 1)) p t with slp := q } = _ :=
    orderStopNow_absorbed ((trips.linked q).behind plain)
  rw [absorbed] at evaluate
  rw [evaluate]
  split
  · exact trips.linked q'
  · exact trips.linked q

/-- The rail-brake trip is asserted (R80). -/
theorem State.Trips.rail (trips : s.Trips cause h o b u) : s.Trips cause h o true (assertRail u) := by
  obtain ⟨r, l, q, rfl, rest⟩ := trips
  unfold assertRail
  split
  · rename_i asserted
    cases (show b = true from asserted)
    exact ⟨r, l, q, rfl, rest⟩
  · rw [post_eq_taking]
    exact ⟨r, l, _, rfl, rest⟩

section
variable (plain : s.plain) (empty : s.bsq.stop = none)
include plain empty

/-- An evaluation that rises into EMERGENCY (R58). -/
theorem evaluate_emergency (rises : s.rises p = true) (level : (s.envelope p).level = .emergency) :
    ∃ h o, s.Trips .overspeed h o s.bsq.railTrip (evaluate (run (n + 4)) p t s) := by
  obtain ⟨h, o, trips, -⟩ := evaluated_trips (n := n) (p := p) (t := t) plain empty .overspeed (s.evaluated p t).slp
  refine ⟨h, o, evaluate_levelled_trips plain ?_⟩
  rw [levelled_rises rises, level]
  exact trips

/-- An evaluation that rises into RAIL (R58, R80). -/
theorem evaluate_rail (rises : s.rises p = true) (level : (s.envelope p).level = .rail) :
    ∃ h o, s.Trips .rail h o true (evaluate (run (n + 4)) p t s) := by
  obtain ⟨h, o, trips, -⟩ := evaluated_trips (n := n) (p := p) (t := t) plain empty .rail (s.evaluated p t).slp
  refine ⟨h, o, evaluate_levelled_trips plain ?_⟩
  rw [levelled_rises rises, level]
  exact trips.rail

/-- An evaluation that finds a rollback and orders nothing else (R63). -/
theorem evaluate_rollback (calm : s.rises p = false ∨ (s.envelope p).level = .warn) (rolls : s.rollsBack t = true) : ∃ h o,
    s.Trips .rollback h o s.bsq.railTrip (evaluate (run (n + 4)) p t s) ∧ (s.hac.state = .held → o = s.stored p t) := by
  obtain ⟨q, q', evaluate⟩ := evaluate_running (n := n + 3) (p := p) (t := t) plain.1
  obtain ⟨h, o, trips, held⟩ := evaluated_trips (n := n) (p := p) (t := t) plain empty .rollback q
  rw [rolls, if_pos rfl, levelled_calm calm] at evaluate
  exact ⟨h, o, evaluate ▸ trips.linked q', held⟩

end

/-! ## A sample with its evaluation (R11, R47) -/

/-- The state of a sample with no switch active, once its tracker is known (R11). -/
def State.gauged (s : State) (p : LineFields) : State :=
  { s with overrun := false, ptr := s.sampled p ⟨false, false, false, false⟩ }

theorem gauged_plain (samples : s.samples p) (plain : s.plain) : (s.gauged p).plain := by
  obtain ⟨-, -, -, -, -, runs, still, positive⟩ := samples
  exact ⟨sampled_running runs still positive, plain.2⟩

/-- The evaluation at a sample with no switch active and the encoders within tolerance. -/
theorem exec_evaluates (samples : s.samples p) (mode : s.lmu.mode ≠ .init ∧ s.lmu.mode ≠ .parked)
    (class_ : (s.sampled p ⟨false, false, false, false⟩).beyond = false)
    (e : evaluate cascade p ((s.sampled p ⟨false, false, false, false⟩).dp - s.ptr.dp) (s.gauged p) = u)
    (runs : u.ptr.standstill = false) (no_test : u.bsq.test = none) (clear : (decelerationSample u).overrun = false) :
    exec (.positionSample false false false false) s = .next (decelerationSample u) := by
  obtain ⟨running, loaded, ordinary, -⟩ := samples
  have sampled := sample_within (k := cascade) (s := { s with overrun := false }) (w := ⟨false, false, false, false⟩) loaded class_
  rw [terminalSwitches_open rfl rfl, overtravelSwitches_open rfl rfl] at sampled
  have evaluates : (s.gauged p).evaluates = true := by
    simp [State.evaluates, State.loaded, State.gauged, loaded, mode]
  have completed := onSample_evaluates (n := 63) (s := s.gauged p) loaded evaluates e runs no_test
  rw [← sampled_travel ordinary] at completed
  exact exec_positionSample running (sampled.trans completed) clear

/-- An emergency within the evaluation of a sample (R58, R63). -/
theorem exec_trips (samples : s.samples p) (plain : s.plain) (mode : s.lmu.mode ≠ .init)
    (class_ : (s.sampled p ⟨false, false, false, false⟩).beyond = false)
    (trips : (s.gauged p).Trips cause h o b
      (evaluate cascade p ((s.sampled p ⟨false, false, false, false⟩).dp - s.ptr.dp) (s.gauged p))) :
    ∃ t, exec (.positionSample false false false false) s = .next t ∧
      (s.keeping (s.sampled p ⟨false, false, false, false⟩)).emergencyTaken t cause ∧ t.bsq.railTrip = b ∧ t.osp = o := by
  generalize e : evaluate cascade p _ (s.gauged p) = u at trips
  have taken := trips.taken
  have behind := trips.behind (gauged_plain samples plain)
  obtain ⟨r, record, -, unchecked⟩ := behind.record
  have sampled := exec_evaluates samples ⟨mode, plain.2.2.1⟩ class_ e behind.runs behind.no_test
  rw [decelerationSample_unchecked record unchecked] at sampled
  obtain ⟨_, _, _, rfl, -⟩ := trips
  exact ⟨_, sampled rfl, taken, rfl, rfl⟩

/-- Settles O35: the root, the least ceiling and the level by their definitions, and the orders of an evaluation by the rise and the
rollback that it finds. -/
theorem envelopeOrdersStops : Obligations.EnvelopeOrdersStops := by
  refine ⟨isqrt_root, fun l v b => leastCeiling_iff, fun s p c => envelope_vPerm_le, fun p vPerm v => levelOf_iff p vPerm v,
    fun s p samples plain mode ot_lower ot_upper => ?_⟩
  intro q now r travel acc rises rollsBack sampled class_
  have runs := (gauged_plain samples plain).1
  obtain ⟨-, -, -, empty, no_test, -⟩ := id samples
  have accumulated : accumulate (s.gauged p) travel = acc := accumulate_eq _ _
  have rolls_iff : (s.gauged p).rollsBack travel = true ↔ rollsBack := by
    rw [State.rollsBack, accumulated]
    show _ ↔ 200 < acc ∧ (s.osp.fresh = true ∨ s.osp.ordered = false)
    simp [State.gauged]
  have rises_iff : (s.gauged p).rises p = true ↔ rises := decide_eq_true_iff
  have rolls_not : ¬rollsBack → (s.gauged p).rollsBack travel = false :=
    fun not => Bool.eq_false_iff.2 fun rolls => not (rolls_iff.1 rolls)
  have calm : ¬rises ∨ r.level = .warn → (s.gauged p).rises p = false ∨ ((s.gauged p).envelope p).level = .warn :=
    Or.imp_left fun not => Bool.eq_false_iff.2 fun up => not (rises_iff.1 up)
  refine ⟨fun not flat no_ramp => ?_, fun not up level unwarmed => ?_, fun up level => ?_, fun up level => ?_, fun rolls flat => ?_⟩
  · obtain ⟨w, q', evaluated⟩ := evaluate_calm (n := 63) (t := travel) runs (calm flat) (rolls_not not) no_ramp
    have completed := exec_evaluates samples ⟨mode, plain.2.2.1⟩ class_ evaluated runs no_test
    rw [decelerationSample_unstopped (by exact empty)] at completed
    refine ⟨_, completed rfl, rfl, rfl, rfl, rfl, rfl, ?_⟩
    have unordered : (!s.osp.fresh && s.osp.ordered || false) = (!s.osp.fresh && s.osp.ordered) := Bool.or_false _
    show (s.gauged p).stored p travel = _
    rw [State.stored, accumulated, rolls_not not, ← unordered]
    rfl
  · obtain ⟨h, o, record, q', check, evaluated, applied, stored_level, stored_vPerm, held, moves, zero⟩ := evaluate_service (n := 61)
      (t := travel) runs no_test empty (rolls_not not) (rises_iff.2 up) level unwarmed
    have completed := exec_evaluates samples ⟨mode, plain.2.2.1⟩ class_ evaluated runs no_test
    obtain ⟨check', checked⟩ := decelerationSample_stopped (s := { s.gauged p with
      hac := h, osp := o, slp := q'
      bsq := { s.bsq with
        recs := s.bsq.recs.set .sb record
        stop := some { kind := .brake, cause := .overspeed, x := q.x, vMeas := q.vMeas, check := check } } }) rfl
    exact ⟨_, (completed (congrArg State.overrun checked)).trans (congrArg _ checked), stored_level, stored_vPerm, applied,
      rfl, rfl, held, moves, zero, check', rfl⟩
  · obtain ⟨h, o, trips⟩ := evaluate_emergency (n := 60) (t := travel) (gauged_plain samples plain) empty (rises_iff.2 up) level
    obtain ⟨t, exits, taken, -⟩ := exec_trips samples plain mode class_ trips
    exact ⟨t, exits, taken⟩
  · obtain ⟨h, o, trips⟩ := evaluate_rail (n := 60) (t := travel) (gauged_plain samples plain) empty (rises_iff.2 up) level
    obtain ⟨t, exits, taken, rail, -⟩ := exec_trips samples plain mode class_ trips
    exact ⟨t, exits, taken, rail⟩
  · obtain ⟨h, o, trips, held⟩ := evaluate_rollback (n := 60) (t := travel) (gauged_plain samples plain) empty (calm flat)
      (rolls_iff.2 rolls)
    obtain ⟨t, exits, taken, -, osp⟩ := exec_trips samples plain mode class_ trips
    refine ⟨t, exits, taken, fun rest => ?_⟩
    rw [osp, held rest, State.stored, accumulated, rolls_iff.2 rolls]
    exact ⟨rfl, Bool.or_true _⟩

end Sys2Proof.Machine
end

section
/-! SUPPORT. The TSR requests: the examination of their fields and the list they store (R64 to R66). -/

namespace Sys2Proof.Machine

/-! ## The examination of a TSR (R65) -/

/-- An examination reports its first check where that fails, and goes on where it passes. -/
theorem firstFault_cons (c : FieldCheck) (l : List FieldCheck) :
    firstFault (c :: l) = if c.good then firstFault l else some c.offset := by
  cases good : c.good <;> simp [firstFault, good]

/-- The id, the start and the end are examined in this order; an end not above its start is at fault at the end's offset
(assumption log 34). -/
theorem firstFault_tsrChecks (id start stop : Nat) : firstFault (tsrChecks id start stop) =
    if 1 ≤ id ∧ id ≤ 255 then
      if start ≤ 4000000 then if start < stop ∧ stop ≤ 4000000 then none else some 5 else some 1
    else some 0 := by
  simp only [tsrChecks, firstFault_cons, FieldCheck.range, decide_eq_true_eq, Nat.zero_le, true_and, Nat.succ_le_iff,
    Config.maxPosition]
  rfl

/-! ## The list (R64) -/

/-- Removing an id keeps every entry of another id and no entry of this one. -/
theorem mem_removeTsr {id : Nat} {l : List Tsr} {y : Tsr} : y ∈ removeTsr id l ↔ y ∈ l ∧ y.id ≠ id := by
  rw [removeTsr, List.mem_filter, bne_iff_ne]

theorem holdsTsr_iff {id : Nat} {l : List Tsr} : l.any (fun t => t.id == id) = true ↔ ∃ z ∈ l, z.id = id := by
  simp only [List.any_eq_true, beq_iff_eq]

/-! ## The handling of TSR_ADD and TSR_REMOVE (R65, R66) -/

theorem handleTsrAdd_faulty {id start stop o : Nat} (speed : Nat) {s : State}
    (fault : firstFault (tsrChecks id start stop) = some o) : handleTsrAdd id start stop speed s = (s, badField o) := by
  simp only [handleTsrAdd, fault]

theorem handleTsrAdd_full {id start stop : Nat} (speed : Nat) {s : State} (good : firstFault (tsrChecks id start stop) = none)
    (new : ¬∃ z ∈ s.osp.tsrs, z.id = id) (full : 8 ≤ s.osp.tsrs.length) :
    handleTsrAdd id start stop speed s = (s, refuse .listFull) := by
  simp only [handleTsrAdd, good]
  refine if_pos ?_
  rw [Bool.eq_false_iff.2 (new ∘ holdsTsr_iff.1)]
  exact decide_eq_true full

/-- A good TSR of a held id, or with room in the list, takes its place there. -/
theorem handleTsrAdd_stores {id start stop : Nat} (speed : Nat) {s : State} (good : firstFault (tsrChecks id start stop) = none)
    (room : (∃ z ∈ s.osp.tsrs, z.id = id) ∨ s.osp.tsrs.length < 8) :
    let z : Tsr := { id := id, start := start, stop := stop, speed := s.tsrSpeed speed }
    let l := insertTsr z (removeTsr id s.osp.tsrs)
    handleTsrAdd id start stop speed s =
      (setTsrs l s, accept (.tsrAdded z.speed (s.osp.tsrs.any (fun t => t.id == id)) l.length)) := by
  simp only [handleTsrAdd, good]
  refine if_neg ?_
  rw [Bool.and_eq_true, Bool.not_eq_true', decide_eq_true_eq]
  rintro ⟨new, full⟩
  rcases room with held | short
  · exact Bool.eq_false_iff.1 new (holdsTsr_iff.2 held)
  · exact Nat.not_le.2 short full

theorem handleTsrRemove_outside {id : Nat} (s : State) (outside : id = 0 ∨ 255 < id) :
    handleTsrRemove id s = (s, badField 0) := if_neg (by omega)

theorem handleTsrRemove_removes {id : Nat} (s : State) (low : 1 ≤ id) (high : id ≤ 255) :
    handleTsrRemove id s = (setTsrs (removeTsr id s.osp.tsrs) s,
      accept (.tsrRemoved (s.osp.tsrs.any (fun t => t.id == id)) (removeTsr id s.osp.tsrs).length)) := if_pos ⟨low, high⟩

/-- Settles O34: the first field at fault, then the room in the list, decide a TSR_ADD; the id alone decides a TSR_REMOVE. -/
theorem tsrRequestsKeepList : Obligations.TsrRequestsKeepList := by
  refine ⟨fun tag id start stop speed s listens => ?_, fun tag id s listens => ⟨fun outside => ?_, fun low high => ?_⟩⟩
  · intro held v z refused
    have clamped : s.tsrSpeed speed = v := by
      simp only [State.tsrSpeed, v]
      cases s.line <;> rfl
    have faulty : ∀ {o}, firstFault (tsrChecks id start stop) = some o → refused .badField (.field o) := fun fault =>
      request_answers listens (handleTsrAdd_faulty speed fault) rfl
    have passes : 1 ≤ id → id ≤ 255 → start < stop → stop ≤ 4000000 → firstFault (tsrChecks id start stop) = none :=
      fun low high order within => by
        rw [firstFault_tsrChecks, if_pos ⟨low, high⟩, if_pos (order.le.trans within), if_pos ⟨order, within⟩]
    refine ⟨fun outside => faulty ?_, fun low high beyond => faulty ?_, fun low high start_good stop_bad => faulty ?_,
      fun low high order within new full => ?_, fun low high order within room => ?_⟩
    · rw [firstFault_tsrChecks, if_neg (by omega)]
    · rw [firstFault_tsrChecks, if_pos ⟨low, high⟩, if_neg (Nat.not_le.2 beyond)]
    · rw [firstFault_tsrChecks, if_pos ⟨low, high⟩, if_pos start_good, if_neg (by omega)]
    · exact request_answers listens (handleTsrAdd_full speed (passes low high order within) new full) rfl
    · have stored := handleTsrAdd_stores speed (s := s.heard) (passes low high order within) room
      rw [show s.heard.tsrSpeed speed = v from clamped] at stored
      refine ⟨insertTsr z (removeTsr id s.osp.tsrs), s.osp.tsrs.any (fun t => t.id == id), request_answers listens stored rfl,
        holdsTsr_iff, fun y => (mem_insertTsr z _ y).trans (or_congr_right mem_removeTsr), fun law => ?_⟩
      exact addTsr_law law z ⟨low, high, order, le_max_left 100 _⟩ (room.imp_left holdsTsr_iff.2)
  · exact request_answers listens (handleTsrRemove_outside s.heard outside) rfl
  · exact ⟨_, _, request_answers listens (handleTsrRemove_removes s.heard low high) rfl, holdsTsr_iff, List.filter_sublist,
      fun _ => mem_removeTsr⟩

end Sys2Proof.Machine
end

section
/-! SUPPORT. The laws of the brakes that every step keeps, and the millisecond that passes on an empty queue. -/

namespace Sys2Proof.Machine

/-! ## The interlock and the emergency latch (R73, R78) -/

/-- A millisecond neither reads nor moves the mark of hand-overs that went too deep. -/
theorem tick_clear (s : State) : tick { s with overrun := false } = { tick s with overrun := false } := by
  cases held : s.inReset <;> simp only [tick, held]

theorem tick_interlocked {s : State} (law : s.interlocked) : (tick s).interlocked := by
  rcases (tick_run { s with overrun := false }).interlocked (.inl law) with kept | deep
  · rw [tick_clear] at kept
    exact kept
  · rw [tick_clear] at deep
    exact nomatch deep

/-- A brake record at a reset is commanded APPLY (R89). -/
theorem atReset_cmd (x : Reading) (bound : Timer) : (BrakeRec.atReset x bound).cmd = .apply := by
  unfold BrakeRec.atReset
  split <;> rfl

/-- Settles O11: every part of a step brings its own watch with it, and a reset commands SB APPLY. -/
theorem interlockLawKept : Obligations.InterlockLawKept := fun _ _ law h =>
  step_keeps State.interlocked (fun _ _ r p => r.interlocked (.inl p)) (fun _ _ _ p => p)
    (fun _ _ released => nomatch (atReset_cmd _ _).symm.trans released)
    (fun _ _ released => nomatch (atReset_cmd _ _).symm.trans released) (fun _ _ p => p) (fun _ p => tick_interlocked p)
    (fun _ _ _ p => p) law h

/-- A run keeps the law that the emergency latch holds EB. -/
theorem Run.latchHolds {s t : State} (h : Run s t) : s.latchHolds → t.latchHolds := by
  induction h with
  | trans _ _ ih1 ih2 => exact fun h => ih2 (ih1 h)
  | brakes _ _ _ latch => exact latch
  | post s r => intro h; rw [post_eq]; exact h
  | side _ _ _ _ _ _ ih => exact ih
  | fresh _ _ _ _ _ _ ih => exact ih
  | health _ _ _ _ _ ih => exact ih
  | _ => exact id

/-- Settles O12: each change of the brakes keeps the law, and a reset clears the latch. -/
theorem emergencyLatchHoldsBrake : Obligations.EmergencyLatchHoldsBrake := fun _ _ law h =>
  step_keeps State.latchHolds (fun _ _ r p => .inl (r.latchHolds p)) (fun _ _ _ p => p) (fun _ _ set => nomatch set)
    (fun _ _ set => nomatch set) (fun _ _ p => p) (fun _ p => (tick_run _).latchHolds p) (fun _ _ _ p => p) law h

/-! ## The idle millisecond (assumption log 2) -/

theorem step_idle {s : State} (idle : s.pending = []) : step s = .next (tick s) := by
  simp only [step, idle]

theorem tick_running {s : State} (running : s.isRunning) : tick s = { s with
    bsq := s.bsq.tick
    clu := { s.clu with recs := ⟨s.clu.recs.a.tick, s.clu.recs.b.tick⟩ }
    dru := { s.dru with sides := ⟨tickSides s.dru.sides.a, tickSides s.dru.sides.b⟩ }
    glm := s.glm.tick
    lmu := s.lmu.tick
    slp := { s.slp with gap := Timer.tick s.slp.gap } } := by
  simp only [tick, show s.inReset = none from running]

theorem decelCheck_tick (c : DecelCheck) : c.tick = match c with
    | .running t => .running (t.map (· - 1))
    | c => c := by
  cases c <;> rfl

theorem supTimer_tick (t : SupTimer) : t.tick = match t with
    | .running n => .running (n - 1)
    | t => t := by
  cases t <;> rfl

/-- Settles O2: the millisecond of each block is the statement's, the deceleration check and the supervision timer by their cases. -/
theorem idleMillisecond : Obligations.IdleMillisecond := by
  intro s idle running down brake car side window
  rw [step_idle idle, tick_running running]
  have stop : StopRecord.tick = fun r => { r with check := match r.check with
      | .running t => .running (down t)
      | c => c } := funext fun r => congrArg (fun c => { r with check := c }) (decelCheck_tick r.check)
  have sup := supTimer_tick s.lmu.supTimer
  rw [Brakes.tick, stop, LineMode.tick, sup]
  rfl

end Sys2Proof.Machine
end

section
/-! SUPPORT. The supervision of the station computer, and a brake test that is aborted. -/

namespace Sys2Proof.Machine

variable {k : Hand}

/-! ## What waits for standstill on a quiet line (R79) -/

/-- A line on which standstill brings no trip to its end: the cars run, or the haulage is HELD. -/
abbrev State.quiet (s : State) : Prop := s.ptr.standstill = false ∨ s.hac.state = .held

/-- The stop record once a line at rest with SB APPLIED has ended its stop (R79). -/
def State.restedStop (s : State) : Option StopRecord :=
  if s.ptr.standstill = true ∧ (s.brake .sb).state = .applied then none else s.bsq.stop

/-- The state of a quiet line once what waits for standstill has come about, but for the reports. -/
abbrev State.rested (s : State) : State := { s with bsq := { s.bsq with stop := s.restedStop } }

theorem restedStop_rested (s : State) (q : Link) : State.restedStop { s.rested with slp := q } = s.restedStop := by
  show (if s.ptr.standstill = true ∧ (s.brake .sb).state = .applied then none else s.restedStop) = s.restedStop
  unfold State.restedStop
  split <;> rfl

/-- On a quiet line standstill ends the stop in progress and nothing else (R35a, R40, R75, R79). -/
theorem settleNow_quiet {s : State} (quiet : s.quiet) : ∃ q, settleNow k s = { s.rested with slp := q } := by
  rcases quiet with runs | held
  · have unrested : s.restedStop = s.bsq.stop := if_neg fun rests => absurd (runs.symm.trans rests.1) (by decide)
    rw [settleNow_running runs, State.rested, unrested]
    exact ⟨s.slp, rfl⟩
  · have not_due : s.setDue = false := by simp [State.setDue, held]
    have not_stopping : (s.hac.state == .stopping) = false := by rw [held]; rfl
    simp only [settleNow, not_due, not_stopping, Bool.false_and, Bool.false_eq_true, if_false, State.restedStop]
    by_cases rests : s.ptr.standstill = true ∧ (s.brake .sb).state = .applied
    · rw [if_pos (by simpa [State.sbApplied] using rests), if_pos rests]
      exact endStop_eq s
    · rw [if_neg (by simpa [State.sbApplied] using rests), if_neg rests]
      exact ⟨s.slp, rfl⟩

/-- A change of brake states on a quiet line without a trip that waits for a brake, a test or a warming (R72). -/
theorem brakesChanged_quiet {n : Nat} {s : State} (quiet : s.quiet) (not_releasing : s.hac.state ≠ .releasing)
    (not_berthing : s.hac.state ≠ .berthing) (no_test : s.bsq.test = none) (not_warming : s.lmu.mode ≠ .warming) :
    ∃ q, run (n + 2) .brakesChanged s = { s.rested with slp := q } := by
  have haulage : haulageOnBrakes (run (n + 1)) s = s := by
    unfold haulageOnBrakes
    split
    case h_1 releasing => exact absurd releasing not_releasing
    case h_2 berthing => exact absurd berthing not_berthing
    all_goals rfl
  obtain ⟨q, settled⟩ := settleNow_quiet (k := run n) quiet
  have settle : run (n + 1) .settle s = { s.rested with slp := q } := settled
  have test : testProgress (run (n + 1)) { s.rested with slp := q } = { s.rested with slp := q } := by
    simp only [testProgress, no_test]
  refine ⟨q, ?_⟩
  rw [run_succ, act, brakesChangedNow, haulage, settle]
  simp only [test]
  exact warmingCheck_elsewhere not_warming

/-! ## A test aborted on a line that is HELD (R86) -/

/-- A brake commanded APPLY on a line that is HELD, without a test or a warming: its record, and perhaps the end of the stop. -/
theorem command_applies {n : Nat} {b : BrakeId} {s : State} (held : s.hac.state = .held) (no_test : s.bsq.test = none)
    (not_warming : s.lmu.mode ≠ .warming) : ∃ r st q, run (n + 3) (.command b .apply) s =
      { s with bsq := { s.bsq with recs := s.bsq.recs.set b r, stop := st }, slp := q } ∧ r.cmd = .apply := by
  let r := (s.brake b).commanded .apply (s.reading b) (s.respBound b)
  have allowed : s.commandAllowed b .apply = true := by cases b <;> rfl
  have command : run (n + 3) (.command b .apply) s = handOverBrakes (run (n + 2)) s.brakeStates (s.setBrake b r) := if_pos allowed
  have applied : r.cmd = .apply := commanded_cmd _ _ _ _
  by_cases same : (s.setBrake b r).brakeStates = s.brakeStates
  · exact ⟨r, s.bsq.stop, s.slp, command.trans (if_pos same), applied⟩
  · obtain ⟨q, changed⟩ := brakesChanged_quiet (n := n) (s := s.setBrake b r) (.inr held) (by rw [setBrake_hac, held]; decide)
      (by rw [setBrake_hac, held]; decide) no_test not_warming
    exact ⟨r, _, q, command.trans ((if_neg same).trans changed), applied⟩

/-- An abort of a running test: both brakes commanded APPLY, SB first, and the report (R86). -/
theorem abortTestNow_some {cause : AbortCause} {s : State} {x : BrakeTest} (test : s.bsq.test = some x) :
    ∃ report, abortTestNow k cause s = post report (k (.command .eb .apply) (k (.command .sb .apply) (setTest none false s))) := by
  simp only [abortTestNow, test]
  exact ⟨_, rfl⟩

/-- A test aborted on a line that is HELD: both brakes commanded APPLY, and the torque line clear (R86). -/
theorem abortTest_held {n : Nat} {cause : AbortCause} {s : State} {x : BrakeTest} (held : s.hac.state = .held)
    (test : s.bsq.test = some x) (not_warming : s.lmu.mode ≠ .warming) : ∃ r st q, run (n + 4) (.abortTest cause) s =
      { s with bsq := { s.bsq with test := none, torqueLine := false, recs := r, stop := st }, slp := q } ∧
        ∀ b, (r.get b).cmd = .apply := by
  obtain ⟨sb, st, q, set_sb, sb_applied⟩ := command_applies (n := n) (b := .sb) (s := setTest none false s) held rfl not_warming
  obtain ⟨eb, st', q', set_eb, eb_applied⟩ := command_applies (n := n) (b := .eb)
    (s := { s with
      bsq := { s.bsq with test := none, torqueLine := false, recs := s.bsq.recs.set .sb sb, stop := st }, slp := q }) held rfl not_warming
  obtain ⟨report, aborted⟩ := abortTestNow_some (k := run (n + 3)) (cause := cause) test
  have commanded := (congrArg (run (n + 3) (.command .eb .apply)) set_sb).trans set_eb
  refine ⟨_, st', _, aborted.trans ((congrArg (post report) commanded).trans (post_eq_taking _ _)), fun b => ?_⟩
  cases b
  · exact sb_applied
  · exact eb_applied

/-! ## A supervision expiry (R177) -/

/-- The state of a supervision expiry, but for its hand-overs and its report. -/
abbrev State.supervisionLost (s : State) : State :=
  { s with lmu := { s.lmu with lost := true, supTimer := .stopped, suspended := false } }

/-- A supervision expiry in its stages: the abort of a test, the lost flag with its report, the order on a moving line, and the
windows, of which none is OPEN. -/
theorem supervisionExpired_stages {s a : State} (aborts : k (.abortTest .supervision) s = a) : ∃ q,
    let lost : State := { a.supervisionLost with slp := q }
    let ordered := if lost.moving then k (.orderStop .controlled .supervision) lost else lost
    (ordered.noneOpen → supervisionExpired k s = ordered) := by
  unfold supervisionExpired modeReport
  rw [aborts]
  simp only [post_eq_taking]
  exact ⟨_, fun none_open => sealAll_none none_open⟩

/-- While HELD an expiry is its lost flag and the abort of a test. -/
theorem supervisionExpired_held {s a : State} (aborts : k (.abortTest .supervision) s = a) (held : a.hac.state = .held)
    (none_open : a.noneOpen) : ∃ q, supervisionExpired k s = { a.supervisionLost with slp := q } := by
  obtain ⟨q, stages⟩ := supervisionExpired_stages aborts
  dsimp only at stages
  rw [not_moving (by exact held), if_neg (by decide)] at stages
  exact ⟨q, stages none_open⟩

/-- On a moving line without a test an expiry orders a CONTROLLED stop. -/
theorem supervisionExpired_moving {s t : State} (no_abort : k (.abortTest .supervision) s = s) (moves : s.hac.state ≠ .held)
    (orders : ∀ q, ∃ q', k (.orderStop .controlled .supervision) { s.supervisionLost with slp := q } = { t with slp := q' })
    (none_open : t.noneOpen) : ∃ q, supervisionExpired k s = { t with slp := q } := by
  obtain ⟨q, stages⟩ := supervisionExpired_stages no_abort
  obtain ⟨q', ordered⟩ := orders q
  dsimp only at stages
  rw [if_pos (moving_iff.2 (by exact moves)), ordered] at stages
  exact ⟨q', stages none_open⟩

/-! ## SUPERVISE and the supervision timer (R176, R177) -/

/-- SUPERVISION_EXPIRY on a running device whose supervision timer runs. -/
theorem exec_supervisionExpiry {s t : State} {n : Nat} (running : s.isRunning) (timer : s.lmu.supTimer = .running n)
    (e : supervisionExpired cascade { s with overrun := false } = t) (clear : t.overrun = false) :
    exec .supervisionExpiry s = .next t := by
  subst e
  have expires : exec .supervisionExpiry s = whileRunning (fun s => match s.lmu.supTimer with
      | .running _ => supervisionExpired cascade s
      | .notStarted | .stopped => s) s := rfl
  have effect : (match s.lmu.supTimer with
      | .running _ => supervisionExpired cascade { s with overrun := false }
      | .notStarted | .stopped => { s with overrun := false }) = supervisionExpired cascade { s with overrun := false } := by
    rw [timer]
  rw [expires, whileRunning_next running ((congrArg State.overrun effect).trans clear)]
  exact congrArg _ effect

/-- SUPERVISE with a wrong code is refused with the expected one, and is a supervision expiry where the lost flag is clear. -/
theorem supervise_wrong {tag : Byte} {code : Nat} {s t : State} (listens : s.listening) (wrong : code ≠ s.lmu.expected.value)
    (handled : (if s.lmu.lost then s.heard else supervisionExpired cascade s.heard) = t) (clear : t.overrun = false) :
    exec (.supervise tag code) s = .next (t.replied tag .supervise (.refused .badCode (.code s.lmu.expected))) := by
  refine request_answers (h := handleSupervise code) listens ?_ clear
  rw [handleSupervise, if_neg (by exact wrong)]
  exact Prod.ext handled rfl

/-- A correct SUPERVISE outside PARKED (R176). -/
theorem supervised_eq {s : State} (not_parked : s.lmu.mode ≠ .parked) : ∃ q, supervised s = { s with
    slp := q
    lmu := { s.lmu with
      expected := s.lmu.expected.other, lost := false, suspended := false
      supTimer := match s.line with
        | some p => .running p.tSup
        | none => .notStarted } } := by
  have loud : s.lmu.isQuiet = false := by simp [LineMode.isQuiet, not_parked]
  simp only [supervised, loud, Bool.false_eq_true, if_false, modeReport, post_eq_taking]
  split
  · exact ⟨_, rfl⟩
  · exact ⟨s.slp, rfl⟩

theorem supervise_correct {tag : Byte} {s t : State} (listens : s.listening) (handled : supervised s.heard = t)
    (clear : t.overrun = false) : exec (.supervise tag s.lmu.expected.value) s =
      .next (t.replied tag .supervise (.accepted (.supervised s.lmu.expected.other s.lmu.lost))) := by
  refine request_answers (h := handleSupervise _) listens ?_ clear
  rw [handleSupervise, if_pos (by rfl), handled]
  rfl

/-- A supervision expiry by either way, where it leaves after v of the state v in which it is met, but for the reports. -/
theorem supervision_expires {s : State} {after : State → State}
    (expired : ∀ q, let met : State := { s with overrun := false, slp := q }
      (after met).overrun = false ∧ ∃ q', supervisionExpired cascade met = { after met with slp := q' }) :
    (∀ n, s.isRunning → s.lmu.supTimer = .running n →
      ∃ t, exec .supervisionExpiry s = .next t ∧ (after { s with overrun := false }).sameBut t) ∧
    (∀ (tag : Byte) (code : Nat), s.listening → code ≠ s.lmu.expected.value → s.lmu.lost = false →
      ∃ u : State, exec (.supervise tag code) s = .next (u.replied tag .supervise (.refused .badCode (.code s.lmu.expected))) ∧
        (after s.heard).sameBut u) := by
  refine ⟨fun n running timer => ?_, fun tag code listens wrong known => ?_⟩
  · obtain ⟨clear, q, e⟩ := expired s.slp
    exact ⟨_, exec_supervisionExpiry running timer e clear, rfl⟩
  · obtain ⟨clear, q, e⟩ := expired s.slp.received
    exact ⟨_, supervise_wrong listens wrong ((if_neg (by rw [known]; decide)).trans e) clear, rfl⟩

/-- Settles O56: the codes by the cases of the handler, and an expiry by what the line does at it: nothing while HELD, a CONTROLLED
stop or one absorbed while moving, and the abort of a test. -/
theorem supervisionHeld : Obligations.SupervisionHeld := by
  intro s lostState
  have rests : s.hac.state = .held → s.noneOpen → s.bsq.test = none → ∀ q,
      let met : State := { s with overrun := false, slp := q }
      (lostState met).overrun = false ∧ ∃ q', supervisionExpired cascade met = { lostState met with slp := q' } :=
    fun held none_open no_test q => ⟨rfl, supervisionExpired_held
      (abortTestNow_none (s := { s with overrun := false, slp := q }) no_test) held none_open⟩
  refine ⟨fun tag listens not_parked => ?_, fun tag code listens wrong lost => supervise_wrong listens wrong (if_pos lost) rfl,
    fun tag code listens wrong known held none_open no_test =>
      (supervision_expires (rests held none_open no_test)).2 tag code listens wrong known,
    fun n running timer held none_open no_test => (supervision_expires (rests held none_open no_test)).1 n running timer,
    fun moves none_open no_test => ?_, fun n x running timer held none_open test not_warming => ?_⟩
  · intro code
    obtain ⟨q, handled⟩ := supervised_eq (s := s.heard) not_parked
    have right : code = s.lmu.expected.value := by
      show (if s.lmu.expected = .c3C then 0x3C else 0xC3) = _
      cases s.lmu.expected <;> rfl
    rw [right]
    exact ⟨_, supervise_correct listens handled rfl, rfl⟩
  · intro stop ordered expires
    refine ⟨fun stopping => supervision_expires fun q => ⟨rfl, supervisionExpired_moving (t := lostState _)
        (abortTestNow_none (by exact no_test)) moves (fun q' => ⟨q', controlled_absorbed (by exact stopping)⟩) none_open⟩,
      fun empty runs grounded trip => supervision_expires fun q => ⟨rfl, supervisionExpired_moving (t := ordered _)
        (abortTestNow_none (by exact no_test)) moves (fun q' => ?_) none_open⟩⟩
    exact controlled_taken (n := 62) (cause := .supervision)
      (s := { State.supervisionLost { s with overrun := false, slp := q } with slp := q' }) empty no_test runs grounded trip
  · obtain ⟨r, st, q, aborts, applied⟩ := abortTest_held (n := 60) (cause := .supervision) (s := { s with overrun := false })
      held test not_warming
    obtain ⟨q', expired⟩ := supervisionExpired_held (k := cascade) aborts held none_open
    exact ⟨_, exec_supervisionExpiry running timer expired rfl, rfl, rfl, applied, rfl, rfl, rfl, rfl, rfl, rfl, rfl, rfl, rfl⟩

end Sys2Proof.Machine
end

section
/-! SUPPORT. Brake readings, and the emergencies that they and the response timers order. -/

namespace Sys2Proof.Machine

variable {k : Hand}

/-! ## The contacts of a brake on a line at rest (R69, R70) -/

/-- The inputs of a brake as they now stand. -/
abbrev State.withContacts (s : State) (b : BrakeId) (c : Contacts) : State :=
  { s with bsq := { s.bsq with contacts := s.bsq.contacts.set b c } }

/-- Contacts that leave the reading as it was change nothing else (assumption log 36). -/
theorem contactsChanged_same {b : BrakeId} {c : Contacts} {s : State} (same : c.reading = s.reading b) :
    contactsChanged k b c s = s.withContacts b c := if_pos (beq_iff_eq.2 same)

theorem contactsChanged_reads {b : BrakeId} {c : Contacts} {s : State} (differs : c.reading ≠ s.reading b) :
    contactsChanged k b c s = readingChanged k b c.reading (s.withContacts b c) := if_neg (by simpa using differs)

theorem reading_eq (x y : Bool) :
    Contacts.reading { applied := x, released := y } = if x = y then .between else if x then .applied else .released := by
  cases x <;> cases y <;> rfl

/-- A lift or a set that is complete on a line at rest changes its record and nothing else (R70). -/
theorem settleBrake_resting {n : Nat} {b : BrakeId} {st : BrakeState} {s : State} (held : s.hac.state = .held)
    (no_stop : s.bsq.stop = none) (no_test : s.bsq.test = none) (not_warming : s.lmu.mode ≠ .warming) :
    settleBrake (run (n + 2)) b st s = s.setBrake b { s.brake b with state := st, timer := none } :=
  brakesChanged_resting (s := s.setBrake b { s.brake b with state := st, timer := none }) held no_stop no_test (.inl not_warming)

/-! ## An EMERGENCY stop on a quiet line (R39, R74, R78, R79) -/

/-- A hand-over of brake states and what waits for standstill, on a quiet line without a trip that waits for a brake, a test or a
warming (R72, R79). -/
theorem handOverBrakes_settles {n : Nat} {before : BrakeState × BrakeState} {s : State} (quiet : s.quiet)
    (not_releasing : s.hac.state ≠ .releasing) (not_berthing : s.hac.state ≠ .berthing) (no_test : s.bsq.test = none)
    (not_warming : s.lmu.mode ≠ .warming) :
    ∃ q, run (n + 2) .settle (handOverBrakes (run (n + 2)) before s) = { s.rested with slp := q } := by
  unfold handOverBrakes
  split
  · exact settleNow_quiet quiet
  · obtain ⟨q, changed⟩ := brakesChanged_quiet (n := n) quiet not_releasing not_berthing no_test not_warming
    obtain ⟨q', settled⟩ := settleNow_quiet (k := run (n + 1)) (s := { s.rested with slp := q }) quiet
    refine ⟨q', ?_⟩
    rw [changed, run_succ, act, settled, State.rested, restedStop_rested]

/-- An order that enters the record of a line without a test, its stages as R74 has them. -/
theorem orderStopNow_takes {kind : StopKind} {cause : StopCause} {s : State} (takes : s.takesStop kind = true)
    (unaborted : k (.abortTest .stop) s = s) :
    let recorded : State := { s with bsq := { s.bsq with
      stop := some { kind := kind, cause := cause, x := s.ptr.x, vMeas := s.ptr.vMeas, check := s.firstCheck kind } } }
    ∃ report, orderStopNow k kind cause s = k .settle (handOverBrakes k s.brakeStates (emergencyMode k kind
      (post report (setLatch kind cause (stopCommands kind (haulageOnStop kind recorded)))))) := by
  simp only [orderStopNow, takes, if_true, takeStop, unaborted]
  exact ⟨_, rfl⟩

/-- Both records once their brakes are commanded APPLY (R70, R78). -/
abbrev State.appliedRecs (s : State) : PerBrake BrakeRec :=
  ⟨(s.brake .sb).commanded .apply (s.reading .sb) (s.respBound .sb), (s.brake .eb).commanded .apply (s.reading .eb) (s.respBound .eb)⟩

theorem appliedRecs_cmd (s : State) (b : BrakeId) : (s.appliedRecs.get b).cmd = .apply := by
  cases b <;> exact commanded_cmd _ _ _ _

/-- A brake that is commanded APPLY already keeps its record (R70). -/
theorem appliedRecs_same {s : State} {b : BrakeId} (same : (s.brake b).cmd = .apply) : s.appliedRecs.get b = s.brake b := by
  cases b <;> exact if_pos same

/-- A brake in FAULT that is commanded APPLY stays in FAULT (R70). -/
theorem commanded_fault {r : BrakeRec} {x : Reading} {bound : Timer} (fault : r.state = .fault) :
    r.commanded .apply x bound = { r with cmd := .apply } := by
  unfold BrakeRec.commanded
  split
  · rename_i same
    rw [← same]
  · simp only [BrakeRec.commandApply, fault]

theorem appliedRecs_fault {s : State} {b : BrakeId} (fault : (s.brake b).state = .fault) :
    s.appliedRecs.get b = { s.brake b with cmd := .apply } := by
  cases b <;> exact commanded_fault fault

/-- A quiet line on which an emergency stop sets off nothing but itself and its end at rest: no test runs, the line is not PARKED,
every side is SECURED and no window is OPEN. -/
structure State.Trippable (s : State) : Prop where
  quiet : s.quiet
  no_test : s.bsq.test = none
  from_parked : s.lmu.mode ≠ .parked
  secured : s.allSecured = true
  none_open : s.noneOpen

theorem State.plain.trippable {s : State} (plain : s.plain) : s.Trippable := by
  obtain ⟨runs, no_test, from_parked, secured, none_open⟩ := plain
  exact ⟨.inl runs, no_test, from_parked, secured, none_open⟩

/-- An EMERGENCY stop as it leaves such a line: the record, unless the line rests with SB APPLIED and has ended it, the latch, both
brakes commanded APPLY, the haulage halted and the mode TRIPPED. -/
def State.Emergency (s : State) (cause : StopCause) (t : State) : Prop :=
  ∃ h o l q, t = { s with
      hac := h, osp := o, lmu := l, slp := q
      bsq := { s.bsq with
        recs := s.appliedRecs, latch := some (s.bsq.latch.getD cause)
        stop := if s.ptr.standstill = true ∧ s.appliedRecs.sb.state = .applied then none else some (s.emergencyRecord cause) } } ∧
    s.Halted h o ∧ l.mode = .tripped

theorem emergency_trips {n : Nat} {cause : StopCause} {s : State} (takes : s.takesStop .emergency = true) (trippable : s.Trippable) :
    s.Emergency cause (run (n + 4) (.orderStop .emergency cause) s) := by
  obtain ⟨quiet, no_test, from_parked, secured, none_open⟩ := trippable
  obtain ⟨report, order⟩ := orderStopNow_takes (k := run (n + 3)) (cause := cause) takes (abortTestNow_none no_test)
  obtain ⟨h, o, haulage, halted⟩ := haulageOnStop_halts (kind := .emergency) (by decide)
    (s := { s with bsq := { s.bsq with stop := some (s.emergencyRecord cause) } })
  rw [show s.firstCheck .emergency = .absent from rfl, haulage, setLatch_emergency, post_eq_taking] at order
  generalize Link.taking _ _ = q at order
  let u : State := { s with
    hac := h, osp := o, slp := q
    bsq := { s.bsq with recs := s.appliedRecs, stop := some (s.emergencyRecord cause), latch := some (s.bsq.latch.getD cause) } }
  obtain ⟨l, q', mode, tripped⟩ := emergencyMode_still (n := n + 1) (s := u) from_parked secured none_open
  have still : State.quiet { u with lmu := l, slp := q' } := quiet.imp id fun held => by
    show h.state = .held
    rw [(halted.stays (.inl held)).1]
    exact held
  obtain ⟨q'', settled⟩ := handOverBrakes_settles (n := n + 1) (before := s.brakeStates) still halted.idle.1 halted.idle.2 no_test
    (by rw [show ({ u with lmu := l, slp := q' } : State).lmu.mode = .tripped from tripped]; decide)
  have ended := (congrArg (fun v => run (n + 3) .settle (handOverBrakes (run (n + 3)) s.brakeStates v)) mode).trans settled
  exact ⟨h, o, l, q'', Eq.trans order ended, { halted with }, tripped⟩

section
variable {cause : StopCause} {s t : State} (emergency : s.Emergency cause t)
include emergency

/-- While the cars run it is the emergency stop that R78 describes. -/
theorem State.Emergency.taken (runs : s.ptr.standstill = false) : s.emergencyTaken t cause := by
  obtain ⟨h, o, l, q, rfl, halted, tripped⟩ := emergency
  have stop : (if s.ptr.standstill = true ∧ s.appliedRecs.sb.state = .applied then none else some (s.emergencyRecord cause)) =
      some (s.emergencyRecord cause) := if_neg fun rests => absurd (runs.symm.trans rests.1) (by decide)
  refine ⟨stop, rfl, appliedRecs_cmd s, tripped, fun held => ?_, fun moves => halted.stops (moving_iff.1 moves), rfl, rfl, rfl, rfl, rfl,
    rfl, rfl, rfl, rfl, rfl⟩
  have held : s.hac.state = .held := beq_iff_eq.1 held
  rw [(halted.stays (.inl held)).1]
  exact held

theorem State.Emergency.linked (q : Link) : s.Emergency cause { t with slp := q } := by
  obtain ⟨h, o, l, _, rfl, rest⟩ := emergency
  exact ⟨h, o, l, q, rfl, rest⟩

theorem State.Emergency.overrun : t.overrun = s.overrun := by
  obtain ⟨_, _, _, _, rfl, -⟩ := emergency
  rfl

theorem State.Emergency.recs : t.bsq.recs = s.appliedRecs := by
  obtain ⟨_, _, _, _, rfl, -⟩ := emergency
  rfl

/-- A further change of brake states finds nothing left to set off (R72). -/
theorem State.Emergency.brakesChanged {n : Nat} (trippable : s.Trippable) : s.Emergency cause (run (n + 2) .brakesChanged t) := by
  obtain ⟨h, o, l, q, e, halted, tripped⟩ := id emergency
  have still : t.quiet := by
    rw [e]
    exact trippable.quiet.imp id fun held => by
      show h.state = .held
      rw [(halted.stays (.inl held)).1]
      exact held
  have rested : t.restedStop = t.bsq.stop := by
    rw [e]
    exact restedStop_rested { s with
      hac := h, osp := o, lmu := l
      bsq := { s.bsq with
        recs := s.appliedRecs, latch := some (s.bsq.latch.getD cause), stop := some (s.emergencyRecord cause) } } q
  obtain ⟨q', changed⟩ := brakesChanged_quiet (n := n) still (by rw [e]; exact halted.idle.1) (by rw [e]; exact halted.idle.2)
    (by rw [e]; exact trippable.no_test) (by rw [e]; show l.mode ≠ .warming; rw [tripped]; decide)
  rw [changed, State.rested, rested]
  exact emergency.linked q'

end

/-! ## What orders an EMERGENCY stop of the brakes (R70, R71, R77) -/

theorem takesStop_empty {kind : StopKind} {s : State} (empty : s.bsq.stop = none) : s.takesStop kind = true := by
  simp only [State.takesStop, empty]

/-- What an emergency stop leaves does not depend on the reports that wait before it, nor on the stop that it replaces. -/
theorem State.Emergency.replaced {cause : StopCause} {s t : State} {st : Option StopRecord} {q : Link}
    (emergency : State.Emergency { s with bsq := { s.bsq with stop := st }, slp := q } cause t) : s.Emergency cause t := by
  obtain ⟨h, o, l, q', rfl, halted, tripped⟩ := emergency
  exact ⟨h, o, l, q', rfl, { halted with }, tripped⟩

theorem brakeFault_stages (k : Hand) (b : BrakeId) (fault : BrakeFaultCause) (s : State) : ∃ q, brakeFault k b fault s =
    k .brakesChanged (k (.orderStop .emergency .brakeFault)
      { s.setBrake b { s.brake b with state := .fault, timer := none } with slp := q }) := by
  unfold brakeFault
  simp only [post_eq_taking]
  exact ⟨_, rfl⟩

theorem State.Trippable.setBrake {s : State} (trippable : s.Trippable) (b : BrakeId) (r : BrakeRec) (q : Link) :
    State.Trippable { s.setBrake b r with slp := q } :=
  ⟨trippable.quiet, trippable.no_test, trippable.from_parked, trippable.secured, trippable.none_open⟩

/-- A brake that enters FAULT (R71). -/
theorem brakeFault_trips {n : Nat} {b : BrakeId} {fault : BrakeFaultCause} {s : State} (trippable : s.Trippable)
    (empty : s.bsq.stop = none) :
    (s.setBrake b { s.brake b with state := .fault, timer := none }).Emergency .brakeFault (brakeFault (run (n + 4)) b fault s) := by
  obtain ⟨q, stages⟩ := brakeFault_stages (run (n + 4)) b fault s
  have faulted := trippable.setBrake b { s.brake b with state := .fault, timer := none } q
  have trips := emergency_trips (n := n) (cause := .brakeFault) (takesStop_empty (by exact empty)) faulted
  rw [stages]
  exact (trips.brakesChanged (n := n + 2) faulted).replaced (st := s.bsq.stop)

/-- A brake that the fault has put in FAULT, commanded APPLY. -/
theorem State.Emergency.faulted {cause : StopCause} {s t : State} {b : BrakeId}
    (emergency : (s.setBrake b { s.brake b with state := .fault, timer := none }).Emergency cause t) :
    t.brake b = { cmd := .apply, state := .fault, timer := none } := by
  rw [State.brake, emergency.recs, appliedRecs_fault (by rw [brake_setBrake]), brake_setBrake]

/-- EB RELEASED that is found applied on a line at rest (R70). -/
theorem externalTrip_trips {n : Nat} {s : State} (trippable : s.Trippable) (empty : s.bsq.stop = none) (held : s.hac.state = .held)
    (not_warming : s.lmu.mode ≠ .warming) :
    (s.setBrake .eb { cmd := .apply, state := .applied, timer := none }).Emergency .external (externalTrip (run (n + 4)) s) := by
  have changed : run (n + 4) .brakesChanged (s.setBrake .eb { cmd := .apply, state := .applied, timer := none }) = _ :=
    brakesChanged_resting (n := n + 2) held empty trippable.no_test (.inl not_warming)
  unfold externalTrip
  dsimp only
  rw [changed]
  have tripped := trippable.setBrake .eb { cmd := .apply, state := .applied, timer := none } s.slp
  exact emergency_trips (takesStop_empty (by exact empty)) tripped

/-- The expiry of t_check during a BRAKE stop (R77). -/
theorem checkExpired_trips {n : Nat} {r : StopRecord} {m : Timer} {s : State} (trippable : s.Trippable) (stop : s.bsq.stop = some r)
    (kind : r.kind = .brake) (running : r.check = .running m) : s.Emergency .escalation (checkExpired (run (n + 4)) s) := by
  have escalates : checkExpired (run (n + 4)) s = run (n + 4) (.orderStop .emergency .escalation)
      { s with bsq := { s.bsq with stop := some { r with check := .failed } } } := by
    simp only [checkExpired, stop, running]
  rw [escalates]
  have weaker : State.takesStop { s with bsq := { s.bsq with stop := some { r with check := .failed } } } .emergency = true := by
    simp only [State.takesStop, kind]
    decide
  exact (emergency_trips (n := n) weaker { trippable with }).replaced (q := s.slp)

/-! ## The response timers and t_check (R70, R77) -/

/-- BRAKE_RESPONSE_TIMEOUT on a running device. -/
theorem exec_brakeResponseTimeout {b : BrakeId} {s t : State} (running : s.isRunning)
    (e : (if (s.brake b).timer.isSome then responseExpired cascade b { s with overrun := false } else { s with overrun := false }) = t)
    (clear : t.overrun = false) : exec (.brakeResponseTimeout b) s = .next t := by
  subst e
  exact whileRunning_next running clear

theorem exec_decelerationCheckTimeout {s t : State} (running : s.isRunning) (e : checkExpired cascade { s with overrun := false } = t)
    (clear : t.overrun = false) : exec .decelerationCheckTimeout s = .next t := by
  subst e
  exact whileRunning_next running clear

/-- Settles O37: an expiry on a plain line trips it, the brake in FAULT or the stop escalated, and one with nothing running is none. -/
theorem timersOrderEmergency : Obligations.TimersOrderEmergency := by
  refine fun s running => ⟨fun b plain empty timer sound => ?_, fun b stopped => ?_, fun r m plain stop kind check => ?_, fun empty => ?_⟩
  · have faults : responseExpired cascade b { s with overrun := false } = brakeFault cascade b .timer { s with overrun := false } :=
      if_neg (mt beq_iff_eq.1 sound)
    have trips := brakeFault_trips (n := 60) (b := b) (fault := .timer) (s := { s with overrun := false })
      (State.plain.trippable plain) empty
    exact ⟨_, exec_brakeResponseTimeout running ((if_pos timer).trans faults) trips.overrun, trips.taken plain.1,
      congrArg BrakeRec.state trips.faulted, congrArg BrakeRec.timer trips.faulted⟩
  · exact exec_brakeResponseTimeout running (if_neg (by rw [stopped]; decide)) rfl
  · have trips := checkExpired_trips (n := 60) (s := { s with overrun := false }) (State.plain.trippable plain) stop kind check
    exact ⟨_, exec_decelerationCheckTimeout running rfl trips.overrun, trips.taken plain.1⟩
  · exact exec_decelerationCheckTimeout running (by simp only [checkExpired, empty]) rfl

/-! ## BRAKE_CONTACT_CHANGE (R69, R70) -/

section
variable {b : BrakeId} {s : State} {x : Reading}

theorem readingChanged_lifting (state : (s.brake b).state = .lifting) :
    readingChanged k b x s = if x = .released then settleBrake k b .released s else s := by
  cases x <;> simp [readingChanged, state]

theorem readingChanged_setting (state : (s.brake b).state = .setting) :
    readingChanged k b x s = if x = .applied then settleBrake k b .applied s else s := by
  cases x <;> simp [readingChanged, state]

/-- A reading between starts the response timer of a record at rest. -/
theorem readingChanged_between (state : (s.brake b).state = .applied ∨ (s.brake b).state = .released) :
    readingChanged k b .between s = setBrakeTimer b (s.respBound b) s := by
  rcases state with state | state <;> simp only [readingChanged, state]

/-- A reading back stops it. -/
theorem readingChanged_back (state : ((s.brake b).state = .applied ∧ x = .applied) ∨ ((s.brake b).state = .released ∧ x = .released)) :
    readingChanged k b x s = setBrakeTimer b none s := by
  rcases state with ⟨state, rfl⟩ | ⟨state, rfl⟩ <;> simp only [readingChanged, state]

theorem readingChanged_fault (state : (s.brake b).state = .fault) : readingChanged k b x s = s := by
  simp only [readingChanged, state]

/-- A reading that swings to the opposite is a fault of SB, and of EB where it was APPLIED. -/
theorem readingChanged_swings (state : ((s.brake b).state = .applied ∧ x = .released) ∨
    (b = .sb ∧ (s.brake b).state = .released ∧ x = .applied)) : readingChanged k b x s = brakeFault k b .uncommanded s := by
  rcases state with ⟨state, rfl⟩ | ⟨rfl, state, rfl⟩ <;> simp only [readingChanged, state]

theorem readingChanged_external (state : (s.brake .eb).state = .released) : readingChanged k .eb .applied s = externalTrip k s := by
  simp only [readingChanged, state]

end

/-- What an emergency leaves of a line that is HELD. -/
theorem State.Emergency.held {cause : StopCause} {s t : State} (emergency : s.Emergency cause t) (held : s.hac.state = .held) :
    t.bsq.stop = (if s.ptr.standstill = true ∧ (t.brake .sb).state = .applied then none else some (s.emergencyRecord cause)) ∧
      t.bsq.latch = some (s.bsq.latch.getD cause) ∧ (∀ d, (t.brake d).cmd = .apply) ∧ t.lmu.mode = .tripped ∧ t.hac.state = .held ∧
      t.bsq.contacts = s.bsq.contacts ∧ t.ptr = s.ptr ∧ t.clu = s.clu ∧ t.dru = s.dru ∧ t.ptb = s.ptb ∧ t.glm = s.glm ∧
      t.tally = s.tally ∧ t.line = s.line := by
  obtain ⟨h, o, l, q, rfl, halted, tripped⟩ := emergency
  refine ⟨rfl, rfl, appliedRecs_cmd s, tripped, ?_, rfl, rfl, rfl, rfl, rfl, rfl, rfl, rfl⟩
  rw [(halted.stays (.inl held)).1]
  exact held

/-- Settles O36: the record by its state and the new reading, and the two readings that trip by the emergency that they order. -/
theorem contactsMoveRecord : Obligations.ContactsMoveRecord := by
  intro b x y s running held no_stop no_test not_warming now inputs after bound
  have reads : Contacts.reading { applied := x, released := y } = now := reading_eq x y
  have bound_eq : inputs.respBound b = bound := by
    show _ = s.line.map _
    cases b <;> rfl
  refine ⟨fun same => exec_brakeContactChange running (contactsChanged_same (by rw [reads]; exact same)) rfl, fun differs => ?_⟩
  have moves : ∀ {t}, readingChanged cascade b now inputs = t → t.overrun = false → exec (.brakeContactChange b x y) s = .next t := by
    intro t e clear
    refine exec_brakeContactChange running ?_ clear
    rw [contactsChanged_reads (by rw [reads]; exact differs), reads]
    exact e
  have settles : ∀ st, settleBrake cascade b st inputs = inputs.setBrake b { s.brake b with state := st, timer := none } :=
    fun st => settleBrake_resting (n := 62) held no_stop no_test not_warming
  have leaves : inputs = inputs.setBrake b (s.brake b) := (setBrake_self inputs b).symm
  refine ⟨fun state at_now => moves (((readingChanged_lifting (s := inputs) state).trans (if_pos at_now)).trans (settles _)) rfl,
    fun state at_now => moves (((readingChanged_lifting (s := inputs) state).trans (if_neg at_now)).trans leaves) rfl,
    fun state at_now => moves (((readingChanged_setting (s := inputs) state).trans (if_pos at_now)).trans (settles _)) rfl,
    fun state at_now => moves (((readingChanged_setting (s := inputs) state).trans (if_neg at_now)).trans leaves) rfl,
    fun state at_now => moves ?_ rfl,
    fun state at_now => moves (readingChanged_back (.inl ⟨state, at_now⟩)) rfl,
    fun state at_now => moves (readingChanged_back (.inr ⟨state, at_now⟩)) rfl,
    fun state => moves ((readingChanged_fault (s := inputs) state).trans leaves) rfl, fun from_parked secured none_open => ?_⟩
  · rw [at_now, readingChanged_between (s := inputs) state, bound_eq]
    rfl
  · have trippable : inputs.Trippable := ⟨.inr held, no_test, from_parked, secured, none_open⟩
    refine ⟨fun swings => ?_, fun eb state at_now => ?_⟩
    · have trips := brakeFault_trips (n := 60) (b := b) (fault := .uncommanded) trippable no_stop
      exact ⟨_, moves (readingChanged_swings swings) trips.overrun, trips.held held, trips.faulted⟩
    · subst eb
      have trips := externalTrip_trips (n := 60) trippable no_stop held not_warming
      refine ⟨_, moves ?_ trips.overrun, trips.held held, ?_⟩
      · rw [at_now]
        exact readingChanged_external state
      · rw [State.brake, trips.recs]
        exact appliedRecs_same (s := inputs.setBrake .eb { cmd := .apply, state := .applied, timer := none }) (b := .eb) rfl

end Sys2Proof.Machine
end

section
/-! SUPPORT. TRIP_RESET. -/

namespace Sys2Proof.Machine

variable {k : Hand}

/-! ## TRIP_RESET (R81, R82) -/

/-- What no reason says of the line that a TRIP_RESET frees (R81). -/
theorem resets_of_tripReasons {s : State} (free : s.tripReasons = []) : s.lmu.mode = .tripped ∧ s.reading .eb = .applied := by
  have absent := namesPresent_nil free
  simp only [List.forall_mem_cons] at absent
  obtain ⟨mode, -, -, -, reading, -⟩ := absent
  exact ⟨by simpa using mode, by simpa using reading⟩

/-- A brake in FAULT is APPLIED, and another keeps its record (R82). -/
abbrev BrakeRec.cleared (r : BrakeRec) : BrakeRec := if r.state = .fault then { r with state := .applied, timer := none } else r

theorem clearFault_eq (b : BrakeId) (s : State) : ∃ q, clearFault b s = { s.setBrake b (s.brake b).cleared with slp := q } := by
  unfold clearFault BrakeRec.cleared
  simp only [post_eq_taking, beq_iff_eq]
  split
  · exact ⟨_, rfl⟩
  · rw [setBrake_self]
    exact ⟨s.slp, rfl⟩

theorem handleTripReset_inhibited {s : State} (inhibited : s.tripReasons ≠ []) :
    handleTripReset s = (s, .refused .inhibited (.tripReasons s.tripReasons)) := by
  unfold handleTripReset
  split
  · rename_i free
    exact absurd free inhibited
  · rfl

theorem cleared_applied {r : BrakeRec} (state : r.state = .applied ∨ r.state = .fault) : r.cleared.state = .applied := by
  unfold BrakeRec.cleared
  split
  · rfl
  · rename_i sound
    exact state.resolve_right sound

theorem cleared_cmd (r : BrakeRec) : r.cleared.cmd = r.cmd := by
  unfold BrakeRec.cleared
  split <;> rfl

/-- A change from TRIPPED to MAINTENANCE closes no door and seals no window (R115, R149). -/
theorem changeMode_maintains {n : Nat} {cause : ModeCause} {s : State} (tripped : s.lmu.mode = .tripped) :
    ∃ q, run (n + 1) (.changeMode (.plain .maintenance) cause none) s = { s with
      lmu := { s.lmu with mode := .maintenance, variant := none, target := none, warmTimer := none }, slp := q } := by
  have changed : run (n + 1) (.changeMode (.plain .maintenance) cause none) s = _ :=
    changeModeNow_plain (k := run n) (m := .maintenance) (cause := cause) (unmet := none) (by decide) (by decide)
      (by rw [tripped]; decide) (closeOnMode_keeps (by rw [tripped]; rfl) (.inl rfl))
  rw [changed, modeReport, post_eq_taking]
  exact ⟨_, rfl⟩

/-- The brakes of a line that TRIP_RESET frees: the latch and the rail-brake trip clear, SB as its fault's clearing leaves it, and EB
lifting (R82). -/
abbrev State.freed (s : State) : Brakes := { s.bsq with
  latch := none, railTrip := false
  recs := ⟨(s.brake .sb).cleared, { cmd := .release, state := .lifting, timer := s.line.map LineFields.tEbResp }⟩ }

/-- An accepted TRIP_RESET at rest with both brakes applied or in FAULT (R82). -/
theorem tripReset_frees {n : Nat} {s : State} (tripped : s.lmu.mode = .tripped) (reading : s.reading .eb = .applied)
    (held : s.hac.state = .held) (no_stop : s.bsq.stop = none) (no_test : s.bsq.test = none)
    (brakes : ∀ b, (s.brake b).cmd = .apply ∧ ((s.brake b).state = .applied ∨ (s.brake b).state = .fault)) :
    ∃ q, tripReset (run (n + 3)) s = { s with
      bsq := s.freed, slp := q, lmu := { s.lmu with mode := .maintenance, variant := none, target := none, warmTimer := none } } := by
  obtain ⟨q, sb⟩ := clearFault_eq .sb s
  obtain ⟨q', eb⟩ := clearFault_eq .eb { s.setBrake .sb (s.brake .sb).cleared with slp := q }
  let u : State := { s with
    slp := q'
    bsq := { s.bsq with latch := none, railTrip := false, recs := ⟨(s.brake .sb).cleared, (s.brake .eb).cleared⟩ } }
  have awake : u.lmu.mode ≠ .warming := by
    rw [show u.lmu.mode = .tripped from tripped]
    decide
  have stages : ∃ report, tripReset (run (n + 3)) s = post report (run (n + 3) (.changeMode (.plain .maintenance) .tripReset none)
      (run (n + 3) (.command .eb .release) (run (n + 3) .settle (handOverBrakes (run (n + 3)) s.brakeStates u)))) := by
    unfold tripReset
    rw [sb, eb]
    exact ⟨_, rfl⟩
  have still : handOverBrakes (run (n + 3)) s.brakeStates u = u :=
    handOverBrakes_still (brakesChanged_resting (n := n + 1) held no_stop no_test (.inl awake))
  have settled : run (n + 3) .settle u = u := settleNow_resting held no_stop
  have lifted := commandEb_lifts (n := n) (s := u) held no_stop no_test rfl ((cleared_cmd _).trans (brakes .eb).1)
    (cleared_applied (brakes .eb).2) (by rw [show u.reading .eb = .applied from reading]; decide)
  obtain ⟨report, stages⟩ := stages
  obtain ⟨q'', maintained⟩ := changeMode_maintains (n := n + 2) (cause := .tripReset)
    (s := u.withEb { cmd := .release, state := .lifting, timer := s.line.map LineFields.tEbResp }) tripped
  rw [still, settled, lifted] at stages
  exact ⟨_, stages.trans ((congrArg (post report) maintained).trans (post_eq_taking _ _))⟩

/-- Settles O39: the reasons refuse, and without one the brakes, the latch and the mode follow in turn. -/
theorem tripResetAnswers : Obligations.TripResetAnswers := by
  intro tag s listens
  refine ⟨fun inhibited => request_answers listens (handleTripReset_inhibited (s := s.heard) inhibited) rfl,
    fun free held no_stop no_test brakes => ?_⟩
  obtain ⟨tripped, reading⟩ := resets_of_tripReasons free
  obtain ⟨q, frees⟩ := tripReset_frees (n := 61) (s := s.heard) tripped reading held no_stop no_test brakes
  have handled : handleTripReset s.heard = (tripReset cascade s.heard, accept .none) := by
    simp only [handleTripReset, show s.heard.tripReasons = [] from free]
  exact ⟨_, request_answers listens (handled.trans (congrArg (·, accept .none) frees)) rfl, rfl, rfl, no_stop,
    (cleared_cmd _).trans (brakes .sb).1, cleared_applied (brakes .sb).2, rfl, rfl, rfl, rfl, rfl, rfl, rfl, rfl, rfl, rfl⟩

end Sys2Proof.Machine
end

section
/-! SUPPORT. BRAKE_TEST, and the phases of a brake test on a line that is HELD. -/

namespace Sys2Proof.Machine

variable {k : Hand}

/-! ## The examination of BRAKE_TEST (R83) -/

theorem brakeOf?_of_le {n : Nat} (known : n ≤ 1) : brakeOf? n = some (if n = 0 then .sb else .eb) := by
  obtain rfl | rfl : n = 0 ∨ n = 1 := by omega
  · rfl
  · rfl

theorem brakeOf?_unknown {n : Nat} (unknown : 1 < n) : brakeOf? n = none := by
  unfold brakeOf?
  split
  · exact absurd unknown (by decide)
  · exact absurd unknown (by decide)
  · rfl

theorem handleBrakeTest_unknown {n : Nat} (unknown : 1 < n) (s : State) : handleBrakeTest n s = (s, badField 0) := by
  simp only [handleBrakeTest, brakeOf?_unknown unknown]

section
variable {n : Nat} {b : BrakeId} {s : State} (known : brakeOf? n = some b)
include known

theorem handleBrakeTest_busy (test : s.bsq.test.isSome = true) : handleBrakeTest n s = (s, refuse .busy) := by
  simp only [handleBrakeTest, known, test, if_true]

theorem handleBrakeTest_inhibited (no_test : s.bsq.test = none) (inhibited : s.testReasons b ≠ []) :
    handleBrakeTest n s = (s, .refused .inhibited (.testReasons (s.testReasons b))) := by
  simp only [handleBrakeTest, known, no_test, Option.isSome_none, Bool.false_eq_true, if_false]

theorem handleBrakeTest_starts (no_test : s.bsq.test = none) (free : s.testReasons b = []) :
    handleBrakeTest n s = (startTest cascade b s, accept .none) := by
  simp only [handleBrakeTest, known, no_test, Option.isSome_none, Bool.false_eq_true, if_false, free]

end

/-- What no reason says of the line on which a test starts (R83). -/
theorem starts_of_testReasons {b : BrakeId} {s : State} (free : s.testReasons b = []) : s.hac.state = .held ∧ s.lmu.mode ≠ .warming ∧
    (s.brake .eb).state = .released ∧ s.bsq.stop = none := by
  have absent := namesPresent_nil free
  simp only [List.forall_mem_cons] at absent
  obtain ⟨moving, mode, -, -, brakes, -, stopping, -⟩ := absent
  refine ⟨by simpa [State.moving] using moving, fun warming => ?_, ?_, by simpa using stopping⟩
  · rw [warming] at mode
    cases mode
  · simp_all

/-! ## The progress of a test (R84, R85) -/

/-- The records of a test of EB in a phase. -/
structure State.TestsEb (s : State) (x : BrakeTest) (phase : TestPhase) : Prop where
  test : s.bsq.test = some x
  brake : x.brake = .eb
  phase : x.phase = phase

section
variable {s : State} {x : BrakeTest}

/-- PREPARING waits for EB APPLIED. -/
theorem testProgress_ebSets (tests : s.TestsEb x .preparing) (unset : (s.brake .eb).state ≠ .applied) : testProgress k s = s := by
  simp [testProgress, tests.test, tests.brake, tests.phase, unset]

/-- With EB APPLIED, PREPARING waits for SB RELEASED. -/
theorem testProgress_sbLifts (tests : s.TestsEb x .preparing) (lifting : (s.brake .sb).state = .lifting)
    (cmd : (s.brake .sb).cmd = .release) : testProgress k s = s := by
  simp [testProgress, tests.test, tests.brake, tests.phase, lifting, cmd]

/-- EB APPLIED in PREPARING with SB commanded APPLY brings SB RELEASE where R73 allows it and else an abort. -/
theorem testProgress_ebSet (tests : s.TestsEb x .preparing) (set : (s.brake .eb).state = .applied) (eb_cmd : (s.brake .eb).cmd = .apply)
    (unreleased : (s.brake .sb).state ≠ .released) (sb_cmd : (s.brake .sb).cmd = .apply) : testProgress k s =
      if s.interlockHolds then k (.command .sb .release) s else k (.abortTest .interlock) s := by
  simp [testProgress, tests.test, tests.brake, tests.phase, set, eb_cmd, unreleased, sb_cmd]

/-- SB RELEASED in PREPARING enters TORQUE. -/
theorem testProgress_sbLifted (tests : s.TestsEb x .preparing) (set : (s.brake .eb).state = .applied)
    (eb_cmd : (s.brake .eb).cmd = .apply) (released : (s.brake .sb).state = .released) : testProgress k s = enterTorque x s := by
  simp [testProgress, tests.test, tests.brake, tests.phase, set, eb_cmd, released]

/-- RESTORING waits for SB APPLIED. -/
theorem testProgress_sbSets (tests : s.TestsEb x .restoring) (unset : (s.brake .sb).state ≠ .applied) : testProgress k s = s := by
  simp [testProgress, tests.test, tests.brake, tests.phase, unset]

/-- SB APPLIED in RESTORING brings EB RELEASE. -/
theorem testProgress_sbSet (tests : s.TestsEb x .restoring) (set : (s.brake .sb).state = .applied)
    (unreleased : (s.brake .eb).state ≠ .released) (cmd : (s.brake .eb).cmd = .apply) :
    testProgress k s = k (.command .eb .release) s := by
  simp [testProgress, tests.test, tests.brake, tests.phase, set, unreleased, cmd]

/-- With SB APPLIED, RESTORING waits for EB RELEASED. -/
theorem testProgress_ebLifts (tests : s.TestsEb x .restoring) (unreleased : (s.brake .eb).state ≠ .released)
    (cmd : (s.brake .eb).cmd = .release) : testProgress k s = s := by
  simp [testProgress, tests.test, tests.brake, tests.phase, unreleased, cmd]

/-- EB RELEASED in RESTORING passes the test. -/
theorem testProgress_ebLifted (tests : s.TestsEb x .restoring) (set : (s.brake .sb).state = .applied)
    (released : (s.brake .eb).state = .released) : testProgress k s = passTest x s := by
  simp [testProgress, tests.test, tests.brake, tests.phase, set, released]

theorem passTest_eq (x : BrakeTest) (s : State) :
    ∃ q, passTest x s = { s with bsq := { s.bsq with test := none, torqueLine := false }, slp := q } := by
  unfold passTest
  simp only [post_eq_taking]
  exact ⟨_, rfl⟩

end

/-! ## Brake states handed to a test (R72) -/

/-- A change of brake states at rest hands them to the test alone. -/
theorem brakesChanged_tests {n : Nat} {s t : State} (held : s.hac.state = .held) (no_stop : s.bsq.stop = none)
    (progress : testProgress (run (n + 1)) s = t) (not_warming : t.lmu.mode ≠ .warming) : run (n + 2) .brakesChanged s = t := by
  have haulage : haulageOnBrakes (run (n + 1)) s = s := by simp only [haulageOnBrakes, held]
  have settled : run (n + 1) .settle s = s := settleNow_resting held no_stop
  rw [run_succ, act, brakesChangedNow, haulage, settled]
  simp only [progress]
  exact warmingCheck_elsewhere not_warming

/-- A command whose change of record the test only waits on. -/
theorem command_moves {n : Nat} {b : BrakeId} {c : BrakeCmd} {r : BrakeRec} {s : State} (allowed : s.commandAllowed b c = true)
    (record : (s.brake b).commanded c (s.reading b) (s.respBound b) = r) (held : s.hac.state = .held) (no_stop : s.bsq.stop = none)
    (waits : testProgress (run (n + 1)) (s.setBrake b r) = s.setBrake b r) (not_warming : s.lmu.mode ≠ .warming) :
    run (n + 3) (.command b c) s = s.setBrake b r := by
  rw [run_succ, act, commandBrake, if_pos allowed, rawCommand, record]
  exact handOverBrakes_still (brakesChanged_tests held no_stop waits not_warming)

/-- A brake APPLIED that is commanded RELEASE lifts, where it does not read released (R70). -/
theorem commanded_lifts {r : BrakeRec} {x : Reading} {bound : Timer} (cmd : r.cmd = .apply) (state : r.state = .applied)
    (unreleased : x ≠ .released) : r.commanded .release x bound = { cmd := .release, state := .lifting, timer := bound } := by
  simp [BrakeRec.commanded, BrakeRec.commandRelease, cmd, state, unreleased]

/-- An abort with both brakes commanded APPLY already ends the test and moves no brake (R86). -/
theorem abortTest_applied {n : Nat} {cause : AbortCause} {x : BrakeTest} {s : State} (test : s.bsq.test = some x)
    (applied : ∀ b, (s.brake b).cmd = .apply) : ∃ q, run (n + 2) (.abortTest cause) s =
      { s with bsq := { s.bsq with test := none, torqueLine := false }, slp := q } := by
  have same : ∀ b, run (n + 1) (.command b .apply) (setTest none false s) = setTest none false s :=
    fun b => commandBrake_same (by exact applied b)
  obtain ⟨report, aborted⟩ := abortTestNow_some (k := run (n + 1)) (cause := cause) test
  rw [same, same, post_eq_taking] at aborted
  exact ⟨_, aborted⟩

/-! ## The start of a test (R83, R84) -/

theorem startTest_sb (k : Hand) (s : State) : ∃ q, startTest k .sb s = { s with
    slp := q
    bsq := { s.bsq with
      torqueLine := true
      test := some { brake := .sb, phase := .torque, ref := s.ptr.dp, move := 0
                     timer := s.line.map (fun p => p.tTest * 1000) } } } := by
  unfold startTest
  simp only [post_eq_taking]
  exact ⟨_, rfl⟩

/-- A test of EB begins by commanding EB APPLY, and waits for it. -/
theorem startTest_eb {n : Nat} {s : State} (held : s.hac.state = .held) (not_warming : s.lmu.mode ≠ .warming)
    (state : (s.brake .eb).state = .released) (no_stop : s.bsq.stop = none) (cmd : (s.brake .eb).cmd = .release)
    (unapplied : s.reading .eb ≠ .applied) :
    ∃ q, startTest (run (n + 3)) .eb s = { s with
      slp := q
      bsq := { s.bsq with
        torqueLine := false
        test := some { brake := .eb, phase := .preparing, ref := 0, move := 0, timer := none }
        recs := s.bsq.recs.set .eb { cmd := .apply, state := .setting, timer := s.line.map LineFields.tEbResp } } } := by
  have stages : ∃ q, startTest (run (n + 3)) .eb s = run (n + 3) (.command .eb .apply) { s with
      slp := q
      bsq := { s.bsq with
        torqueLine := false, test := some { brake := .eb, phase := .preparing, ref := 0, move := 0, timer := none } } } := by
    unfold startTest
    simp only [post_eq_taking]
    exact ⟨_, rfl⟩
  obtain ⟨q, stages⟩ := stages
  exact ⟨q, stages.trans (command_moves (by rfl) (commanded_sets cmd (.inr state) unapplied) held no_stop
    (testProgress_ebSets ⟨rfl, rfl, rfl⟩ nofun) not_warming)⟩

/-! ## The phases of a test of EB (R84, R85) -/

/-- The state of a line that is HELD once a brake has come to a state with its contacts. -/
abbrev State.settledAs (s : State) (b : BrakeId) (st : BrakeState) (applied : Bool) : State := { s with
  overrun := false
  bsq := { s.bsq with
    contacts := s.bsq.contacts.set b { applied := applied, released := !applied }
    recs := s.bsq.recs.set b { s.brake b with state := st, timer := none } } }

/-- Contacts that complete a set or a lift during a test hand it to the test (R70, R72). -/
theorem exec_settles {b : BrakeId} {st : BrakeState} {applied : Bool} {s t : State} (running : s.isRunning)
    (held : s.hac.state = .held) (no_stop : s.bsq.stop = none)
    (state : ((s.brake b).state = .setting ∧ applied = true ∧ st = .applied ∧ s.reading b ≠ .applied) ∨
      ((s.brake b).state = .lifting ∧ applied = false ∧ st = .released ∧ s.reading b ≠ .released))
    (progress : testProgress (run 63) (s.settledAs b st applied) = t) (not_warming : t.lmu.mode ≠ .warming) (clear : t.overrun = false) :
    exec (.brakeContactChange b applied (!applied)) s = .next t := by
  have changed : cascade .brakesChanged (s.settledAs b st applied) = t := brakesChanged_tests (n := 62) held no_stop progress not_warming
  refine exec_brakeContactChange running ?_ clear
  rcases state with ⟨state, rfl, rfl, unread⟩ | ⟨state, rfl, rfl, unread⟩
  · exact (contactsChanged_reads (s := { s with overrun := false }) (c := ⟨true, false⟩) unread.symm).trans
      (((readingChanged_setting (by exact state)).trans (if_pos rfl)).trans changed)
  · exact (contactsChanged_reads (s := { s with overrun := false }) (c := ⟨false, true⟩) unread.symm).trans
      (((readingChanged_lifting (by exact state)).trans (if_pos rfl)).trans changed)

theorem exec_brakeTestTimerExpiry {s t : State} (running : s.isRunning) (e : testExpired cascade { s with overrun := false } = t)
    (clear : t.overrun = false) : exec .brakeTestTimerExpiry s = .next t := by
  subst e
  exact whileRunning_next running clear

/-! ## A sample in TORQUE (R84, R85) -/

section
variable {s u v : State} {p : LineFields} {x : BrakeTest}

/-- A completed sample of a line without a stop: the evaluation, the speed that it keeps, and the test (R47, R77, R84). -/
theorem onSample_tests {n : Nat} {t : Int} (loaded : s.line = some p) (evaluates : s.evaluates = true)
    (e : evaluate (run (n + 1)) p t s = u) (no_stop : u.bsq.stop = none) (tested : testSample (run (n + 1)) u.speedKept = v)
    (runs : v.ptr.standstill = false) : onSample (run (n + 1)) t s = v := by
  have stages : onSample (run (n + 1)) t s = run (n + 1) .settle (testSample (run (n + 1)) (decelerationSample u)) := by
    simp only [onSample, loaded, evaluates, if_true, e]
  rw [stages, decelerationSample_unstopped no_stop, tested]
  exact settleNow_running runs

/-- A sample with no switch active and the encoders within tolerance, on a line without a stop. -/
theorem exec_sampleTests (running : s.isRunning) (loaded : s.line = some p) (ordinary : s.ptr.first = .ordinary)
    (mode : s.lmu.mode ≠ .init ∧ s.lmu.mode ≠ .parked) (class_ : (s.sampled p ⟨false, false, false, false⟩).beyond = false)
    (e : evaluate cascade p ((s.sampled p ⟨false, false, false, false⟩).dp - s.ptr.dp) (s.gauged p) = u) (no_stop : u.bsq.stop = none)
    (tested : testSample cascade u.speedKept = v) (runs : v.ptr.standstill = false) (clear : v.overrun = false) :
    exec (.positionSample false false false false) s = .next v := by
  have sampled := sample_within (k := cascade) (s := { s with overrun := false }) (w := ⟨false, false, false, false⟩) loaded class_
  rw [terminalSwitches_open rfl rfl, overtravelSwitches_open rfl rfl] at sampled
  have evaluates : (s.gauged p).evaluates = true := by
    simp [State.evaluates, State.loaded, State.gauged, loaded, mode]
  have completed := onSample_tests (n := 63) (s := s.gauged p) loaded evaluates e no_stop tested runs
  rw [← sampled_travel ordinary] at completed
  exact exec_positionSample running (sampled.trans completed) clear

/-- An evaluation of a line that is HELD while the cars run, where it finds neither a rise nor a rollback. -/
theorem evaluate_held {t : Int} (runs : s.ptr.standstill = false) (held : s.hac.state = .held) (flat : s.rises p = false)
    (rolls_not : s.rollsBack t = false) :
    ∃ h o q, evaluate cascade p t s = { s with hac := h, osp := o, slp := q } ∧ h.state = .held := by
  obtain ⟨q, q', evaluate⟩ := evaluate_running (n := 63) (p := p) (t := t) runs
  obtain ⟨h, o, evaluated, cut⟩ := evaluated_cuts s p t
  rw [rolls_not, if_neg (by decide), levelled_calm (.inl flat), evaluated] at evaluate
  exact ⟨h, o, q, evaluate, (cut.held held).1⟩

/-- No rollback is found while HELD where the trial is fresh, the reference is near or the order is given (R62, R63). -/
theorem rollsBack_held {t : Int} (held : s.hac.state = .held)
    (calm : s.osp.fresh = true ∨ (s.ptr.dp - s.osp.heldRef).natAbs ≤ 200 ∨ s.osp.ordered = true) : s.rollsBack t = false := by
  rw [State.rollsBack, accumulate_eq, if_pos held]
  by_cases fresh : s.osp.fresh = true
  · simp [fresh]
  · rcases calm.resolve_left fresh with near | ordered
    · simp [fresh, near]
    · simp [fresh, ordered]

theorem testSample_within (test : s.bsq.test = some x) (torque : x.phase = .torque) (within : (s.ptr.dp - x.ref).natAbs ≤ 50) :
    testSample k s = setTest (some { x with move := max x.move (s.ptr.dp - x.ref).natAbs }) s.bsq.torqueLine s := by
  simp only [testSample, test, torque]
  exact if_neg (Nat.not_lt.2 within)

theorem testSample_beyond (test : s.bsq.test = some x) (torque : x.phase = .torque) (beyond : 50 < (s.ptr.dp - x.ref).natAbs) :
    testSample k s = failTest k { x with move := max x.move (s.ptr.dp - x.ref).natAbs } s := by
  simp only [testSample, test, torque]
  exact if_pos beyond

/-- A test that fails orders an EMERGENCY stop (R85). -/
theorem failTest_trips {n : Nat} (trippable : (setTest none false s).Trippable) (empty : s.bsq.stop = none) :
    (setTest none false s).Emergency .testFail (failTest (run (n + 4)) x s) := by
  have trips := emergency_trips (n := n) (cause := .testFail) (takesStop_empty (by exact empty)) trippable
  unfold failTest
  simp only [post_eq_taking]
  exact trips.linked _

theorem State.Emergency.no_test {cause : StopCause} (trips : (setTest none false s).Emergency cause v) :
    v.bsq.test = none ∧ v.bsq.torqueLine = false := by
  obtain ⟨_, _, _, _, rfl, -⟩ := trips
  exact ⟨rfl, rfl⟩

end

/-- Settles O38: the examination by its order, and each phase by what the test does at the brake state, the expiry or the sample that
it waits for. -/
theorem brakeTestsRun : Obligations.BrakeTestsRun := by
  refine fun s => ⟨fun tag brake listens unknown => request_answers listens (handleBrakeTest_unknown unknown s.heard) rfl,
    fun tag brake listens known busy => request_answers listens (handleBrakeTest_busy (s := s.heard) (brakeOf?_of_le known) busy) rfl,
    fun tag brake listens known no_test => ?_, fun tag listens no_test free => ?_, fun x running test brake phase => ?_,
    fun running no_test => exec_brakeTestTimerExpiry running (by simp only [testExpired, no_test]) rfl,
    fun tag listens no_test free cmd unapplied => ?_, fun x running test brake held no_stop not_warming => ?_,
    fun x p running loaded ordinary runs still positive _ _ not_init not_parked secured none_open held no_stop test torque => ?_⟩
  · intro reasons inhibited
    exact request_answers listens (handleBrakeTest_inhibited (s := s.heard) (brakeOf?_of_le known) no_test inhibited) rfl
  · obtain ⟨q, starts⟩ := startTest_sb cascade s.heard
    exact ⟨_, request_answers listens ((handleBrakeTest_starts (s := s.heard) (b := .sb) rfl no_test free).trans
      (congrArg (·, accept .none) starts)) rfl, rfl⟩
  · obtain ⟨q, passes⟩ := passTest_eq x { s with overrun := false }
    have expires : testExpired cascade { s with overrun := false } = passTest x { s with overrun := false } := by
      simp only [testExpired, test, phase, brake]
    exact ⟨_, exec_brakeTestTimerExpiry running (expires.trans passes) rfl, rfl⟩
  · intro test eb
    obtain ⟨held, not_warming, state, no_stop⟩ := starts_of_testReasons free
    obtain ⟨q, starts⟩ := startTest_eb (n := 61) (s := s.heard) held not_warming state no_stop cmd unapplied
    exact ⟨_, request_answers listens ((handleBrakeTest_starts (s := s.heard) (b := .eb) rfl no_test free).trans
      (congrArg (·, accept .none) starts)) rfl, rfl⟩
  · intro lift free set inputs becomes done
    refine ⟨fun phase eb_state eb_cmd eb_reading sb_state sb_cmd sb_reading => ?_,
      fun phase sb_state sb_cmd sb_reading eb_state eb_cmd => ?_, fun phase sb_state sb_cmd sb_reading => ?_,
      fun phase sb_state sb_cmd sb_reading eb_state eb_cmd eb_reading latch => ?_,
      fun phase eb_state eb_cmd eb_reading sb_state => ?_⟩
    · let u := s.settledAs .eb .applied true
      have set_eb : testProgress (run 63) u = if u.interlockHolds then _ else _ :=
        testProgress_ebSet ⟨test, brake, phase⟩ rfl eb_cmd (by rw [show (u.brake .sb).state = .applied from sb_state]; decide) sb_cmd
      have settles {t : State} := exec_settles (t := t) running held no_stop (.inl ⟨eb_state, rfl, rfl, eb_reading⟩)
      refine ⟨fun interlock => ?_, fun broken => ?_⟩
      · have lifts : run 63 (.command .sb .release) u = u.setBrake .sb lift := command_moves (n := 60) (by exact interlock)
          (commanded_lifts sb_cmd sb_state sb_reading) held no_stop (testProgress_sbLifts ⟨test, brake, phase⟩ rfl rfl) not_warming
        exact ⟨_, settles ((set_eb.trans (if_pos interlock)).trans lifts) not_warming rfl, rfl⟩
      · obtain ⟨q, aborts⟩ := abortTest_applied (n := 61) (cause := .interlock) (s := u) test
          (fun | .sb => sb_cmd | .eb => eb_cmd)
        exact ⟨_, settles ((set_eb.trans (if_neg (by rw [show u.interlockHolds = false from broken]; decide))).trans aborts)
          not_warming rfl, rfl⟩
    · intro torque
      exact ⟨_, exec_settles running held no_stop (.inr ⟨sb_state, rfl, rfl, sb_reading⟩)
        (testProgress_sbLifted ⟨test, brake, phase⟩ eb_state eb_cmd rfl) not_warming rfl, rfl⟩
    · let restoring : BrakeTest := { x with phase := .restoring, timer := none }
      have expires : testExpired cascade { s with overrun := false } =
          cascade (.command .sb .apply) (setTest (some restoring) false { s with overrun := false }) := by
        simp only [testExpired, test, phase, brake, restoring]
      have sets : cascade (.command .sb .apply) (setTest (some restoring) false { s with overrun := false }) = _ :=
        command_moves (n := 61) (by rfl) (commanded_sets sb_cmd (.inr sb_state) sb_reading) held no_stop
          (testProgress_sbSets (x := restoring) ⟨rfl, brake, rfl⟩ nofun) not_warming
      exact ⟨_, exec_brakeTestTimerExpiry running (expires.trans sets) rfl, rfl⟩
    · let u := s.settledAs .sb .applied true
      have set_sb : testProgress (run 63) u = _ :=
        testProgress_sbSet ⟨test, brake, phase⟩ rfl (by rw [show (u.brake .eb).state = .applied from eb_state]; decide) eb_cmd
      have lifts : run 63 (.command .eb .release) u = u.setBrake .eb free := command_moves (n := 60)
        (by exact Option.isNone_iff_eq_none.2 latch) (commanded_lifts eb_cmd eb_state eb_reading) held no_stop
        (testProgress_ebLifts ⟨test, brake, phase⟩ nofun rfl) not_warming
      exact ⟨_, exec_settles running held no_stop (.inl ⟨sb_state, rfl, rfl, sb_reading⟩) (set_sb.trans lifts) not_warming rfl, rfl⟩
    · obtain ⟨q, passes⟩ := passTest_eq x (s.settledAs .eb .released false)
      exact ⟨_, exec_settles running held no_stop (.inr ⟨eb_state, rfl, rfl, eb_reading⟩)
        ((testProgress_ebLifted (s := s.settledAs .eb .released false) ⟨test, brake, phase⟩ sb_state rfl).trans passes)
        not_warming rfl, rfl⟩
  · intro q now m class_ flat calm
    have cars_run : q.standstill = false := sampled_running runs still positive
    obtain ⟨h, o, l, evaluated, h_held⟩ := evaluate_held (s := s.gauged p) (p := p) (t := q.dp - s.ptr.dp) cars_run held
      (decide_eq_false (Nat.not_lt.2 flat)) (rollsBack_held held calm)
    let u : State := { s.gauged p with hac := h, osp := o, slp := l }
    have samples {v : State} := exec_sampleTests (v := v) running loaded ordinary ⟨not_init, not_parked⟩ class_ evaluated no_stop
    refine ⟨fun within => ?_, fun beyond => ?_⟩
    · exact ⟨_, samples (testSample_within (s := u.speedKept) test torque within) cars_run rfl, rfl, rfl, h_held, rfl⟩
    · have trips := failTest_trips (n := 60) (s := u.speedKept) (x := { x with move := max x.move m })
        ⟨.inl cars_run, rfl, not_parked, secured, none_open⟩ no_stop
      obtain ⟨stop, latch, applied, mode, stays, -, ptr, rest⟩ := trips.taken cars_run
      have runs_on := (congrArg Tracker.standstill ptr).trans cars_run
      exact ⟨_, samples (testSample_beyond (s := u.speedKept) test torque beyond) runs_on trips.overrun,
        ⟨stop, latch, applied, mode, fun _ => stays (beq_iff_eq.2 h_held), fun moves => absurd held (moving_iff.1 moves), ptr, rest⟩,
        trips.no_test⟩

end Sys2Proof.Machine
end

section
/-! SUPPORT. The laws of the alarm route, of the tallies and of the mode fields that every step keeps. -/

namespace Sys2Proof.Machine

/-! ## The alarm route, the order of the tallies, the fields of a mode (R100, R159, R165, R171, R172) -/

/-- A run keeps the laws of the alarm route, of the tallies and of the mode fields. -/
theorem Run.routeTallyAndModeLaws {s t : State} (h : Run s t) :
    (s.clu.route.law → t.clu.route.law) ∧ (s.tallyLaw → t.tallyLaw) ∧ (s.lmu.law → t.lmu.law) := by
  induction h with
  | trans _ _ ih1 ih2 =>
    obtain ⟨route1, tally1, mode1⟩ := ih1
    obtain ⟨route2, tally2, mode2⟩ := ih2
    exact ⟨route2 ∘ route1, tally2 ∘ tally1, mode2 ∘ mode1⟩
  | cars _ _ _ route => exact ⟨route, id, id⟩
  | tally _ _ law => exact ⟨id, law, id⟩
  | mode _ _ law _ _ => exact ⟨id, id, law⟩
  | post s r => rw [post_eq]; exact ⟨id, id, id⟩
  | side _ _ _ _ _ _ ih => exact ih
  | fresh s _ c route _ _ ih =>
    obtain ⟨kept, others⟩ := ih
    exact ⟨fun law => kept (route ▸ law), others⟩
  | health _ _ _ _ _ ih => exact ih
  | _ => exact ⟨id, id, id⟩

/-- Settles O17: every operation keeps the three laws, and the reset values meet them. -/
theorem routeTallyAndModeLawsKept : Obligations.RouteTallyAndModeLawsKept := by
  intro s t h
  refine ⟨fun law => ?_, fun law => ?_, fun law => ?_⟩
  · exact step_keeps (fun s => s.clu.route.law) (fun _ _ r p => .inl (r.routeTallyAndModeLaws.1 p)) (fun _ _ _ p => p)
      (fun _ _ => rfl) (fun _ _ => rfl) (fun _ _ p => p) (fun _ p => (tick_run _).routeTallyAndModeLaws.1 p) (fun _ _ _ p => p) law h
  · exact step_keeps State.tallyLaw (fun _ _ r p => .inl (r.routeTallyAndModeLaws.2.1 p)) (fun _ _ _ p => p)
      (fun _ _ => ⟨Nat.zero_le _, Nat.zero_le _⟩) (fun _ _ => ⟨Nat.zero_le _, Nat.zero_le _⟩) (fun _ _ p => p)
      (fun _ p => (tick_run _).routeTallyAndModeLaws.2.1 p) (fun _ _ _ p => p) law h
  · have initial : ∀ l : LineMode, l.mode = .init → l.variant = none → l.target = none → l.warmTimer = none → l.law := by
      intro l mode variant target timer
      simp [LineMode.law, mode, variant, target, timer]
    exact step_keeps (fun s => s.lmu.law) (fun _ _ r p => .inl (r.routeTallyAndModeLaws.2.2 p)) (fun _ _ _ p => p)
      (fun _ _ => initial _ rfl rfl rfl rfl) (fun _ _ => initial _ rfl rfl rfl rfl) (fun _ _ p => p)
      (fun _ p => (tick_run _).routeTallyAndModeLaws.2.2 p) (fun _ _ _ p => p) law h

end Sys2Proof.Machine
end

section
/-! SUPPORT. The outcomes of a burst on a car link. -/

namespace Sys2Proof.Machine

/-! ## Bursts and the command timer (R91, R92, R93, R96) -/

section
variable {c : Car} {bytes : List Byte} {s t : State}

/-- A burst ends as its reading is received. -/
theorem exec_carStatusFrame_receives (running : s.isRunning)
    (e : receiveStatus cascade c (statusOf? c bytes) { s with overrun := false } = t) (clear : t.overrun = false) :
    exec (.carStatusFrame c bytes) s = .next t := by
  subst e
  exact whileRunning_next (f := receiveStatus cascade c (statusOf? c bytes)) running clear

/-- The expiry of a car's command timer. -/
theorem exec_carCommandTimer_expires (running : s.isRunning)
    (e : (if (s.car c).timer.isSome then sendCommand c { s with overrun := false } else { s with overrun := false }) = t)
    (clear : t.overrun = false) : exec (.carCommandTimer c) s = .next t := by
  subst e
  exact whileRunning_next (f := fun s => if (s.car c).timer.isSome then sendCommand c s else s) running clear

/-- Nothing is received on a stopped link (R96). -/
theorem receiveStatus_stopped {k : Hand} {x? : Option CarStatus} (stopped : (s.car c).running = false) :
    receiveStatus k c x? s = s := by
  simp only [receiveStatus, stopped, Bool.false_eq_true, if_false]

/-- A burst that is no status frame is counted in the record and in the link's health counter (R91). -/
theorem receiveStatus_discards {k : Hand} (runs : (s.car c).running = true) (uncrossed : s.uncrossed (linkCounter c) 1) :
    receiveStatus k c none s = (s.counted (linkCounter c) 1).setCar c { s.car c with
      discards := min 255 ((s.car c).discards + 1), discarded := min 65535 ((s.car c).discarded + 1) } := by
  rw [receiveStatus, if_pos runs]
  exact bumpHealth_uncrossed uncrossed

/-- A frame that repeats the last sequence number is counted and nothing else (R91). -/
theorem receiveStatus_repeats {k : Hand} {x : CarStatus} (runs : (s.car c).running = true) (repeats : (s.car c).lastSeq = some x.seq) :
    receiveStatus k c (some x) s = s.setCar c { s.car c with duplicates := min 65535 ((s.car c).duplicates + 1) } := by
  rw [receiveStatus, if_pos runs]
  exact if_pos repeats

end

/-- Settles O40: a burst is received by its reading and the link that it meets, and the command timer acts where it runs. -/
theorem statusFrameOutcomes : Obligations.StatusFrameOutcomes := by
  intro c bytes s running r n
  refine ⟨fun stopped => ?_, fun runs unread uncrossed => ?_, fun x runs reads repeats => ?_,
    fun x last before runs reads fresh last_seq bound follows status unmarked no_alarm key rail proven => ?_,
    fun runs timer => ?_, fun stopped => ?_⟩
  · exact exec_carStatusFrame_receives running (receiveStatus_stopped stopped) rfl
  · exact exec_carStatusFrame_receives running (by rw [unread]; exact receiveStatus_discards runs uncrossed) rfl
  · exact exec_carStatusFrame_receives running (by rw [reads]; exact receiveStatus_repeats runs repeats) rfl
  · have next : s.nextFrame c bytes x :=
      ⟨runs, reads, fresh, by rw [last_seq]; exact decide_eq_true ⟨bound, follows⟩, by rw [status]; simp [key, rail]⟩
    exact exec_carStatusFrame_next running next proven no_alarm (by rw [unmarked]; rfl) rfl rfl rfl
  · exact exec_carCommandTimer_expires running ((if_pos timer).trans (if_pos runs)) rfl
  · exact exec_carCommandTimer_expires running (if_neg (by rw [show (s.car c).timer = none from stopped]; decide)) rfl

end Sys2Proof.Machine
end

section
/-! SUPPORT. The alarm requests, and the accepted frame in its stages with the latching of an alarm. -/

namespace Sys2Proof.Machine

/-! ## ALARM_CLEAR and the alarm route (R99, R100) -/

/-- Reporting an alarm changes the link alone. -/
theorem reportAlarm_eq (r : AlarmReport) (s : State) : ∃ q, reportAlarm r s = { s with slp := q } := by
  unfold reportAlarm
  split
  · exact ⟨_, post_eq_taking _ _⟩
  · exact ⟨_, rfl⟩

theorem reportAlarm_leaves (r : AlarmReport) (s : State) :
    (∀ c, (reportAlarm r s).car c = s.car c) ∧ (reportAlarm r s).overrun = s.overrun := by
  obtain ⟨_, e⟩ := reportAlarm_eq r s
  rw [e]
  exact ⟨fun _ => rfl, rfl⟩

section
variable {c : Car} {x : CarStatus} {s : State}

theorem carOf?_code (c : Car) : carOf? (if c = .a then 0 else 1) = some c := by cases c <;> rfl

theorem carOf?_unknown {n : Nat} (unknown : 1 < n) : carOf? n = none := by
  match n with
  | 0 | 1 => omega
  | _ + 2 => rfl

/-- A named car without a last status, or whose last status shows the alarm, keeps its latch (R99). -/
theorem handleAlarmClear_inhibited {n : Nat} {shown : Bool} (named : carOf? n = some c)
    (inhibits : ((s.car c).status = none ∧ shown = false) ∨ (∃ x, (s.car c).status = some x ∧ x.alarm = true ∧ shown = true)) :
    handleAlarmClear n s = (s, .refused .inhibited (.alarm shown)) := by
  rcases inhibits with ⟨silent, rfl⟩ | ⟨x, status, shows, rfl⟩
  · simp only [handleAlarmClear, named, silent]
  · simp only [handleAlarmClear, named, status, shows, if_true]

/-- A named car whose last status shows no alarm has its latch cleared (R99). -/
theorem handleAlarmClear_clears {n : Nat} (named : carOf? n = some c) (status : (s.car c).status = some x) (calm : x.alarm = false) :
    handleAlarmClear n s = (clearAlarm c s, accept (.alarmCleared (s.car c).alarm)) := by
  simp only [handleAlarmClear, named, status, calm, Bool.false_eq_true, if_false]

/-- The report of a cleared latch reads the car as it stands (R101). -/
theorem alarmReportOf_cleared : alarmReportOf (s.setCar c { s.car c with alarm := false }) c =
    { car := c, latched := false, before := (s.car c).freshness, after := (s.car c).freshness, lastSeq := (s.car c).lastSeq
      other := (s.car c.other).alarm, route := s.clu.route, action := s.line.map LineFields.alarmAction, haulage := s.hac.state
      x := s.ptr.x } := by
  cases c <;> rfl

/-- What is left of an alarm route without some destinations, never empty (R100). -/
theorem remove_route (r d : AlarmRoute) :
    let report := r.report && !d.report
    let lower := r.lower && !d.lower
    let upper := r.upper && !d.upper
    (report || lower || upper = true → r.remove d = { report := report, lower := lower, upper := upper }) ∧
      ((report || lower || upper) = false → r.remove d =
        if r.report then { report := true, lower := false, upper := false }
        else if r.lower then { report := false, lower := true, upper := false }
        else { report := false, lower := false, upper := r.upper }) := by
  obtain ⟨report, lower, upper⟩ := r
  obtain ⟨dr, dl, du⟩ := d
  revert report lower upper dr dl du
  decide

end

/-- ALARM_CLEAR by the last status and the latch of the car that it names (R99). -/
theorem alarmClear_answers {tag : Byte} {s : State} (listens : s.listening) (c : Car) :
    let code := if c = .a then 0 else 1
    ((s.car c).status = none →
      exec (.alarmClear tag code) s = .next (s.heard.replied tag .alarmClear (.refused .inhibited (.alarm false)))) ∧
    (∀ x, (s.car c).status = some x → x.alarm = true →
      exec (.alarmClear tag code) s = .next (s.heard.replied tag .alarmClear (.refused .inhibited (.alarm true)))) ∧
    (∀ x, (s.car c).status = some x → x.alarm = false →
      exec (.alarmClear tag code) s =
        .next ((clearAlarm c s.heard).replied tag .alarmClear (.accepted (.alarmCleared (s.car c).alarm)))) := by
  have named := carOf?_code c
  refine ⟨fun silent => ?_, fun x status shows => ?_, fun x status calm => ?_⟩
  · exact request_answers listens (handleAlarmClear_inhibited (s := s.heard) named (.inl ⟨silent, rfl⟩)) rfl
  · exact request_answers listens (handleAlarmClear_inhibited (s := s.heard) named (.inr ⟨x, status, shows, rfl⟩)) rfl
  · refine request_answers listens (handleAlarmClear_clears (s := s.heard) named status calm) ?_
    unfold clearAlarm
    dsimp only
    split
    · exact (reportAlarm_leaves _ _).2
    · rfl

/-! ## An accepted frame in its stages (R91, R92, R93, R106) -/

/-- The state in which an accepted frame is stored and not yet judged (R93). -/
abbrev State.seen (s : State) (c : Car) (x : CarStatus) : State := s.setCar c ((s.car c).accepting x)

section
variable {c : Car} {bytes : List Byte} {x : CarStatus} {s t : State}

/-- The answer to a stored frame (R92). -/
theorem sendCommand_seen (runs : (s.car c).running = true) : sendCommand c (s.seen c x) = s.answered c x := by
  rw [sendCommand, if_pos (by rw [car_setCar]; exact runs), car_setCar, State.answered]
  cases c <;> rfl

/-- A frame that follows in sequence and carries no marker is stored, judged side by side, watched for an alarm, and answered. -/
theorem acceptStatus_stages {k : Hand} (next : s.nextFrame c bytes x) (unmarked : x.marker = none)
    (fresh_kept : ∀ u : State, (u.car c).freshness = .fresh → k (.freshness c .fresh) u = u) :
    acceptStatus k c x s = sendCommand c (watchAlarm k c x (judgeFrame k c x (s.seen c x))) := by
  obtain ⟨no_gap, -⟩ := nextFrame_sequence next
  obtain ⟨-, -, fresh, -, same⟩ := next
  rw [acceptStatus, unmarked, markerHandOver, no_gap]
  dsimp only
  rw [if_pos rfl, fresh_kept _ (by rw [car_setCar]; exact fresh), watchCrew_same same]

/-- The frame as a command. -/
theorem exec_carStatusFrame_stages (running : s.isRunning) (next : s.nextFrame c bytes x) (unmarked : x.marker = none)
    (e : sendCommand c (watchAlarm cascade c x (judgeFrame cascade c x (State.seen { s with overrun := false } c x))) = t)
    (clear : t.overrun = false) : exec (.carStatusFrame c bytes) s = .next t := by
  have accepted := (acceptStatus_stages (k := cascade) (s := { s with overrun := false }) next unmarked
    (fun _ fresh => freshnessNow_same fresh)).trans e
  obtain ⟨-, distinct⟩ := nextFrame_sequence next
  obtain ⟨runs, reads, -⟩ := next
  refine exec_carStatusFrame_receives running ?_ clear
  rw [reads, receiveStatus, if_pos (by exact runs), if_neg (by exact distinct), accepted]

end

/-! ## The latching of an alarm (R43, R98, R101) -/

section
variable {k : Hand} {c : Car} {x : CarStatus} {s : State}

/-- The state of a car whose alarm latch is set (R98). -/
abbrev State.latched (s : State) (c : Car) : State := s.setCar c { s.car c with alarm := true }

/-- An alarm calls for a CONTROLLED stop: the line moves and its alarm action is STOP_NOW (R43). -/
abbrev State.stopsNow (s : State) : Prop := s.hac.state ≠ .held ∧ ∃ p, s.line = some p ∧ p.alarmAction = 0

theorem watchAlarm_latched (latch : (s.car c).alarm = true) : watchAlarm k c x s = s := by
  simp only [watchAlarm, latch, Bool.not_true, Bool.and_false, Bool.false_eq_true, if_false]

/-- An alarm at a clear latch: the latch, the order that the alarm action calls for, the abort of a test, and the report as it was at
the latching (R98). -/
theorem watchAlarm_latches (shows : x.alarm = true) (clear : (s.car c).alarm = false) : watchAlarm k c x s =
    reportAlarm (alarmReportOf (s.latched c) c) (k (.abortTest .alarm)
      (if s.stopsNow then k (.orderStop .controlled .alarm) (s.latched c) else s.latched c)) := by
  have orders : ((s.latched c).moving && (s.latched c).line.any (fun p => p.alarmAction == 0)) = true ↔ s.stopsNow := by
    rw [Bool.and_eq_true, moving_iff, Option.any_eq_true]
    simp only [beq_iff_eq]
    exact Iff.rfl
  simp only [watchAlarm, shows, clear, Bool.not_false, Bool.and_self, if_true, orders]

/-- The report of a latch set at a stored frame (R101). -/
theorem alarmReportOf_latched (fresh : (s.car c).freshness = .fresh) : alarmReportOf ((s.seen c x).latched c) c =
    { car := c, latched := true, before := .fresh, after := .fresh, lastSeq := some x.seq, other := (s.car c.other).alarm
      route := s.clu.route, action := s.line.map LineFields.alarmAction, haulage := s.hac.state, x := s.ptr.x } := by
  rw [alarmReportOf, car_setCar, car_setCar, ← fresh]
  cases c <;> rfl

/-- Setting the latch and storing the frame come to one record. -/
theorem seen_latched : (s.seen c x).latched c = (s.latched c).seen c x := by
  cases c <;> rfl

/-- Reporting an alarm and storing the frame come in either order. -/
theorem reportAlarm_seen (r : AlarmReport) : reportAlarm r (s.seen c x) = (reportAlarm r s).seen c x := by
  unfold reportAlarm
  rw [post_eq_taking, post_eq_taking]
  split
  · rename_i reports
    rw [if_pos (by exact reports)]
    rfl
  · rename_i silent
    rw [if_neg (by exact silent)]

/-- With no test there is none for an alarm to abort (R86). -/
theorem abortTest_none {n : Nat} {cause : AbortCause} (no_test : s.bsq.test = none) : run (n + 1) (.abortTest cause) s = s :=
  abortTestNow_none no_test

/-- The report of an alarm latched at a frame of a FRESH car (R101). -/
abbrev State.alarmLatchedReport (s : State) (c : Car) (x : CarStatus) : AlarmReport :=
  { car := c, latched := true, before := .fresh, after := .fresh, lastSeq := some x.seq, other := (s.car c.other).alarm
    route := s.clu.route, action := s.line.map LineFields.alarmAction, haulage := s.hac.state, x := s.ptr.x }

section
variable (shows : x.alarm = true) (unlatched : (s.car c).alarm = false) (no_test : s.bsq.test = none)
include shows unlatched no_test

/-- An alarm at a stored frame that orders no stop: the latch and its report (R98). -/
theorem watchAlarm_seen_reports {n : Nat} (fresh : (s.car c).freshness = .fresh) (runs_on : ¬s.stopsNow) :
    watchAlarm (run (n + 1)) c x (s.seen c x) = (reportAlarm (s.alarmLatchedReport c x) (s.latched c)).seen c x := by
  rw [watchAlarm_latches shows (by rw [car_setCar]; exact unlatched), if_neg (by exact runs_on), alarmReportOf_latched fresh,
    seen_latched, abortTest_none (by exact no_test), reportAlarm_seen]

/-- An alarm at a stored frame under STOP_NOW orders a CONTROLLED stop of a trip under way (R43, R98). -/
theorem watchAlarm_seen_stops {n : Nat} (stops_now : s.stopsNow) (drives : s.hac.state.drives = true) (moves : s.hac.vRef ≠ 0)
    (empty : s.bsq.stop = none) (cars_run : s.ptr.standstill = false) (grounded : (s.brake .sb).state ≠ .lifting) :
    ∃ q, watchAlarm (run (n + 2)) c x (s.seen c x) = State.seen { s.latched c with
      hac := { s.hac with ramp := true }, bsq := { s.bsq with stop := some (s.controlledRecord .alarm) }, slp := q } c x := by
  obtain ⟨q, taken⟩ := controlled_taken (n := n) (cause := .alarm) (s := (s.latched c).seen c x) empty no_test cars_run grounded
    (.inr ⟨drives, moves⟩)
  rw [if_neg (by exact ne_of_drives drives rfl)] at taken
  rw [watchAlarm_latches shows (by rw [car_setCar]; exact unlatched), if_pos (by exact stops_now), seen_latched, taken,
    abortTest_none (by exact no_test)]
  obtain ⟨q', reported⟩ := reportAlarm_eq _ _
  exact ⟨q', reported⟩

end

/-- A frame that proves its sides ends as the watch for its alarm does, with the answer. -/
theorem exec_carStatusFrame_watched {bytes : List Byte} {m : State} (running : s.isRunning) (next : s.nextFrame c bytes x)
    (proven : s.provenBy c x) (unmarked : x.marker = none)
    (watched : watchAlarm cascade c x (State.seen { s with overrun := false } c x) = m.seen c x)
    (runs : (m.car c).running = true) (clear : m.overrun = false) :
    exec (.carStatusFrame c bytes) s = .next (m.answered c x) := by
  refine exec_carStatusFrame_stages running next unmarked ?_ clear
  have judged : judgeFrame cascade c x (State.seen { s with overrun := false } c x) = State.seen { s with overrun := false } c x :=
    judgeFrame_proven proven
  rw [judged, watched, sendCommand_seen runs]

end

end Sys2Proof.Machine
end

section
/-! SUPPORT. A door side that takes a new record while SB is commanded APPLY, and the judging of a frame's door fields. -/

namespace Sys2Proof.Machine

/-! ## A side that takes a new record while SB is commanded APPLY (R37, R107, R114, R148, R149) -/

section
variable {k : Hand} {c : Car} {d : Side} {r : DoorSide} {event : DoorEvent} {cause : Option DoorCause} {s t : State}

/-- Every OPEN window serves a car with a released side. -/
abbrev State.served (s : State) : Prop := ∀ g, (s.window g).state = .opened → (s.window g).car.any s.anyReleased = true

/-- No window is sealed for its doors while every OPEN one is served (R149). -/
theorem sealUnreleased_served (served : s.served) : sealUnreleased k s = s := by
  refine forEach_fixed (fun g _ => if_neg ?_)
  rw [Bool.and_eq_true, beq_iff_eq]
  rintro ⟨opened, unreleased⟩
  rw [served g opened] at unreleased
  cases unreleased

theorem served_of_noneOpen (none_open : s.noneOpen) : s.served := fun g opened => absurd opened (none_open g)

/-- The reference and the word after a side's record has become r: 0 where the side leaves SECURED (R37). -/
abbrev State.haulageAfter (s : State) (old r : DoorSide) : Haulage :=
  if old.state = .secured ∧ r.state ≠ .secured then s.referenceZero.hac else s.hac

/-- A side that enters a state other than RELEASED, before the interlock watch (R37, R107). -/
theorem sideTaken_unreleased (unreleased : r.state ≠ .released) : ∃ q, sideTaken c d r event cause s =
    { s.setSide c d r with hac := s.haulageAfter (s.side c d) r, slp := q } := by
  have not_released : (r.state == .released) = false := beq_eq_false_iff_ne.2 unreleased
  simp only [sideTaken, doorReport, not_released, Bool.false_eq_true, if_false, Bool.and_eq_true, beq_iff_eq, bne_iff_ne,
    post_eq_taking, State.haulageAfter]
  split
  · exact ⟨_, rfl⟩
  · exact ⟨_, rfl⟩

/-- Such an entry opens no window. -/
theorem sideFollows_unreleased {old : DoorSide} (unopening : ¬(old.state = .releasePending ∧ r.state = .released)) (served : s.served) :
    sideFollows k c old r s = s := by
  have not_opening : (old.state == .releasePending && r.state == .released && (r.kind == some .auto || r.kind == some .manual)) =
      false := by
    rw [Bool.and_eq_false_iff]
    exact .inl (by simpa using unopening)
  simp only [sideFollows, not_opening, Bool.false_eq_true, if_false, sealUnreleased_served served]

/-- While SB is commanded APPLY a side that enters a state other than RELEASED is all that changes, with the reference and the
report. -/
theorem sideTo_unreleased {n : Nat} (applied : (s.brake .sb).cmd = .apply) (unreleased : r.state ≠ .released)
    (served : (s.setSide c d r).served) : ∃ q, run (n + 2) (.sideTo c d r event cause) s =
      { s.setSide c d r with hac := s.haulageAfter (s.side c d) r, slp := q } := by
  obtain ⟨q, taken⟩ := sideTaken_unreleased (c := c) (d := d) (event := event) (cause := cause) (s := s) unreleased
  refine ⟨q, ?_⟩
  rw [run_succ, act, sideToNow_eq, taken, run_succ, act, interlockNow_applied (by exact applied),
    sideFollows_unreleased (fun both => unreleased both.2) (by exact served)]

/-- A side is released at a stop that is flagged terminal for its car (R6, R114). -/
abbrev State.atTerminal (s : State) (c : Car) (r : DoorSide) : Prop :=
  (r.kind = some .auto ∨ r.kind = some .manual) ∧
    ∃ j, r.stop = some j ∧ ∃ z, s.stopAt? j = some z ∧ (z.car.get c).terminal = true

theorem terminalFor_iff {stop : Option Nat} : s.terminalFor c stop = true ↔
    ∃ j, stop = some j ∧ ∃ z, s.stopAt? j = some z ∧ (z.car.get c).terminal = true := by
  cases stop with
  | none => simp [State.terminalFor]
  | some j => cases found : s.stopAt? j <;> simp [State.terminalFor, found]

/-- An entry into RELEASED clears the car: it is the first at a terminal (R114). -/
abbrev State.clears (s : State) (c : Car) (r : DoorSide) : Prop := s.atTerminal c r ∧ s.dru.cleared.get c = false

/-- The tally of a car after an entry of one of its sides into RELEASED (R114). -/
def State.tallyCorrected (s : State) (c : Car) (r : DoorSide) : Tally :=
  if s.clears c r then { s.tallyOf c with aboardMin := 0, aboardMax := 0, unknown := false } else { s.tallyOf c with aboardMin := 0 }

/-- The berth clearance marks after such an entry (R114). -/
def State.clearedAfter (s : State) (c : Car) (r : DoorSide) : PerCar Bool :=
  if s.clears c r then s.dru.cleared.set c true else s.dru.cleared

/-- The correction of the tally at an entry into RELEASED (R114). -/
theorem correctTally_eq : correctTally c r s =
    { s.setTally c (s.tallyCorrected c r) with dru := { s.dru with cleared := s.clearedAfter c r } } := by
  have clears : ((r.kind == some .auto || r.kind == some .manual) && s.terminalFor c r.stop && !s.dru.cleared.get c) = true ↔
      s.clears c r := by
    simp only [Bool.and_eq_true, Bool.or_eq_true, beq_iff_eq, Bool.not_eq_true', terminalFor_iff]
  simp only [correctTally, clears, State.tallyCorrected, State.clearedAfter]
  split <;> rfl

/-- The first entry at a terminal empties the car and marks it cleared (R114). -/
theorem corrected_clears (terminal : s.atTerminal c r) (uncleared : s.dru.cleared.get c = false) :
    (s.clearedAfter c r).get c = true ∧
      s.tallyCorrected c r = { s.tallyOf c with aboardMin := 0, aboardMax := 0, unknown := false } := by
  have clears : s.clears c r := ⟨terminal, uncleared⟩
  rw [State.clearedAfter, State.tallyCorrected, if_pos clears, if_pos clears, PerCar.get_set]
  exact ⟨rfl, rfl⟩

/-- Any other entry corrects the minimum alone (R114). -/
theorem corrected_keeps (keeps : ¬s.atTerminal c r ∨ s.dru.cleared.get c = true) :
    s.clearedAfter c r = s.dru.cleared ∧ s.tallyCorrected c r = { s.tallyOf c with aboardMin := 0 } := by
  have keeps : ¬s.clears c r := by
    rintro ⟨terminal, uncleared⟩
    rcases keeps with away | cleared
    · exact away terminal
    · exact nomatch cleared.symm.trans uncleared
  exact ⟨if_neg keeps, if_neg keeps⟩

/-- The state of a side's entry into RELEASED: the record, the tally and the marks of its car, and the link (R107, R114). -/
def State.sideReleased (s : State) (c : Car) (d : Side) (r : DoorSide) (q : Link) : State :=
  { s with
    tally := s.tally.set c (s.tallyCorrected c r), slp := q
    dru := { sides := s.dru.sides.set c ((s.dru.sides.get c).set d r), cleared := s.clearedAfter c r } }

/-- A side other than a SECURED one that enters RELEASED, before the interlock watch (R107, R114). -/
theorem sideTaken_released (released : r.state = .released) (unsecured : (s.side c d).state ≠ .secured) :
    ∃ q, sideTaken c d r event cause s = s.sideReleased c d r q := by
  have stays : ((s.side c d).state == .secured) = false := beq_eq_false_iff_ne.2 unsecured
  simp only [sideTaken, doorReport, released, stays, Bool.false_and, Bool.false_eq_true, if_false, beq_self_eq_true, if_true,
    post_eq_taking, correctTally_eq]
  exact ⟨_, rfl⟩

/-- The window of a group opens or reopens for a side of a car released at a stop (R148). -/
abbrev State.windowOpens (s : State) (c : Car) (r : DoorSide) (g : Group) : Prop :=
  (r.kind = some .auto ∨ r.kind = some .manual) ∧
    (∃ j, r.stop = some j ∧ ∃ z, s.stopAt? j = some z ∧ (z.car.get c).group = some g) ∧
    ((s.window g).state = .shut ∨ ((s.window g).state = .sealed ∧ (s.window g).car = some c ∧ (s.window g).stop = r.stop))

/-- A window opened for a side of a car (R148). -/
abbrev State.openedWindow (s : State) (c : Car) (r : DoorSide) : Window :=
  { state := .opened, car := some c, stop := r.stop, dwell := s.boundSec LineFields.dwell }

/-- A state with other windows and gate records, and another link. -/
def State.withWindows (s : State) (w : PerGroup Window) (gates : List GateRec) (q : Link) : State :=
  { s with glm := { s.glm with windows := w, gates := gates }, slp := q }

/-- The windows once a side of a car has entered RELEASED from RELEASE_PENDING (R148). -/
def State.windowsOpened (s : State) (c : Car) (r : DoorSide) (w : PerGroup Window) : Prop :=
  ∀ g, (s.windowOpens c r g → w.get g = s.openedWindow c r) ∧ (¬s.windowOpens c r g → w.get g = s.window g)

theorem setWindow_eq (g : Group) (w : Window) (cause : WindowCause) (s : State) : ∃ gates q, setWindow g w cause s =
    { s with glm := { s.glm with windows := s.glm.windows.set g w, gates := gates }, slp := q } := by
  unfold setWindow
  dsimp only
  split
  · exact ⟨_, _, rfl⟩
  · exact ⟨_, _, post_eq_taking _ _⟩

/-- A window that opens is the only one to change (R148). -/
theorem windowsOpened_set {g : Group} (opens : ∀ h, s.windowOpens c r h ↔ h = g) :
    s.windowsOpened c r (s.glm.windows.set g (s.openedWindow c r)) := by
  intro h
  rw [opens h]
  refine ⟨?_, fun other => PerGroup.get_set_other _ _ other⟩
  rintro rfl
  exact PerGroup.get_set _ _ _

theorem windowsOpened_none (opens : ∀ h, ¬s.windowOpens c r h) : s.windowsOpened c r s.glm.windows :=
  fun h => ⟨fun does => absurd does (opens h), fun _ => rfl⟩

/-- A release at a stop opens the window of the car's group there where it is SHUT or SEALED for that car and stop (R148). -/
theorem openWindow_opens {i : Nat} (on_stop : r.kind = some .auto ∨ r.kind = some .manual) (stop : r.stop = some i) :
    ∃ w gates q, openWindow c i s = s.withWindows w gates q ∧
      s.windowsOpened c r w := by
  have group : ∀ g, s.windowOpens c r g ↔ (s.stopAt? i).bind (fun z => (z.car.get c).group) = some g ∧
      ((s.window g).state = .shut ∨ ((s.window g).state = .sealed ∧ (s.window g).car = some c ∧ (s.window g).stop = some i)) := by
    intro g
    simp [State.windowOpens, on_stop, stop, Option.bind_eq_some_iff]
  have kept : (∀ g, ¬s.windowOpens c r g) → ∃ w gates q, s = s.withWindows w gates q ∧
      s.windowsOpened c r w := fun none => ⟨_, _, _, rfl, windowsOpened_none none⟩
  have opened : ∀ g, (∀ h, s.windowOpens c r h ↔ h = g) → ∃ w gates q,
      setWindow g (s.openedWindow c r) .release s = s.withWindows w gates q ∧
        s.windowsOpened c r w := by
    intro g opens
    obtain ⟨gates, q, set⟩ := setWindow_eq g (s.openedWindow c r) .release s
    exact ⟨_, gates, q, set, windowsOpened_set opens⟩
  unfold openWindow
  cases named : (s.stopAt? i).bind (fun z => (z.car.get c).group) with
  | none => exact kept fun g opens => nomatch named.symm.trans ((group g).1 opens).1
  | some g =>
    have here : ∀ h, s.windowOpens c r h ↔ h = g ∧
        ((s.window g).state = .shut ∨ ((s.window g).state = .sealed ∧ (s.window g).car = some c ∧ (s.window g).stop = some i)) := by
      intro h
      rw [group h, named, Option.some.injEq]
      constructor <;> rintro ⟨rfl, state⟩ <;> exact ⟨rfl, state⟩
    rw [← stop] at here ⊢
    dsimp only
    cases state : (s.window g).state with
    | shut => exact opened g fun h => by simp [here h, state]
    | sealed =>
      dsimp only
      split
      · rename_i same
        exact opened g fun h => by simp [here h, state, same]
      · rename_i other
        exact kept fun h => by simp only [here h, state, reduceCtorEq, other, or_self, and_false, not_false_eq_true]
    | opened => exact kept fun h => by simp [here h, state]
    | sealing => exact kept fun h => by simp [here h, state]

/-- Where no window was OPEN, those opened for a released side of a car are served. -/
theorem served_of_windowsOpened {w : PerGroup Window} (none_open : s.noneOpen) (opened : s.windowsOpened c r w)
    (windows : t.glm.windows = w) (released : (t.side c d).state.isReleased = true) : t.served := by
  intro g is_open
  rw [State.window, windows] at is_open ⊢
  obtain ⟨opens, stays⟩ := opened g
  by_cases does : s.windowOpens c r g
  · rw [opens does, Option.any_some, State.anyReleased, List.any_eq_true]
    exact ⟨d, by cases d <;> decide, released⟩
  · rw [stays does] at is_open
    exact absurd is_open (none_open g)

/-- What follows an acknowledged release: a window at a stop that the release names, and then the windows without a released side. -/
theorem sideFollows_released {old : DoorSide} (pending : old.state = .releasePending) (released : r.state = .released) :
    (∀ i, r.kind = some .auto ∨ r.kind = some .manual → r.stop = some i →
      sideFollows k c old r s = sealUnreleased k (openWindow c i s)) ∧
    (¬((r.kind = some .auto ∨ r.kind = some .manual) ∧ r.stop.isSome = true) → sideFollows k c old r s = sealUnreleased k s) := by
  have opening : (old.state == .releasePending && r.state == .released && (r.kind == some .auto || r.kind == some .manual)) = true ↔
      (r.kind = some .auto ∨ r.kind = some .manual) := by simp [pending, released]
  simp only [sideFollows, opening]
  refine ⟨fun i on_stop stop => ?_, fun off_stop => ?_⟩
  · rw [if_pos on_stop, stop]
  · split
    · rename_i on_stop
      cases stop : r.stop with
      | some i => exact absurd ⟨on_stop, by rw [stop]; rfl⟩ off_stop
      | none => rfl
    · rfl

/-- On a line without an OPEN window an acknowledged release opens the window of the car's group at its stop, and no other window
changes (R148). -/
theorem sideFollows_acknowledged {old : DoorSide} (pending : old.state = .releasePending) (released : r.state = .released)
    (none_open : s.noneOpen) (here : s.side c d = r) : ∃ w gates q, sideFollows k c old r s =
      s.withWindows w gates q ∧ s.windowsOpened c r w := by
  obtain ⟨at_stop, elsewhere⟩ := sideFollows_released (k := k) (c := c) (s := s) pending released
  by_cases on_stop : (r.kind = some .auto ∨ r.kind = some .manual) ∧ r.stop.isSome = true
  · obtain ⟨kind, named⟩ := on_stop
    obtain ⟨i, stop⟩ := Option.isSome_iff_exists.1 named
    obtain ⟨w, gates, q, opened, windows⟩ := openWindow_opens (c := c) (s := s) kind stop
    have side_released : ((s.withWindows w gates q).side c d).state.isReleased =
        true := by
      rw [show (s.withWindows w gates q).side c d = r from here, released]
      rfl
    exact ⟨w, gates, q, (at_stop i kind stop).trans ((congrArg _ opened).trans
      (sealUnreleased_served (served_of_windowsOpened none_open windows rfl side_released))), windows⟩
  · have none : ∀ g, ¬s.windowOpens c r g := by
      rintro g ⟨kind, ⟨i, stop, -⟩, -⟩
      exact on_stop ⟨kind, by rw [stop]; rfl⟩
    exact ⟨_, _, _, (elsewhere on_stop).trans (sealUnreleased_none none_open), windowsOpened_none none⟩

section
variable (calm : s.undisturbed)
include calm

/-- On an undisturbed line a side other than a SECURED one that enters RELEASED, and not from RELEASE_PENDING, corrects the tally and
sets nothing else off (R114). -/
theorem sideTo_released {n : Nat} (released : r.state = .released) (unsecured : (s.side c d).state ≠ .secured)
    (unpending : (s.side c d).state ≠ .releasePending) :
    ∃ q, run (n + 2) (.sideTo c d r event cause) s = s.sideReleased c d r q := by
  obtain ⟨q, taken⟩ := sideTaken_released (c := c) (d := d) (event := event) (cause := cause) released unsecured
  refine ⟨q, ?_⟩
  rw [run_succ, act, sideToNow_eq, taken, run_succ, act, interlockNow_applied (by exact calm.1),
    sideFollows_unreleased (fun both => unpending both.1) (by exact served_of_noneOpen calm.2.1)]

/-- On an undisturbed line an acknowledged release corrects the tally and opens a window (R112, R114, R148). -/
theorem sideTo_acknowledged {n : Nat} (pending : (s.side c d).state = .releasePending) (released : r.state = .released) :
    ∃ w gates p q, run (n + 2) (.sideTo c d r event cause) s = (s.sideReleased c d r p).withWindows w gates q ∧
      s.windowsOpened c r w := by
  obtain ⟨p, taken⟩ := sideTaken_released (c := c) (d := d) (event := event) (cause := cause) released (by rw [pending]; decide)
  obtain ⟨w, gates, q, follows, windows⟩ := sideFollows_acknowledged (k := run (n + 1)) (c := c) (d := d) (s := s.sideReleased c d r p)
    pending released calm.2.1 (side_setSide s c d r)
  refine ⟨w, gates, p, q, ?_, windows⟩
  rw [run_succ, act, sideToNow_eq, taken, run_succ, act, interlockNow_applied (by exact calm.1), follows]

/-- RELEASE_PENDING at an acknowledging frame: the side is RELEASED or, where the leaves show unlocked, OPEN; the tally is corrected
and a window opens (R112, R114, R148). -/
theorem judgePending_acknowledged {n : Nat} {y : DoorStatus} (side : s.side c d = r) (pending : r.state = .releasePending)
    (ack : y.ack = true) : ∃ w gates p q, judgePending (run (n + 2)) c d y s = (s.sideReleased c d { r with
        state := if y.leaf = .locked then .released else .opened, ackTimer := none } p).withWindows w gates q ∧
      s.windowsOpened c r w := by
  obtain ⟨w, gates, p, q, acknowledged, windows⟩ := sideTo_acknowledged (n := n) (c := c) (d := d) (event := .released)
    (cause := some .ack) (r := { r with state := .released, ackTimer := none }) calm (by rw [side]; exact pending) rfl
  generalize entered : (s.sideReleased c d { r with state := .released, ackTimer := none } p).withWindows w gates q = u at acknowledged
  have here : u.side c d = { r with state := .released, ackTimer := none } := by
    rw [← entered]
    exact side_setSide s c d _
  rw [judgePending, if_pos ack, side, acknowledged]
  dsimp only
  rw [here]
  by_cases locked : y.leaf = .locked
  · rw [if_neg (by simp [locked]), if_pos locked]
    exact ⟨w, gates, p, q, entered.symm, windows⟩
  · obtain ⟨q', opened⟩ := sideTo_unreleased (n := n) (c := c) (d := d) (r := { r with state := .opened, ackTimer := none })
      (event := .opened) (cause := some .leaves) (s := u) (by rw [← entered]; exact calm.1) nofun
      (served_of_windowsOpened calm.2.1 windows (by rw [← entered]; rfl) (by rw [side_setSide]; rfl))
    rw [if_pos (by simp [locked]), if_neg locked, opened, State.haulageAfter,
      if_neg (by rw [here]; exact fun both => nomatch both.1), ← entered]
    refine ⟨w, gates, p, q', ?_, windows⟩
    cases c <;> cases d <;> rfl

end

end

end Sys2Proof.Machine
end

section
/-! SUPPORT. One side of a car judged against a frame, on a line that is HELD and on a line that moves. -/

namespace Sys2Proof.Machine

/-! ## One side judged (R106) -/

section
variable {k : Hand} {c : Car} {d other : Side} {bytes : List Byte} {x : CarStatus} {s : State}

/-- A frame whose other side is SECURED and shown locked is judged at one side alone (R106). -/
theorem judgeFrame_alone (distinct : other ≠ d) (secured : (s.side c other).state = .secured) (locked : (x.door other).leaf = .locked)
    (kept : ((judgeSide k s.moving c d (x.door d) s).side c other).state = .secured) :
    judgeFrame k c x s = judgeSide k s.moving c d (x.door d) s := by
  have fixed : ∀ u : State, (u.side c other).state = .secured → judgeSide k s.moving c other (x.door other) u = u := by
    intro u secured
    simp only [judgeSide, secured, judgeSecured, locked]
  have in_turn : judgeFrame k c x s =
      judgeSide k s.moving c .right (x.door .right) (judgeSide k s.moving c .left (x.door .left) s) := rfl
  rw [in_turn]
  cases d <;> cases other
  · exact absurd rfl distinct
  · exact fixed _ kept
  · rw [fixed s secured]
  · exact absurd rfl distinct

variable {m : Bool} {y : DoorStatus}

theorem proves_iff : y.proves = true ↔ y.leaf = .locked ∧ y.ack = false := by
  simp [DoorStatus.proves]

theorem judgeSide_pending (state : (s.side c d).state = .releasePending) (unacknowledged : y.ack = false) :
    judgeSide k m c d y s = if y.leaf = .opened then faultSide k c d .opened s else s := by
  simp only [judgeSide, state, judgePending, unacknowledged, Bool.false_eq_true, if_false, beq_iff_eq]

theorem judgeSide_acknowledged (state : (s.side c d).state = .releasePending) : judgeSide k m c d y s = judgePending k c d y s := by
  simp only [judgeSide, state]

theorem judgeSide_released (state : (s.side c d).state = .released) : judgeSide k m c d y s =
    if y.leaf = .locked then s else k (.sideTo c d { s.side c d with state := .opened } .opened (some .leaves)) s := by
  simp only [judgeSide, state, beq_iff_eq]

theorem judgeSide_opened (state : (s.side c d).state = .opened) : judgeSide k m c d y s =
    if y.leaf = .locked then k (.sideTo c d { s.side c d with state := .released } .released (some .leaves)) s else s := by
  simp only [judgeSide, state, beq_iff_eq]

theorem judgeSide_closing (state : (s.side c d).state = .closing) :
    (y.proves = true → judgeSide k m c d y s =
      k (.sideTo c d (s.side c d).secured .secured (some (if (s.side c d).clearing then .faultCleared else .proof))) s) ∧
    (y.proves = false → judgeSide k m c d y s = if y.obstruction then attemptFailed k c d .obstruction s else s) := by
  constructor <;> intro proves <;> simp [judgeSide, state, judgeClosing, proves]

theorem judgeSide_secured (state : (s.side c d).state = .secured) :
    (y.leaf = .locked → judgeSide k m c d y s = s) ∧
    (y.leaf = .closed → judgeSide k false c d y s =
      if y.ack then k (.sideTo c d (s.side c d).unproven .unproven (some .lateAck)) s else faultSide k c d .unlocked s) ∧
    (y.leaf = .opened → judgeSide k false c d y s = if y.ack then faultSide k c d .lateOpen s else faultSide k c d .opened s) := by
  refine ⟨?_, ?_, ?_⟩ <;> intro leaf <;> simp [judgeSide, state, judgeSecured, leaf]

theorem judgeSide_unproven (state : (s.side c d).state = .unproven) :
    (y.proves = true → judgeSide k m c d y s = k (.sideTo c d (s.side c d).secured .secured (some .proof)) s) ∧
    (y.proves = false → judgeSide k false c d y s = s) := by
  constructor <;> intro proves <;> simp [judgeSide, state, judgeUnproven, proves]

theorem judgeSide_fault (state : (s.side c d).state = .fault) : judgeSide k m c d y s = s := by
  simp only [judgeSide, state]

/-- On a moving line a SECURED side not shown locked, or an UNPROVEN side that is not proved, is a FAULT MOVING (R120). -/
theorem judgeSide_moving
    (unlocked : ((s.side c d).state = .secured ∧ y.leaf ≠ .locked) ∨ ((s.side c d).state = .unproven ∧ y.proves = false)) :
    judgeSide k true c d y s = faultMoving k c d s := by
  rcases unlocked with ⟨state, leaf⟩ | ⟨state, fails⟩
  · cases shown : y.leaf
    case locked => exact absurd shown leaf
    all_goals simp [judgeSide, state, judgeSecured, shown]
  · simp [judgeSide, state, judgeUnproven, fails]

/-- An unmarked frame without an alarm that follows in sequence and says something new of one side of its car at most. -/
structure State.ShowsSide (s : State) (c : Car) (d other : Side) (bytes : List Byte) (x : CarStatus) : Prop where
  running : s.isRunning
  next : s.nextFrame c bytes x
  unmarked : x.marker = none
  no_alarm : x.alarm = false
  distinct : other ≠ d
  secured : (s.side c other).state = .secured
  locked : (x.door other).leaf = .locked

/-- The frame leaves the sides as they are and is answered. -/
abbrev State.FrameStays (s : State) (c : Car) (bytes : List Byte) (x : CarStatus) : Prop :=
  exec (.carStatusFrame c bytes) s = .next (State.answered { s with overrun := false } c x)

/-- The frame is answered from a state in which a side has a new record, reports aside. -/
abbrev State.FrameGives (s v : State) (c : Car) (d : Side) (r : DoorSide) (bytes : List Byte) (x : CarStatus) : Prop :=
  ∃ t, exec (.carStatusFrame c bytes) s = .next t ∧ State.sameBut (State.answered (v.setSide c d r) c x) t

/-- The state in which the frame is judged. -/
abbrev State.toJudge (s : State) (c : Car) (x : CarStatus) : State := State.seen { s with overrun := false } c x

/-- A frame ends as the judging of its side does, with the answer. -/
theorem State.ShowsSide.ends {m : State} (shows : s.ShowsSide c d other bytes x)
    (judged : judgeSide cascade s.moving c d (x.door d) (s.toJudge c x) = m.seen c x) (cars : m.clu = s.clu)
    (kept : m.side c other = s.side c other) (clear : m.overrun = false) :
    exec (.carStatusFrame c bytes) s = .next (m.answered c x) := by
  refine exec_carStatusFrame_stages shows.running shows.next shows.unmarked ?_ clear
  have alone : judgeFrame cascade c x (s.toJudge c x) = m.seen c x :=
    (judgeFrame_alone (s := s.toJudge c x) shows.distinct shows.secured shows.locked
      (by rw [show (s.toJudge c x).moving = s.moving from rfl, judged]; exact (congrArg DoorSide.state kept).trans shows.secured)).trans
      judged
  rw [alone, watchAlarm_none shows.no_alarm, sendCommand_seen ((congrArg (fun l => (l.recs.get c).running) cars).trans shows.next.1)]

end

/-! ## A side judged while the line is HELD (R112, R113, R117, R119) -/

section
variable {c : Car} {d other : Side} {bytes : List Byte} {x : CarStatus} {s : State} {r : DoorSide} {event : DoorEvent}
  {cause : Option DoorCause} (shows : s.ShowsSide c d other bytes x) (held : s.hac.state = .held)
include shows held

/-- A side whose judging leaves it as it is. -/
theorem State.ShowsSide.stays (judged : judgeSide cascade false c d (x.door d) (s.toJudge c x) = s.toJudge c x) :
    s.FrameStays c bytes x :=
  shows.ends (m := { s with overrun := false }) (by rw [not_moving held]; exact judged) rfl rfl rfl

variable (calm : s.undisturbed)
include calm

/-- A side whose judging ends in an entry into a state other than RELEASED: its record, and the reference (R37). -/
theorem State.ShowsSide.enters
    (judged : judgeSide cascade false c d (x.door d) (s.toJudge c x) = cascade (.sideTo c d r event cause) (s.toJudge c x))
    (unreleased : r.state ≠ .released) :
    s.FrameGives { { s with overrun := false } with hac := s.haulageAfter (s.side c d) r } c d r bytes x := by
  obtain ⟨q, entered⟩ := sideTo_unreleased (n := 62) (c := c) (d := d) (event := event) (cause := cause) (s := s.toJudge c x) calm.1
    unreleased (served_of_noneOpen calm.2.1)
  refine ⟨_, shows.ends (m := { State.setSide { s with overrun := false } c d r with
    hac := s.haulageAfter (s.side c d) r, slp := q }) ?_ rfl (side_setSide_other _ _ ?_) rfl, rfl⟩
  · rw [not_moving held, judged]
    exact entered
  · exact fun same => shows.distinct (Prod.mk.inj same).2

/-- Such an entry of a side that does not leave SECURED. -/
theorem State.ShowsSide.becomes
    (judged : judgeSide cascade false c d (x.door d) (s.toJudge c x) = cascade (.sideTo c d r event cause) (s.toJudge c x))
    (unreleased : r.state ≠ .released) (unsecured : (s.side c d).state ≠ .secured) :
    s.FrameGives { s with overrun := false } c d r bytes x := by
  have entered := shows.enters held calm judged unreleased
  rw [State.haulageAfter, if_neg fun both => unsecured both.1] at entered
  exact entered

/-- Such an entry of a side that leaves SECURED: the reference is 0 (R37). -/
theorem State.ShowsSide.leaves
    (judged : judgeSide cascade false c d (x.door d) (s.toJudge c x) = cascade (.sideTo c d r event cause) (s.toJudge c x))
    (unreleased : r.state ≠ .released) (secured : (s.side c d).state = .secured) (left : r.state ≠ .secured) :
    s.FrameGives (State.referenceZero { s with overrun := false }) c d r bytes x := by
  have entered := shows.enters held calm judged unreleased
  rw [State.haulageAfter, if_pos ⟨secured, left⟩] at entered
  exact entered

/-- RELEASE_PENDING at a frame without the acknowledgement (R112). -/
theorem State.ShowsSide.pending :
    ((s.side c d).state = .releasePending → (x.door d).ack = false → (x.door d).leaf ≠ .opened → s.FrameStays c bytes x) ∧
    ((s.side c d).state = .releasePending → (x.door d).ack = false → (x.door d).leaf = .opened →
      s.FrameGives { s with overrun := false } c d ((s.side c d).faulted .opened) bytes x) := by
  have judged := judgeSide_pending (k := cascade) (m := false) (c := c) (d := d) (y := x.door d) (s := s.toJudge c x)
  exact ⟨fun state no_ack closed => shows.stays held ((judged state no_ack).trans (if_neg closed)),
    fun state no_ack opened => shows.becomes held calm ((judged state no_ack).trans (if_pos opened)) nofun (by rw [state]; decide)⟩

/-- RELEASED at a frame (R113). -/
theorem State.ShowsSide.released :
    ((s.side c d).state = .released → (x.door d).leaf = .locked → s.FrameStays c bytes x) ∧
    ((s.side c d).state = .released → (x.door d).leaf ≠ .locked →
      s.FrameGives { s with overrun := false } c d { s.side c d with state := .opened } bytes x) := by
  have judged := judgeSide_released (k := cascade) (m := false) (c := c) (d := d) (y := x.door d) (s := s.toJudge c x)
  exact ⟨fun state locked => shows.stays held ((judged state).trans (if_pos locked)),
    fun state unlocked => shows.becomes held calm ((judged state).trans (if_neg unlocked)) nofun (by rw [state]; decide)⟩

/-- OPEN at a frame: where a side off a stop is shown locked the tally is corrected (R113, R114). -/
theorem State.ShowsSide.opened :
    ((s.side c d).state = .opened → (x.door d).leaf ≠ .locked → s.FrameStays c bytes x) ∧
    ((s.side c d).state = .opened → (x.door d).leaf = .locked → (s.side c d).kind = none →
      s.FrameGives (State.setTally { s with overrun := false } c { s.tallyOf c with aboardMin := 0 }) c d
        { s.side c d with state := .released } bytes x) := by
  have judged := judgeSide_opened (k := cascade) (m := false) (c := c) (d := d) (y := x.door d) (s := s.toJudge c x)
  refine ⟨fun state unlocked => shows.stays held ((judged state).trans (if_neg unlocked)), fun state locked off_stop => ?_⟩
  have not_other : ∀ st : DoorState, st ≠ .opened → (s.side c d).state ≠ st := fun st other => by rw [state]; exact other.symm
  obtain ⟨q, entered⟩ := sideTo_released (n := 62) (c := c) (d := d) (event := .released) (cause := some .leaves)
    (r := { s.side c d with state := .released }) (s := s.toJudge c x) calm rfl (not_other _ nofun) (not_other _ nofun)
  have off_terminal : ¬(s.toJudge c x).atTerminal c { s.side c d with state := .released } := by
    rintro ⟨auto | manual, -⟩
    · exact nomatch off_stop.symm.trans auto
    · exact nomatch off_stop.symm.trans manual
  obtain ⟨marks, tally⟩ := corrected_keeps (.inl off_terminal)
  rw [State.sideReleased, marks, tally] at entered
  refine ⟨_, shows.ends (m := { State.setSide (State.setTally { s with overrun := false } c { s.tallyOf c with aboardMin := 0 }) c d
    { s.side c d with state := .released } with slp := q }) ?_ rfl (side_setSide_other _ _ ?_) rfl, rfl⟩
  · rw [not_moving held, judged state, if_pos locked]
    exact entered
  · exact fun same => shows.distinct (Prod.mk.inj same).2

/-- CLOSING at a frame (R117, R118). -/
theorem State.ShowsSide.closing :
    ((s.side c d).state = .closing → (x.door d).leaf = .locked → (x.door d).ack = false →
      s.FrameGives { s with overrun := false } c d (s.side c d).secured bytes x) ∧
    ((s.side c d).state = .closing → (x.door d).proves = false → (x.door d).obstruction = true → (s.side c d).retries < 3 →
      s.FrameGives { s with overrun := false } c d { s.side c d with
        state := .opened, closeTimer := none, retryTimer := s.line.map (fun _ => 2000) } bytes x) ∧
    ((s.side c d).state = .closing → (x.door d).proves = false → (x.door d).obstruction = true → 3 ≤ (s.side c d).retries →
      s.FrameGives { s with overrun := false } c d ((s.side c d).faulted .stuck) bytes x) ∧
    ((s.side c d).state = .closing → (x.door d).proves = false → (x.door d).obstruction = false → s.FrameStays c bytes x) := by
  have judged := judgeSide_closing (k := cascade) (m := false) (c := c) (d := d) (y := x.door d) (s := s.toJudge c x)
  have unsecured : (s.side c d).state = .closing → (s.side c d).state ≠ .secured := fun state => by rw [state]; decide
  refine ⟨fun state leaf ack => ?_, fun state fails obstructed few => ?_, fun state fails obstructed many => ?_,
    fun state fails free => ?_⟩ <;> obtain ⟨proved, unproved⟩ := judged state
  · exact shows.becomes held calm (proved (proves_iff.2 ⟨leaf, ack⟩)) nofun (unsecured state)
  · exact shows.becomes held calm ((unproved fails).trans ((if_pos obstructed).trans (if_pos few))) nofun (unsecured state)
  · exact shows.becomes held calm ((unproved fails).trans ((if_pos obstructed).trans (if_neg (Nat.not_lt.2 many)))) nofun
      (unsecured state)
  · exact shows.stays held ((unproved fails).trans (if_neg (by rw [free]; decide)))

/-- SECURED at a frame (R119). -/
theorem State.ShowsSide.secures :
    ((s.side c d).state = .secured → (x.door d).leaf = .locked → s.FrameStays c bytes x) ∧
    ((s.side c d).state = .secured → (x.door d).leaf = .closed → (x.door d).ack = true →
      s.FrameGives (State.referenceZero { s with overrun := false }) c d (s.side c d).unproven bytes x) ∧
    ((s.side c d).state = .secured → (x.door d).leaf = .closed → (x.door d).ack = false →
      s.FrameGives (State.referenceZero { s with overrun := false }) c d ((s.side c d).faulted .unlocked) bytes x) ∧
    ((s.side c d).state = .secured → (x.door d).leaf = .opened → (x.door d).ack = true →
      s.FrameGives (State.referenceZero { s with overrun := false }) c d ((s.side c d).faulted .lateOpen) bytes x) ∧
    ((s.side c d).state = .secured → (x.door d).leaf = .opened → (x.door d).ack = false →
      s.FrameGives (State.referenceZero { s with overrun := false }) c d ((s.side c d).faulted .opened) bytes x) := by
  have judged := judgeSide_secured (k := cascade) (m := false) (c := c) (d := d) (y := x.door d) (s := s.toJudge c x)
  refine ⟨fun state leaf => ?_, fun state leaf ack => ?_, fun state leaf no_ack => ?_, fun state leaf ack => ?_,
    fun state leaf no_ack => ?_⟩ <;> obtain ⟨locked, closed, opened⟩ := judged state
  · exact shows.stays held (locked leaf)
  · exact shows.leaves held calm ((closed leaf).trans (if_pos ack)) nofun state nofun
  · exact shows.leaves held calm ((closed leaf).trans (if_neg (by rw [no_ack]; decide))) nofun state nofun
  · exact shows.leaves held calm ((opened leaf).trans (if_pos ack)) nofun state nofun
  · exact shows.leaves held calm ((opened leaf).trans (if_neg (by rw [no_ack]; decide))) nofun state nofun

/-- UNPROVEN at a frame (R119). -/
theorem State.ShowsSide.unproven :
    ((s.side c d).state = .unproven → (x.door d).leaf = .locked → (x.door d).ack = false →
      s.FrameGives { s with overrun := false } c d (s.side c d).secured bytes x) ∧
    ((s.side c d).state = .unproven → (x.door d).proves = false → s.FrameStays c bytes x) := by
  have judged := judgeSide_unproven (k := cascade) (m := false) (c := c) (d := d) (y := x.door d) (s := s.toJudge c x)
  refine ⟨fun state leaf ack => ?_, fun state fails => ?_⟩ <;> obtain ⟨proved, unproved⟩ := judged state
  · exact shows.becomes held calm (proved (proves_iff.2 ⟨leaf, ack⟩)) nofun (by rw [state]; decide)
  · exact shows.stays held (unproved fails)

/-- RELEASE_PENDING at the acknowledging frame: the side, the tally of its car and the window of its car's group at the stop (R112,
R114, R148). -/
theorem State.ShowsSide.acknowledged (state : (s.side c d).state = .releasePending) (ack : (x.door d).ack = true) :
    ∃ t, exec (.carStatusFrame c bytes) s = .next t ∧
      t.side c d = { s.side c d with state := if (x.door d).leaf = .locked then .released else .opened, ackTimer := none } ∧
      t.side c other = s.side c other ∧ (∀ e, t.side c.other e = s.side c.other e) ∧
      t.dru.cleared = s.clearedAfter c (s.side c d) ∧ t.tallyOf c = s.tallyCorrected c (s.side c d) ∧
      t.tallyOf c.other = s.tallyOf c.other ∧ s.windowsOpened c (s.side c d) t.glm.windows ∧
      t.hac = s.hac ∧ t.bsq = s.bsq ∧ t.lmu = s.lmu ∧ t.ptr = s.ptr ∧ t.osp = s.osp ∧ t.ptb = s.ptb := by
  obtain ⟨w, gates, p, q, judged, windows⟩ := judgePending_acknowledged (n := 62) (c := c) (d := d) (r := s.side c d)
    (s := s.toJudge c x) (y := x.door d) calm rfl state ack
  have off_side : ∀ e (u : Side), (e, u) ≠ (c, d) →
      (State.sideReleased { s with overrun := false } c d { s.side c d with
        state := if (x.door d).leaf = .locked then .released else .opened, ackTimer := none } p).side e u = s.side e u :=
    fun e u away => side_setSide_other _ _ away
  refine ⟨_, shows.ends (m := (State.sideReleased { s with overrun := false } c d { s.side c d with
    state := if (x.door d).leaf = .locked then .released else .opened, ackTimer := none } p).withWindows w gates q) ?_ rfl ?_ rfl,
    side_setSide s c d _, ?_, fun e => ?_, rfl, PerCar.get_set _ _ _, ?_, windows, rfl, rfl, rfl, rfl, rfl, rfl⟩
  · rw [not_moving held, judgeSide_acknowledged (by exact state)]
    exact judged
  · exact off_side c other fun same => shows.distinct (Prod.mk.inj same).2
  · exact off_side c other fun same => shows.distinct (Prod.mk.inj same).2
  · refine off_side c.other e fun same => ?_
    cases c <;> cases (Prod.mk.inj same).1
  · refine PerCar.get_set_other _ _ ?_
    cases c <;> decide

end

end Sys2Proof.Machine
end

section
/-! SUPPORT. A side that is not shown locked on a moving line, and the statement of the alarms and the doors together. -/

namespace Sys2Proof.Machine

/-! ## A FAULT MOVING (R73, R76, R120) -/

/-- A trip under way with nothing else in progress that a BRAKE stop would meet. -/
structure State.UnderWay (s : State) : Prop where
  trip : s.hac.state ≠ .held ∧ s.hac.state ≠ .stopping ∧ s.hac.state ≠ .releasing
  empty : s.bsq.stop = none
  no_test : s.bsq.test = none
  runs : s.ptr.standstill = false
  not_warming : s.lmu.mode ≠ .warming

/-- What a BRAKE stop of such a trip leaves behind: the haulage STOPPING with the reference 0, SB commanded APPLY, and the record
with its deceleration check (R39, R76, R77). -/
def State.BrakedBy (s : State) (cause : StopCause) (t : State) : Prop :=
  ∃ h o r q, t = { s with
      hac := h, osp := o, slp := q
      bsq := { s.bsq with
        recs := s.bsq.recs.set .sb r
        stop := some { kind := .brake, cause := cause, x := s.ptr.x, vMeas := s.ptr.vMeas
                       check := .running (s.line.map LineFields.tCheck) } } } ∧
    h.state = .stopping ∧ h.vRef = 0 ∧ r.cmd = .apply

section
variable {cause : StopCause} {c : Car} {d : Side} {s t : State}

theorem brakes_underWay {n : Nat} (way : s.UnderWay) : s.BrakedBy cause (run (n + 3) (.orderStop .brake cause) s) := by
  obtain ⟨⟨not_held, not_stopping, not_releasing⟩, empty, no_test, runs, not_warming⟩ := way
  obtain ⟨h, o, r, q, braked, halted, applied⟩ := brake_order (n := n) (cause := cause) empty no_test runs
    (fun warming => absurd warming not_warming)
  have check : s.firstCheck .brake = .running (s.line.map LineFields.tCheck) := by
    simp [State.firstCheck, State.isHeld, State.bound, runs, not_held, not_releasing]
  rw [State.brakeRecord, check] at braked
  exact ⟨h, o, r, q, braked, halted.stops not_held, halted.zero not_held not_stopping, applied⟩

/-- The interlock watch brakes a trip with SB commanded RELEASE whose interlock is broken (R73). -/
theorem interlock_brakes {n : Nat} (way : s.UnderWay) (released : (s.brake .sb).cmd = .release) (broken : s.interlockHolds = false) :
    s.BrakedBy .interlock (run (n + 4) .interlock s) := by
  have braked := brakes_underWay (n := n) (cause := .interlock) way
  have watches : run (n + 4) .interlock s =
      commandBrake (run (n + 2)) .sb .apply (run (n + 3) (.orderStop .brake .interlock) s) := by
    have due : ((s.brake .sb).cmd == .release && !s.interlockHolds) = true := by rw [released, broken]; rfl
    rw [run_succ, act, interlockNow, if_pos due, if_pos (moving_iff.2 way.trip.1)]
    rfl
  have applied : ((run (n + 3) (.orderStop .brake .interlock) s).brake .sb).cmd = .apply := by
    obtain ⟨_, _, _, _, e, -, -, applied⟩ := braked
    rw [e]
    exact applied
  rw [watches, commandBrake_same applied]
  exact braked

/-- A BRAKE stop in progress absorbs another (R74). -/
theorem brake_absorbed {k : Hand} {cause' : StopCause} (braked : s.BrakedBy cause t) : orderStopNow k .brake cause' t = t := by
  obtain ⟨_, _, _, _, rfl, -⟩ := braked
  rfl

/-- A side of a moving line becomes FAULT MOVING: the side, and the BRAKE stop that the interlock watch takes where SB is commanded
RELEASE, else that with cause DOOR (R73, R120). -/
theorem faultMoving_brakes {n : Nat} (way : s.UnderWay) (none_open : s.noneOpen) :
    (s.setSide c d ((s.side c d).faulted .moving)).BrakedBy (if (s.brake .sb).cmd = .release then .interlock else .door)
      (faultMoving (run (n + 5)) c d s) := by
  obtain ⟨q, taken⟩ := sideTaken_unreleased (c := c) (d := d) (r := (s.side c d).faulted .moving) (event := .fault)
    (cause := some (.fault .moving)) (s := s) nofun
  generalize hac : s.haulageAfter (s.side c d) ((s.side c d).faulted .moving) = h at taken
  have state : h.state = s.hac.state := by
    rw [← hac, State.haulageAfter]
    split <;> rfl
  let u : State := { s.setSide c d ((s.side c d).faulted .moving) with hac := h, slp := q }
  have way_on : u.UnderWay := { way with trip := by rw [show u.hac.state = _ from state]; exact way.trip }
  have braked_so : ∀ {why v}, u.BrakedBy why v → (s.setSide c d ((s.side c d).faulted .moving)).BrakedBy why v := by
    rintro _ _ ⟨_, _, _, _, rfl, rest⟩
    exact ⟨_, _, _, _, rfl, rest⟩
  have faulted : ∀ v, run (n + 4) .interlock u = v → v.glm = s.glm → faultSide (run (n + 5)) c d .moving s = v := by
    intro v watched gates
    have served : v.served := served_of_noneOpen fun g => by rw [State.window, gates]; exact none_open g
    rw [faultSide, run_succ, act, sideToNow_eq, taken, watched, sideFollows_unreleased (by exact fun both => nomatch both.2) served]
  rw [faultMoving]
  split
  · rename_i released
    have broken : u.interlockHolds = false := by
      have unsecured : u.allSecured = false := Bool.eq_false_iff.2 fun all => by
        have secured := allSecured_iff.1 all c d
        rw [show u.side c d = _ from side_setSide s c d _] at secured
        exact nomatch secured
      rw [State.interlockHolds, unsecured, Bool.false_and]
    have braked := interlock_brakes (n := n) way_on released broken
    rw [faulted _ rfl (by obtain ⟨_, _, _, _, e, -⟩ := braked; rw [e]; rfl), run_succ, act, brake_absorbed braked]
    exact braked_so braked
  · rename_i unreleased
    have applied : (s.brake .sb).cmd = .apply := by
      cases cmd : (s.brake .sb).cmd
      · rfl
      · exact absurd cmd unreleased
    rw [faulted u ((run_succ _ _ _).trans (interlockNow_applied applied)) rfl]
    exact braked_so (brakes_underWay (n := n + 2) way_on)

end

/-- A line in a trip or in BERTHING neither rests nor waits for a brake. -/
theorem not_idle_of_trip {h : HState} (trip : h.drives = true ∨ h = .berthing) :
    h ≠ .held ∧ h ≠ .stopping ∧ h ≠ .releasing := by
  rcases trip with drives | rfl
  · exact ⟨ne_of_drives drives rfl, ne_of_drives drives rfl, ne_of_drives drives rfl⟩
  · decide

/-- A FAULT MOVING at a frame: the side, the stop, and the answer (R73, R120). -/
theorem State.ShowsSide.moves {c : Car} {d other : Side} {bytes : List Byte} {x : CarStatus} {s : State}
    (shows : s.ShowsSide c d other bytes x) (way : s.UnderWay) (none_open : s.noneOpen)
    (unlocked : ((s.side c d).state = .secured ∧ (x.door d).leaf ≠ .locked) ∨
      ((s.side c d).state = .unproven ∧ (x.door d).proves = false)) :
    ∃ t, exec (.carStatusFrame c bytes) s = .next t ∧ t.side c d = (s.side c d).faulted .moving ∧ t.side c other = s.side c other ∧
      (∀ e, t.side c.other e = s.side c.other e) ∧ t.hac.state = .stopping ∧ t.hac.vRef = 0 ∧ (t.brake .sb).cmd = .apply ∧
      t.bsq.stop = some { kind := .brake, cause := if (s.brake .sb).cmd = .release then .interlock else .door, x := s.ptr.x
                          vMeas := s.ptr.vMeas, check := .running (s.line.map LineFields.tCheck) } ∧
      t.brake .eb = s.brake .eb ∧ t.ptr = s.ptr ∧ t.lmu = s.lmu ∧ t.glm = s.glm ∧ t.ptb = s.ptb ∧ t.tally = s.tally := by
  obtain ⟨h, o, r, q, braked, stopping, reference, applied⟩ := faultMoving_brakes (n := 59) (c := c) (d := d) (s := s.toJudge c x)
    { way with } none_open
  have off_side : ∀ e (u : Side), (e, u) ≠ (c, d) → (s.setSide c d ((s.side c d).faulted .moving)).side e u = s.side e u :=
    fun e u away => side_setSide_other _ _ away
  have other_side := off_side c other fun same => shows.distinct (Prod.mk.inj same).2
  have other_car : ∀ e, (s.setSide c d ((s.side c d).faulted .moving)).side c.other e = s.side c.other e := fun e =>
    off_side c.other e fun same => by cases c <;> cases (Prod.mk.inj same).1
  let m : State := { s.setSide c d ((s.side c d).faulted .moving) with
    overrun := false, hac := h, osp := o, slp := q
    bsq := { s.bsq with
      recs := s.bsq.recs.set .sb r
      stop := some { kind := .brake, cause := if (s.brake .sb).cmd = .release then .interlock else .door, x := s.ptr.x
                     vMeas := s.ptr.vMeas, check := .running (s.line.map LineFields.tCheck) } } }
  have judged : judgeSide cascade s.moving c d (x.door d) (s.toJudge c x) = m.seen c x := by
    rw [moving_iff.2 way.trip.1, judgeSide_moving (by exact unlocked)]
    exact braked
  exact ⟨_, shows.ends judged rfl other_side rfl, side_setSide s c d _, other_side, other_car, stopping, reference, applied, rfl, rfl,
    rfl, rfl, rfl, rfl, rfl⟩

/-! ## The requests, the alarms and the doors together -/

/-- Settles O42: the requests by their handlers; a frame with an alarm by its watch, every side being proved; a frame that says something
of one side by the judging of that side, state by state while the line is HELD, and as a FAULT MOVING while it moves. -/
theorem alarmsAndDoorsFollowFrames : Obligations.AlarmsAndDoorsFollowFrames := by
  refine ⟨fun tag s listens => ⟨fun car unknown => ?_, fun c => ?_, fun dests => ?_, fun dests => ?_⟩,
    fun s c bytes x running next proven unmarked shows no_test => ?_,
    fun s c d other bytes x running next unmarked no_alarm distinct secured locked => ?_⟩
  · exact request_answers listens (h := handleAlarmClear car) (by rw [handleAlarmClear, carOf?_unknown unknown]; rfl) rfl
  · intro code
    obtain ⟨silent, shown, clears⟩ := alarmClear_answers (tag := tag) listens c
    refine ⟨silent, shown, fun x status calm unlatched => ?_, fun x status calm latched => ?_⟩
    · have cleared : clearAlarm c s.heard = s.heard := if_neg (by rw [show s.heard.car c = s.car c from rfl, unlatched]; decide)
      rw [clears x status calm, cleared, unlatched]
    · intro cleared report
      have clearing : clearAlarm c s.heard = reportAlarm (alarmReportOf cleared c) cleared := if_pos latched
      have reported : alarmReportOf cleared c = report := alarmReportOf_cleared (s := s.heard)
      rw [clears x status calm, clearing, reported, latched]
      rfl
  · exact ⟨_, request_answers listens (h := handleAlarmRouteSet dests) rfl rfl, rfl, rfl, rfl⟩
  · exact ⟨_, request_answers listens (h := handleAlarmRouteClear dests) rfl rfl, remove_route s.clu.route (routeOf dests)⟩
  · intro now latched report stopNow
    have ⟨runs, _, fresh, _⟩ := next
    have latched_runs : (latched.car c).running = true := (congrArg CarRec.running (car_setCar _ _ _)).trans runs
    refine ⟨fun latch => ?_, fun unlatched runs_on => ?_, fun unlatched stops_now drives moves empty cars_run grounded => ?_⟩
    · exact exec_carStatusFrame_watched running next proven unmarked (watchAlarm_latched (by rw [car_setCar]; exact latch)) runs rfl
    · obtain ⟨cars, clear⟩ := reportAlarm_leaves report latched
      exact exec_carStatusFrame_watched running next proven unmarked
        (watchAlarm_seen_reports (n := 63) (s := now) shows unlatched no_test fresh runs_on)
        ((congrArg CarRec.running (cars c)).trans latched_runs) clear
    · obtain ⟨q, watched⟩ := watchAlarm_seen_stops (n := 62) (s := now) shows unlatched no_test stops_now drives moves empty cars_run
        grounded
      exact ⟨_, exec_carStatusFrame_watched running next proven unmarked watched latched_runs rfl, rfl⟩
  · intro now r y becomes stays
    have alone : s.ShowsSide c d other bytes x := ⟨running, next, unmarked, no_alarm, distinct, secured, locked⟩
    refine ⟨fun held calm => ?_, fun trip empty no_test runs none_open not_warming unlocked => ?_⟩
    · obtain ⟨pending_waits, pending_opens⟩ := alone.pending held calm
      obtain ⟨released_waits, released_opens⟩ := alone.released held calm
      obtain ⟨open_waits, open_locks⟩ := alone.opened held calm
      obtain ⟨closing_proved, closing_retries, closing_stuck, closing_waits⟩ := alone.closing held calm
      obtain ⟨locked, late_ack, unlocked, late_open, opened⟩ := alone.secures held calm
      obtain ⟨proved, unproved⟩ := alone.unproven held calm
      refine ⟨pending_waits, pending_opens, fun state ack => ?_, released_waits, released_opens, open_waits, open_locks, closing_proved,
        closing_retries, closing_stuck, closing_waits, locked, late_ack, unlocked, late_open, opened, proved, unproved,
        fun state => alone.stays held (judgeSide_fault state)⟩
      intro onStop terminal opens
      obtain ⟨t, ends, side, other_side, other_car, marks, tally, other_tally, windows, rest⟩ := alone.acknowledged held calm state ack
      refine ⟨t, ends, side, other_side, other_car, ?_, ?_, other_tally, windows, rest⟩
      · rw [marks, tally]
        exact corrected_clears
      · rw [marks, tally]
        exact corrected_keeps
    · exact alone.moves ⟨not_idle_of_trip trip, empty, no_test, runs, not_warming⟩ none_open
        (unlocked.imp_right fun ⟨state, fails, _⟩ => ⟨state, fails⟩)

end Sys2Proof.Machine
end

section
/-! SUPPORT. The timers of a door side, the release requests and DOOR_CLOSE. -/

namespace Sys2Proof.Machine

/-! ## A door side that takes a new record within a step (R107) -/

section
variable {c : Car} {d : Side} {r : DoorSide} {event : DoorEvent} {cause : Option DoorCause} {s : State}

/-- A side that neither leaves SECURED nor enters RELEASED on an undisturbed line is all that changes, with its report. -/
theorem cascade_sideTo_alone (calm : s.undisturbed) (unreleased : r.state ≠ .released)
    (stays : (s.side c d).state = .secured → r.state = .secured) :
    ∃ q, cascade (.sideTo c d r event cause) s = { s.setSide c d r with slp := q } := by
  obtain ⟨q, taken⟩ := sideTo_unreleased (n := 62) (c := c) (d := d) (event := event) (cause := cause) calm.1 unreleased
    (served_of_noneOpen calm.2.1)
  exact ⟨q, by rw [show cascade = run (62 + 2) from rfl, taken, State.haulageAfter, if_neg fun left => left.2 (stays left.1)]; rfl⟩

/-- A SECURED side that enters RELEASE_PENDING on an undisturbed line takes the reference to 0 (R37, R108). -/
theorem cascade_releases {kind : ReleaseKind} {stop : Option Nat} (calm : s.undisturbed) (secured : (s.side c d).state = .secured) :
    ∃ q, releaseSide cascade c d kind stop s =
      { s.referenceZero.setSide c d ((s.side c d).pending kind stop s.ackBound) with slp := q } := by
  obtain ⟨q, taken⟩ := sideTo_unreleased (n := 62) (c := c) (d := d) (r := (s.side c d).pending kind stop s.ackBound)
    (event := .releasePending) (cause := some kind.cause) calm.1 nofun (served_of_noneOpen calm.2.1)
  refine ⟨q, ?_⟩
  rw [releaseSide, show cascade = run (62 + 2) from rfl, taken, State.haulageAfter, if_pos ⟨secured, nofun⟩]
  rfl

end

/-! ## The timers of a side (R112, R117, R118) -/

section
variable {c : Car} {d : Side} {r : DoorSide} {s t : State} {q : Link}

/-- An expiry that gives a side a new record. -/
theorem expiry_becomes {f : State → State} (running : s.isRunning)
    (becomes : f { s with overrun := false } = { State.setSide { s with overrun := false } c d r with slp := q }) :
    ∃ t, whileRunning f s = .next t ∧ State.sameBut (State.setSide { s with overrun := false } c d r) t :=
  ⟨_, (whileRunning_next running (by rw [becomes]; rfl)).trans (congrArg _ becomes), rfl⟩

/-- An expiry whose timer is stopped has no effect (assumption log 7). -/
theorem expiry_stopped {f : State → State} {timer : Timer} (running : s.isRunning) (stopped : timer = none) :
    whileRunning (fun u => if timer.isSome then f u else u) s = .next { s with overrun := false } := by
  subst stopped
  exact whileRunning_next running rfl

variable (calm : s.undisturbed)
include calm

theorem ackExpired_secures (pending : (s.side c d).state = .releasePending) :
    ∃ q, ackExpired cascade c d s = { s.setSide c d (s.side c d).secured with slp := q } := by
  rw [ackExpired, if_pos (beq_iff_eq.2 pending)]
  exact cascade_sideTo_alone calm nofun fun _ => rfl

theorem closeExpired_waits (closing : (s.side c d).state = .closing) (left : (s.side c d).retries < 3) :
    ∃ q, closeExpired cascade c d s = { s.setSide c d { s.side c d with
      state := .opened, closeTimer := none, retryTimer := s.retryBound } with slp := q } := by
  rw [closeExpired, if_pos (beq_iff_eq.2 closing), attemptFailed, if_pos left]
  exact cascade_sideTo_alone calm nofun fun secured => nomatch closing.symm.trans secured

theorem closeExpired_sticks (closing : (s.side c d).state = .closing) (spent : 3 ≤ (s.side c d).retries) :
    ∃ q, closeExpired cascade c d s = { s.setSide c d ((s.side c d).faulted .stuck) with slp := q } := by
  rw [closeExpired, if_pos (beq_iff_eq.2 closing), attemptFailed, if_neg (Nat.not_lt.2 spent)]
  exact cascade_sideTo_alone calm nofun fun secured => nomatch closing.symm.trans secured

theorem retryExpired_closes (waiting : (s.side c d).state = .opened ∨ (s.side c d).state = .released) :
    ∃ q, retryExpired cascade c d s = { s.setSide c d { s.side c d with
      state := .closing, retries := (s.side c d).retries + 1, retryTimer := none, closeTimer := s.closeBound } with slp := q } := by
  rw [retryExpired, if_pos (by simpa using waiting)]
  exact cascade_sideTo_alone calm nofun fun secured => by rw [secured] at waiting; simp at waiting

end

/-- Settles O43: each timer that runs gives its side the record of its rule, one that is stopped nothing. -/
theorem doorTimersAct : Obligations.DoorTimersAct := by
  intro c d s running calm r now
  have calm : now.undisturbed := calm
  refine ⟨fun runs pending => ?_, expiry_stopped running, fun runs closing left => ?_, fun runs closing spent => ?_,
    expiry_stopped running, fun runs waiting => ?_, expiry_stopped running⟩
  · obtain ⟨q, becomes⟩ := ackExpired_secures (s := now) calm pending
    exact expiry_becomes running ((if_pos runs).trans becomes)
  · obtain ⟨q, becomes⟩ := closeExpired_waits (s := now) calm closing left
    exact expiry_becomes running ((if_pos runs).trans becomes)
  · obtain ⟨q, becomes⟩ := closeExpired_sticks (s := now) calm closing spent
    exact expiry_becomes running ((if_pos runs).trans becomes)
  · obtain ⟨q, becomes⟩ := retryExpired_closes (s := now) calm waiting
    exact expiry_becomes running ((if_pos runs).trans becomes)

/-! ## Requests that name a side (R110, R111, R116) -/

theorem sideOf?_code (d : Side) : sideOf? (if d = .left then 0 else 1) = some d := by cases d <;> rfl

theorem sideOf?_unknown {n : Nat} (unknown : 1 < n) : sideOf? n = none := by
  obtain ⟨m, rfl⟩ := Nat.exists_eq_add_of_le' unknown
  rfl

section
variable {c : Car} {d : Side} {s : State} {f : Car → Side → Handler}

theorem withSide_code (c : Car) (d : Side) :
    withSide (if c = .a then 0 else 1) (if d = .left then 0 else 1) f s = f c d s := by
  simp only [withSide, carOf?_code, sideOf?_code]

theorem withSide_noCar {car side : Nat} (unknown : 1 < car) : withSide car side f s = (s, badField 0) := by
  simp only [withSide, carOf?_unknown unknown]

theorem withSide_noSide {car side : Nat} (known : car ≤ 1) (unknown : 1 < side) : withSide car side f s = (s, badField 1) := by
  interval_cases car <;> simp only [withSide, carOf?, sideOf?_unknown unknown]

theorem handleDoorRelease_code : handleDoorRelease (if c = .a then 0 else 1) (if d = .left then 0 else 1) s =
    if s.releaseReasons c d = [] then releaseAnswer c d .manual s.hac.berth.stop s
    else (s, .refused .inhibited (.releaseReasons (s.releaseReasons c d))) := by
  rw [handleDoorRelease, withSide_code]
  split <;> rename_i reasons
  · rw [if_pos reasons]
  · rw [if_neg reasons]

theorem handleEvacRelease_code : handleEvacRelease (if c = .a then 0 else 1) (if d = .left then 0 else 1) s =
    if s.evacReasons c d = [] then releaseAnswer c d .evac none s
    else (s, .refused .inhibited (.evacReasons (s.evacReasons c d))) := by
  rw [handleEvacRelease, withSide_code]
  split <;> rename_i reasons
  · rw [if_pos reasons]
  · rw [if_neg reasons]

/-- A release request without a reason against it: a SECURED side is released, any other left (R110, R111). -/
theorem releaseAnswer_eq (c : Car) (d : Side) (kind : ReleaseKind) (stop : Option Nat) (s : State) :
    releaseAnswer c d kind stop s = if (s.side c d).state = .secured then
      (releaseSide cascade c d kind stop s, accept (.released true)) else (s, accept (.released false)) := by
  simp only [releaseAnswer, beq_iff_eq]

end

/-- Settles O44: the fields are examined, then the reasons, and a SECURED side with none against it is released. -/
theorem releaseRequestsAct : Obligations.ReleaseRequestsAct := by
  intro tag s listens calm after
  refine ⟨fun car side unknown => ⟨?_, ?_⟩, fun car side known unknown => ⟨?_, ?_⟩, fun c d => ?_⟩
  · exact request_answers listens (h := handleDoorRelease car side) (withSide_noCar unknown) rfl
  · exact request_answers listens (h := handleEvacRelease car side) (withSide_noCar unknown) rfl
  · exact request_answers listens (h := handleDoorRelease car side) (withSide_noSide known unknown) rfl
  · exact request_answers listens (h := handleEvacRelease car side) (withSide_noSide known unknown) rfl
  have calm : s.heard.undisturbed := calm
  intro cc dd
  have left : ∀ kind stop, (s.side c d).state ≠ .secured →
      releaseAnswer c d kind stop s.heard = (s.heard, accept (.released false)) := fun kind stop unsecured =>
    (releaseAnswer_eq c d kind stop s.heard).trans (if_neg unsecured)
  have released : ∀ kind stop, (s.side c d).state = .secured → ∃ q,
      releaseAnswer c d kind stop s.heard = ({ after c d kind stop with slp := q }, accept (.released true)) := by
    intro kind stop secured
    obtain ⟨q, releases⟩ := cascade_releases (kind := kind) (stop := stop) (s := s.heard) calm secured
    exact ⟨q, (releaseAnswer_eq c d kind stop s.heard).trans ((if_pos secured).trans (congrArg (·, _) releases))⟩
  refine ⟨fun reasons => ?_, fun unbarred unsecured => ?_, fun unbarred secured => ?_, fun reasons => ?_, fun unbarred unsecured => ?_,
    fun unbarred secured => ?_⟩
  · exact request_answers listens (handleDoorRelease_code.trans (if_neg reasons)) rfl
  · exact request_answers listens (handleDoorRelease_code.trans ((if_pos unbarred).trans (left _ _ unsecured))) rfl
  · obtain ⟨q, releases⟩ := released .manual s.hac.berth.stop secured
    exact ⟨_, request_answers listens (handleDoorRelease_code.trans ((if_pos unbarred).trans releases)) rfl, rfl⟩
  · exact request_answers listens (handleEvacRelease_code.trans (if_neg reasons)) rfl
  · exact request_answers listens (handleEvacRelease_code.trans ((if_pos unbarred).trans (left _ _ unsecured))) rfl
  · obtain ⟨q, releases⟩ := released .evac none secured
    exact ⟨_, request_answers listens (handleEvacRelease_code.trans ((if_pos unbarred).trans releases)) rfl, rfl⟩

/-! ## DOOR_CLOSE (R115, R116) -/

section
variable {c : Car} {d : Side} {s : State}

/-- The record of a side that DOOR_CLOSE takes into CLOSING, with the mark that tells a cleared FAULT (R116). -/
def State.closingBy (s : State) (c : Car) (d : Side) (mark : Bool) : DoorSide :=
  { (s.side c d).closing s.closeBound with clearing := mark }

/-- An answer to DOOR_CLOSE that gives the side a new record, and its state. -/
def closesTo (c : Car) (d : Side) (r : DoorSide) (s : State) (o : State × Answer) : Prop :=
  ∃ q, o = ({ s.setSide c d r with slp := q }, accept (.doorState r.state))

theorem closeAnswer_closes (calm : s.undisturbed) (unsecured : (s.side c d).state ≠ .secured) (mark : Bool) :
    closesTo c d (s.closingBy c d (mark || (s.side c d).clearing)) s (closeAnswer c d mark s) := by
  obtain ⟨q, closes⟩ := cascade_sideTo_alone (c := c) (d := d) (r := s.closingBy c d (mark || (s.side c d).clearing))
    (event := .closing) (cause := some .closeOrder) calm nofun fun secured => absurd secured unsecured
  refine ⟨q, ?_⟩
  have closed : cascade (.sideTo c d { (s.side c d).closing s.closeBound with
      clearing := mark || ((s.side c d).closing s.closeBound).clearing } .closing (some .closeOrder)) s = _ := closes
  rw [closeAnswer]
  dsimp only
  rw [closed, show State.side { s.setSide c d _ with slp := q } c d = _ from side_setSide s c d _]

/-- The last status of a car proves its side (R106, R116). -/
abbrev State.showsProven (s : State) (c : Car) (d : Side) : Prop :=
  ∃ x, (s.car c).status = some x ∧ (x.door d).leaf = .locked ∧ (x.door d).ack = false

theorem status_proves_iff : (s.car c).status.any (fun x => (x.door d).proves) = true ↔ s.showsProven c d := by
  simp only [Option.any_eq_true, proves_iff]

theorem closeFaulted_stale (stale : s.isFresh c = false) : closeFaulted c d s = (s, .refused .inhibited (.door false)) := by
  rw [closeFaulted, stale]
  rfl

theorem closeFaulted_proven (calm : s.undisturbed) (fresh : s.isFresh c = true) (proven : s.showsProven c d) :
    closesTo c d (s.side c d).secured s (closeFaulted c d s) := by
  obtain ⟨q, secures⟩ := cascade_sideTo_alone (c := c) (d := d) (r := (s.side c d).secured) (event := .secured)
    (cause := some .faultCleared) calm nofun fun _ => rfl
  refine ⟨q, ?_⟩
  rw [closeFaulted, if_neg (by rw [fresh]; decide), if_pos (status_proves_iff.2 proven)]
  dsimp only
  rw [secures, show State.side { s.setSide c d _ with slp := q } c d = _ from side_setSide s c d _]

theorem closeFaulted_unproven (fresh : s.isFresh c = true) (unproven : ¬s.showsProven c d) : closeFaulted c d s =
    if s.hac.state = .held then closeAnswer c d true s else (s, .refused .inhibited (.door true)) := by
  rw [closeFaulted, if_neg (by rw [fresh]; decide), if_neg (fun shows => unproven (status_proves_iff.1 shows)), State.isHeld]
  simp only [beq_iff_eq]

section
variable {side : Nat × Nat} (names : side = (if c = .a then 0 else 1, if d = .left then 0 else 1))
include names

theorem handleDoorClose_stays (state : (s.side c d).state = .secured ∨ (s.side c d).state = .closing) :
    handleDoorClose side.1 side.2 s = (s, accept (.doorState (s.side c d).state)) := by
  subst names
  rw [handleDoorClose, withSide_code]
  rcases state with state | state <;> simp only [state]

theorem handleDoorClose_released
    (state : (s.side c d).state = .releasePending ∨ (s.side c d).state = .released ∨ (s.side c d).state = .opened) :
    handleDoorClose side.1 side.2 s = closeAnswer c d false s := by
  subst names
  rw [handleDoorClose, withSide_code]
  rcases state with state | state | state <;> simp only [state]

theorem handleDoorClose_unproven (state : (s.side c d).state = .unproven) : handleDoorClose side.1 side.2 s =
    if s.isFresh c then closeAnswer c d false s else (s, .refused .inhibited (.door false)) := by
  subst names
  rw [handleDoorClose, withSide_code]
  simp only [state]

theorem handleDoorClose_fault (state : (s.side c d).state = .fault) :
    handleDoorClose side.1 side.2 s = closeFaulted c d s := by
  subst names
  rw [handleDoorClose, withSide_code]
  simp only [state]

end

end

/-- Settles O45: one case of the handler for each state of the side. -/
theorem doorCloseByState : Obligations.DoorCloseByState := by
  intro tag c d s listens calm r cmd proven refused stays becomes closing
  have calm : s.heard.undisturbed := calm
  generalize names : (if c = .a then 0 else 1, if d = .left then 0 else 1) = side at cmd
  have names := names.symm
  have answers : ∀ {u : State} {a : Answer}, handleDoorClose side.1 side.2 s.heard = (u, a) → u.overrun = false →
      exec cmd s = .next (u.replied tag .doorClose a) := by
    subst names
    exact fun e clear => request_answers listens e clear
  have becomes_of : ∀ {r'}, closesTo c d r' s.heard (handleDoorClose side.1 side.2 s.heard) → becomes r' := by
    rintro r' ⟨q, closes⟩
    exact ⟨_, answers closes rfl, rfl⟩
  have closes : ∀ mark, r.state ≠ .secured →
      closesTo c d (closing (mark || r.clearing)) s.heard (closeAnswer c d mark s.heard) :=
    fun mark unsecured => closeAnswer_closes calm unsecured mark
  refine ⟨fun state => ?_, fun state => ?_, fun state fresh => ?_, ?_, fun state fresh shows => ?_,
    fun state fresh hides held => ?_, fun state fresh hides moves => ?_⟩
  · exact answers (handleDoorClose_stays (s := s.heard) names state) rfl
  · refine becomes_of ?_
    rw [handleDoorClose_released (s := s.heard) names state]
    exact closes false (by rcases state with e | e | e <;> rw [e] <;> decide)
  · refine becomes_of ?_
    rw [handleDoorClose_unproven (s := s.heard) names state, if_pos (show s.heard.isFresh c = true from fresh)]
    exact closes false (by rw [state]; decide)
  · rintro (state | state) stale
    · exact answers ((handleDoorClose_unproven (s := s.heard) names state).trans (if_neg (by rw [show s.heard.isFresh c = false from stale]; decide))) rfl
    · exact answers ((handleDoorClose_fault (s := s.heard) names state).trans (closeFaulted_stale (s := s.heard) stale)) rfl
  · refine becomes_of ?_
    rw [handleDoorClose_fault (s := s.heard) names state]
    exact closeFaulted_proven calm fresh shows
  · refine becomes_of ?_
    rw [handleDoorClose_fault (s := s.heard) names state, closeFaulted_unproven (s := s.heard) fresh hides, if_pos (show s.heard.hac.state = .held from held)]
    exact closes true (by rw [state]; decide)
  · exact answers ((handleDoorClose_fault (s := s.heard) names state).trans
      ((closeFaulted_unproven (s := s.heard) fresh hides).trans (if_neg moves))) rfl

end Sys2Proof.Machine
end

section
/-! SUPPORT. The laws of boarding and release, and Tends: what an operation within a step may do to what they rest on. -/

namespace Sys2Proof.Machine

/-! ## The laws, window by window and side by side (R108, R149, R159, R168) -/

/-- A side waits for its acknowledgement. -/
abbrev State.waits (s : State) (c : Car) (d : Side) : Prop := (s.side c d).state = .releasePending

/-- The line is at rest as a release asks for it (R108). -/
abbrev State.rests (s : State) : Prop :=
  s.hac.state = .held ∧ (s.brake .sb).state = .applied ∧ s.ptr.standstill = true

/-- The line stands at a stop. -/
abbrev State.atStop (s : State) : Prop := s.hac.state = .held ∧ s.hac.berth.stop.isSome = true

/-- The modes in which sides are released at a stop (R109, R110). -/
abbrev Mode.carries (m : Mode) : Prop := m = .service ∨ m = .reduced

/-- The modes in which a window may be OPEN or SEALING whatever else holds. -/
abbrev Mode.boards (m : Mode) : Prop := m.carries ∨ m = .maintenance ∨ m = .tripped

/-- Where a window may be OPEN or SEALING (R148, R149, R168). -/
abbrev State.windowPlaced (s : State) (g : Group) : Prop :=
  (s.window g).busy = true → s.hac.state = .held ∧ s.hac.berth.stop.isSome = true ∧ s.lmu.mode ≠ .init ∧
    s.lmu.mode ≠ .parked ∧ s.lmu.mode ≠ .warming ∧ (s.lmu.mode = .evacuation → s.bsq.latch.isSome = true)

/-- Where a side of a release kind may wait for its acknowledgement (R108 to R111). -/
abbrev State.releasable (s : State) (kind : Option ReleaseKind) : Prop :=
  (s.lmu.mode.carries ∧ s.atStop) ∨ (s.lmu.mode = .evacuation ∧ kind = some .evac)

/-- A side waits only where it may. -/
abbrev State.waitAllowed (s : State) (c : Car) (d : Side) : Prop := s.waits c d → s.releasable (s.side c d).kind

/-- TRIPPED comes with the latch. -/
abbrev State.tripLatched (s : State) : Prop := s.lmu.mode = .tripped → s.bsq.latch.isSome = true

/-- A brake test runs with the haulage HELD. -/
abbrev State.testHeld (s : State) : Prop := s.bsq.test.isSome = true → s.hac.state = .held

theorem boardingLaw_iff {s : State} : s.boardingLaw ↔
    (∀ g, s.windowPlaced g) ∧ (∀ c d, s.waitAllowed c d) ∧ s.tripLatched ∧ s.testHeld := Iff.rfl

/-- A gate record as the law of gates and windows asks it (R143, R149, R152, R153). -/
abbrev State.fits (s : State) (g : GateRec) : Prop :=
  (g.state = .ready → (s.window g.group).state = .opened) ∧ (g.queryTimer.isSome = true → g.state = .query) ∧
    ∀ a ∈ g.admission, g.state = .passing ∧ 1 ≤ a.pending ∧ (s.window g.group).busy = true ∧ (s.window g.group).car = some a.car

/-- The laws of the gate list, the Pass Table, the gates with their windows, and the seats. -/
structure State.gatesOk (s : State) : Prop where
  list : s.glm.law
  table : s.ptb.law
  windows : ∀ g ∈ s.glm.gates, s.fits g
  seats : s.seatLaw

/-- The verdict of the gate at an address is ADMIT with k. -/
abbrev State.admits (s : State) (a k : Nat) : Prop := ∃ g, s.gate? a = some g ∧ g.verdict = some (.entry k)

/-! ## What an operation may do -/

/-- What is asked of an operation beside the laws: it keeps the mode of a line that carries passengers, it makes no side wait, and it
opens no window. -/
structure Frame where
  keepsMode : Bool
  addsNoWait : Bool
  opensNone : Bool

/-- What an operation may do to the laws of boarding and to what they rest on. -/
structure Tends.Core (f : Frame) (s t : State) : Prop where
  gates : s.gatesOk → t.gatesOk
  placed : ∀ g, s.windowPlaced g → t.windowPlaced g
  allowed : ∀ c d, s.waitAllowed c d → t.waitAllowed c d
  trip : s.tripLatched → t.tripLatched
  test : s.testHeld → t.testHeld
  admits : s.gatesOk → ∀ a k, t.admits a k → s.admits a k
  rests : ∀ c d, t.waits c d → (s.waits c d → s.rests) → t.rests
  held : s.hac.state = .held → t.hac.state = .held
  atStop : s.atStop → t.atStop
  boards : s.lmu.mode.boards → t.lmu.mode.boards
  mode : f.keepsMode = true → s.lmu.mode.carries → t.lmu.mode = s.lmu.mode
  wait : f.addsNoWait = true → s.hac.state ≠ .berthing → t.hac.state ≠ .berthing ∧ ∀ c d, t.waits c d → s.waits c d
  opened : f.addsNoWait = true → f.opensNone = true → s.hac.state ≠ .berthing → (∀ c d, ¬s.waits c d) →
    ∀ g, (t.window g).busy = true → (s.window g).busy = true

/-- The same of an operation that may go deeper than the model follows, of which nothing is then asked (assumption log 3). -/
structure Tends (f : Frame) (s t : State) : Prop where
  overrun : s.overrun = true → t.overrun = true
  core : t.overrun = false → Tends.Core f s t

section
variable {f : Frame} {s t u : State}

theorem Tends.clear (h : Tends f s t) (clear : t.overrun = false) : s.overrun = false := by
  cases o : s.overrun
  · rfl
  · exact nomatch clear.symm.trans (h.overrun o)

theorem Tends.Core.trans (h : Tends.Core f s t) (i : Tends.Core f t u) : Tends.Core f s u where
  gates ok := i.gates (h.gates ok)
  placed g p := i.placed g (h.placed g p)
  allowed c d p := i.allowed c d (h.allowed c d p)
  trip p := i.trip (h.trip p)
  test p := i.test (h.test p)
  admits ok a k p := h.admits ok a k (i.admits (h.gates ok) a k p)
  rests c d w r := i.rests c d w (fun v => h.rests c d v r)
  held p := i.held (h.held p)
  atStop p := i.atStop (h.atStop p)
  boards p := i.boards (h.boards p)
  mode m c := by
    have first := h.mode m c
    exact (i.mode m (by rw [first]; exact c)).trans first
  wait q b := ⟨(i.wait q (h.wait q b).1).1, fun c d w => (h.wait q b).2 c d ((i.wait q (h.wait q b).1).2 c d w)⟩
  opened q o b n g busy := h.opened q o b n g
    (i.opened q o (h.wait q b).1 (fun c d w => n c d ((h.wait q b).2 c d w)) g busy)

theorem Tends.trans (h : Tends f s t) (i : Tends f t u) : Tends f s u :=
  ⟨fun o => i.overrun (h.overrun o), fun clear => (h.core (i.clear clear)).trans (i.core clear)⟩

/-- Two operations, the second of which asks something of the state it finds. -/
theorem Tends.then (h : Tends f s t) (i : (t.overrun = false → Tends.Core f s t) → Tends f t u) : Tends f s u :=
  h.trans (i h.core)

/-- What goes too deep says nothing. -/
theorem Tends.deep (s : State) : Tends f s { s with overrun := true } := ⟨fun _ => rfl, fun clear => nomatch clear⟩

/-! ## Operations of one block -/

/-- Two states alike in all that the laws of boarding rest on. -/
structure State.alike (s t : State) : Prop where
  list : s.glm.law → t.glm.law
  gates : t.glm.gates = s.glm.gates
  windows : t.glm.windows = s.glm.windows
  table : t.ptb = s.ptb
  tally : t.tally = s.tally
  line : t.line = s.line
  sides : ∀ c d, (t.side c d).state = (s.side c d).state ∧ (t.side c d).kind = (s.side c d).kind
  state : t.hac.state = s.hac.state
  berth : t.hac.berth = s.hac.berth
  mode : t.lmu.mode = s.lmu.mode
  latch : t.bsq.latch = s.bsq.latch
  test : t.bsq.test.isSome = s.bsq.test.isSome
  brake : (t.brake .sb).state = (s.brake .sb).state
  still : t.ptr.standstill = s.ptr.standstill
  overrun : t.overrun = s.overrun

/-- The law of the gates, the seats and the table speaks of the gate loop, the tallies, the table and the parameters. -/
theorem gatesOk_of_eq (list : s.glm.law → t.glm.law) (gates : t.glm.gates = s.glm.gates) (windows : t.glm.windows = s.glm.windows)
    (table : t.ptb = s.ptb) (tally : t.tally = s.tally) (line : t.line = s.line) (ok : s.gatesOk) : t.gatesOk where
  list := list ok.list
  table := table ▸ ok.table
  windows g member := by
    have fits := ok.windows g (gates ▸ member)
    simpa only [State.fits, State.window, windows] using fits
  seats := by
    have seats := ok.seats
    simpa only [State.seatLaw, State.tallyOf, State.pendingFor, State.capacity, State.param, gates, tally, line] using seats

theorem Tends.of_alike (h : s.alike t) : Tends f s t where
  overrun o := h.overrun.trans o
  core _ := by
    obtain ⟨list, gates, windows, table, tally, line, sides, state, berth, mode, latch, test, brake, still, -⟩ := h
    exact {
      gates := gatesOk_of_eq list gates windows table tally line
      placed := fun g => by simp only [State.windowPlaced, State.window, windows, state, berth, mode, latch]; exact id
      allowed := fun c d => by simp only [State.waitAllowed, State.waits, sides, State.releasable, State.atStop, state, berth, mode]; exact id
      trip := by simp only [State.tripLatched, mode, latch]; exact id
      test := by simp only [State.testHeld, test, state]; exact id
      admits := fun _ a k => by simp only [State.admits, State.gate?, gates]; exact id
      rests := fun c d => by simp only [State.waits, State.rests, sides, state, brake, still]; exact fun w r => r w
      held := by rw [state]; exact id
      atStop := by simp only [State.atStop, state, berth]; exact id
      boards := by rw [mode]; exact id
      mode := fun _ _ => mode
      wait := fun _ b => ⟨by rw [state]; exact b, fun c d => by simp only [State.waits, sides]; exact id⟩
      opened := fun _ _ _ _ g => by simp only [State.window, windows]; exact id }

theorem Tends.refl (s : State) : Tends f s s :=
  .of_alike ⟨id, rfl, rfl, rfl, rfl, rfl, fun _ _ => ⟨rfl, rfl⟩, rfl, rfl, rfl, rfl, rfl, rfl, rfl, rfl⟩

/-- A change of what no law of boarding speaks of: the tracker but for the standstill flag, the supervisor, the car links, the link and
the tables of the track. -/
theorem Tends.beside (p : Tracker) (o : Supervisor) (c : CarLinks) (l : Link) (segs : List Segment) (stops : List StopRec)
    (markers : List Marker) (pending : List Instr) (still : p.standstill = s.ptr.standstill) :
    Tends f s { s with ptr := p, osp := o, clu := c, slp := l, segs := segs, stops := stops, markers := markers, pending := pending } :=
  .of_alike ⟨id, rfl, rfl, rfl, rfl, rfl, fun _ _ => ⟨rfl, rfl⟩, rfl, rfl, rfl, rfl, rfl, rfl, still, rfl⟩

theorem Tends.post (r : Report) (s : State) : Tends f s (Machine.post r s) := by
  rw [post_eq]
  exact .beside s.ptr s.osp s.clu _ s.segs s.stops s.markers s.pending rfl

theorem Tends.setCar (s : State) (c : Car) (r : CarRec) : Tends f s (s.setCar c r) :=
  .beside s.ptr s.osp _ s.slp s.segs s.stops s.markers s.pending rfl

theorem Tends.track (s : State) (p : Tracker) (still : p.standstill = s.ptr.standstill) : Tends f s { s with ptr := p } :=
  .beside p s.osp s.clu s.slp s.segs s.stops s.markers s.pending still

theorem Tends.link (s : State) (l : Link) : Tends f s { s with slp := l } :=
  .beside s.ptr s.osp s.clu l s.segs s.stops s.markers s.pending rfl

theorem Tends.supervisor (s : State) (o : Supervisor) : Tends f s { s with osp := o } :=
  .beside s.ptr o s.clu s.slp s.segs s.stops s.markers s.pending rfl

/-- A change of the Line Mode Unit that keeps the mode. -/
theorem Tends.modeRest (s : State) (l : LineMode) (mode : l.mode = s.lmu.mode) : Tends f s { s with lmu := l } :=
  .of_alike ⟨id, rfl, rfl, rfl, rfl, rfl, fun _ _ => ⟨rfl, rfl⟩, rfl, rfl, mode, rfl, rfl, rfl, rfl, rfl⟩

/-- A change of the Brake Sequencer that keeps the latch, the state of SB and whether a test runs. -/
theorem Tends.brakesRest (s : State) (b : Brakes) (latch : b.latch = s.bsq.latch) (test : b.test.isSome = s.bsq.test.isSome)
    (brake : b.recs.sb.state = s.bsq.recs.sb.state) : Tends f s { s with bsq := b } :=
  .of_alike ⟨id, rfl, rfl, rfl, rfl, rfl, fun _ _ => ⟨rfl, rfl⟩, rfl, rfl, rfl, latch, test, brake, rfl, rfl⟩

/-- A change of the Haulage Controller that keeps its state and its berth record. -/
theorem Tends.haulRest (s : State) (h : Haulage) (state : h.state = s.hac.state) (berth : h.berth = s.hac.berth) :
    Tends f s { s with hac := h } :=
  .of_alike ⟨id, rfl, rfl, rfl, rfl, rfl, fun _ _ => ⟨rfl, rfl⟩, state, berth, rfl, rfl, rfl, rfl, rfl, rfl⟩

/-- A change of the Door Release Unit that keeps the state and the kind of every side. -/
theorem Tends.doorsRest (s : State) (d : Doors)
    (sides : ∀ c x, ((d.sides.get c).get x).state = (s.side c x).state ∧ ((d.sides.get c).get x).kind = (s.side c x).kind) :
    Tends f s { s with dru := d } :=
  .of_alike ⟨id, rfl, rfl, rfl, rfl, rfl, sides, rfl, rfl, rfl, rfl, rfl, rfl, rfl, rfl⟩

/-- A change of the gate loop that keeps its law, its gates and its windows. -/
theorem Tends.loopRest (s : State) (l : GateLoop) (law : s.glm.law → l.law) (gates : l.gates = s.glm.gates)
    (windows : l.windows = s.glm.windows) : Tends f s { s with glm := l } :=
  .of_alike ⟨law, gates, windows, rfl, rfl, rfl, fun _ _ => ⟨rfl, rfl⟩, rfl, rfl, rfl, rfl, rfl, rfl, rfl, rfl⟩

/-- A change of the gates, the windows, the tallies and the table under their laws, by which no window becomes OPEN or SEALING and no
gate is given an ADMIT verdict. -/
theorem Tends.boarding (s : State) (l : GateLoop) (tally : PerCar Tally) (ptb : PassTable)
    (ok : s.gatesOk → State.gatesOk { s with glm := l, tally := tally, ptb := ptb })
    (busy : ∀ g, (l.windows.get g).busy = true → (s.window g).busy = true)
    (admits : s.gatesOk → ∀ a k, State.admits { s with glm := l, tally := tally, ptb := ptb } a k → s.admits a k) :
    Tends f s { s with glm := l, tally := tally, ptb := ptb } where
  overrun := id
  core _ := {
    gates := ok
    placed := fun g placed opened => placed (busy g opened)
    allowed := fun _ _ => id
    trip := id
    test := id
    admits := admits
    rests := fun _ _ w r => r w
    held := id
    atStop := id
    boards := id
    mode := fun _ _ => rfl
    wait := fun _ b => ⟨b, fun _ _ => id⟩
    opened := fun _ _ _ _ => busy }

/-- A side takes a record in which it does not wait. -/
theorem Tends.setSide (s : State) (c : Car) (d : Side) (r : DoorSide) (unwaiting : r.state ≠ .releasePending) :
    Tends f s (s.setSide c d r) where
  overrun := id
  core _ := by
    have waits : ∀ e x, (s.setSide c d r).waits e x → (s.setSide c d r).side e x = s.side e x := by
      intro e x waits
      by_cases same : (e, x) = (c, d)
      · cases same
        rw [State.waits, side_setSide] at waits
        exact absurd waits unwaiting
      · exact side_setSide_other s r same
    exact {
      gates := gatesOk_of_eq id rfl rfl rfl rfl rfl
      placed := fun _ => id
      allowed := fun e x allowed w => by
        have same := waits e x w
        rw [State.waits, same] at w
        rw [same]
        exact allowed w
      trip := id
      test := id
      admits := fun _ _ _ => id
      rests := fun e x w r => r (by rw [State.waits, ← waits e x w]; exact w)
      held := id
      atStop := id
      boards := id
      mode := fun _ _ => rfl
      wait := fun _ b => ⟨b, fun e x w => by rw [State.waits, ← waits e x w]; exact w⟩
      opened := fun _ _ _ _ _ => id }

/-- A side begins to wait on a line at rest, where it may (R108). -/
theorem Tends.setSideWaits (s : State) (c : Car) (d : Side) (r : DoorSide) (may : s.overrun = false → s.rests ∧ s.releasable r.kind)
    (adds : f.addsNoWait = false) : Tends f s (s.setSide c d r) where
  overrun := id
  core clear := by
    obtain ⟨rests, releasable⟩ := may clear
    exact {
      gates := gatesOk_of_eq id rfl rfl rfl rfl rfl
      placed := fun _ => id
      allowed := fun e x allowed w => by
        by_cases same : (e, x) = (c, d)
        · cases same
          rw [side_setSide]
          exact releasable
        · have kept := side_setSide_other s r same
          rw [State.waits, kept] at w
          rw [kept]
          exact allowed w
      trip := id
      test := id
      admits := fun _ _ _ => id
      rests := fun _ _ _ _ => rests
      held := id
      atStop := id
      boards := id
      mode := fun _ _ => rfl
      wait := fun q => nomatch adds.symm.trans q
      opened := fun q => nomatch adds.symm.trans q }

/-- The Haulage Controller of a line that moves takes any record; one that berths makes no other berth (R25). -/
theorem Tends.haulMoving (s : State) (h : Haulage) (o : Supervisor) (cleared : PerCar Bool) (moving : s.hac.state ≠ .held)
    (berthing : f.addsNoWait = true → h.state = .berthing → s.hac.state = .berthing) :
    Tends f s { s with hac := h, osp := o, dru := { s.dru with cleared := cleared } } where
  overrun := id
  core _ := {
    gates := gatesOk_of_eq id rfl rfl rfl rfl rfl
    placed := fun _ placed busy => absurd (placed busy).1 moving
    allowed := fun _ _ allowed w => (allowed w).imp (fun ⟨_, held, _⟩ => absurd held moving) id
    trip := id
    test := fun held runs => absurd (held runs) moving
    admits := fun _ _ _ => id
    rests := fun _ _ w r => absurd (r w).1 moving
    held := fun held => absurd held moving
    atStop := fun stands => absurd stands.1 moving
    boards := id
    mode := fun _ _ => rfl
    wait := fun q b => ⟨fun e => b (berthing q e), fun _ _ => id⟩
    opened := fun _ _ _ _ _ => id }

/-- A berth record at a stop. -/
theorem Tends.haulStop (s : State) (h : Haulage) (cleared : PerCar Bool) (state : h.state = s.hac.state)
    (berth : h.berth.stop.isSome = true) : Tends f s { s with hac := h, dru := { s.dru with cleared := cleared } } where
  overrun := id
  core _ := {
    gates := gatesOk_of_eq id rfl rfl rfl rfl rfl
    placed := fun _ placed busy => by
      obtain ⟨held, -, rest⟩ := placed busy
      exact ⟨state.trans held, berth, rest⟩
    allowed := fun _ _ allowed w => (allowed w).imp (fun ⟨carries, held, _⟩ => ⟨carries, state.trans held, berth⟩) id
    trip := id
    test := fun held runs => state.trans (held runs)
    admits := fun _ _ _ => id
    rests := fun _ _ w r => ⟨state.trans (r w).1, (r w).2⟩
    held := state.trans
    atStop := fun stands => ⟨state.trans stands.1, berth⟩
    boards := id
    mode := fun _ _ => rfl
    wait := fun _ b => ⟨by rw [show ({ s with hac := h, dru := _ } : State).hac.state = s.hac.state from state]; exact b, fun _ _ => id⟩
    opened := fun _ _ _ _ _ => id }

/-- A change of the Brake Sequencer that keeps the latch or sets it, starts no test, and leaves an APPLIED SB so while a side waits. -/
theorem Tends.brakes (s : State) (b : Brakes) (latch : s.bsq.latch.isSome = true → b.latch.isSome = true)
    (test : b.test.isSome = true → s.bsq.test.isSome = true)
    (brake : ∀ c d, s.waits c d → s.bsq.recs.sb.state = .applied → b.recs.sb.state = .applied) : Tends f s { s with bsq := b } where
  overrun := id
  core _ := {
    gates := gatesOk_of_eq id rfl rfl rfl rfl rfl
    placed := fun _ placed busy => by
      obtain ⟨held, stop, init, parked, warming, evacuation⟩ := placed busy
      exact ⟨held, stop, init, parked, warming, fun e => latch (evacuation e)⟩
    allowed := fun _ _ => id
    trip := fun trip e => latch (trip e)
    test := fun held runs => held (test runs)
    admits := fun _ _ _ => id
    rests := fun c d w r => ⟨(r w).1, brake c d w (r w).2.1, (r w).2.2⟩
    held := id
    atStop := id
    boards := id
    mode := fun _ _ => rfl
    wait := fun _ b => ⟨b, fun _ _ => id⟩
    opened := fun _ _ _ _ _ => id }

/-! ## Frames -/

/-- An operation on a line that does not carry passengers keeps no mode of one that does. -/
theorem Tends.of_uncarrying (h : Tends { f with keepsMode := false } s t) (mode : ¬s.lmu.mode.carries) : Tends f s t :=
  ⟨h.overrun, fun clear => { h.core clear with mode := fun _ carries => absurd carries mode }⟩

/-- An operation on a line that berths may make sides wait. -/
theorem Tends.of_berthing (h : Tends { f with addsNoWait := false } s t) (berthing : s.hac.state = .berthing) : Tends f s t :=
  ⟨h.overrun, fun clear => { h.core clear with
    wait := fun _ b => absurd berthing b
    opened := fun _ _ b => absurd berthing b }⟩

/-- An operation on a line with a side that waits may open a window. -/
theorem Tends.of_waiting {c : Car} {d : Side} (h : Tends { f with opensNone := false } s t) (waits : s.waits c d) : Tends f s t :=
  ⟨h.overrun, fun clear => { h.core clear with opened := fun _ _ _ none => absurd waits (none c d) }⟩

/-! ## Compositions -/

theorem Tends.ite {c : Bool} (h : c = true → Tends f s t) (g : c = false → Tends f s u) : Tends f s (if c = true then t else u) := by
  cases c
  · exact g rfl
  · exact h rfl

/-- An operation for each element of a list. -/
theorem Tends.forEach {α : Type} (l : List α) (step : α → State → State) (h : ∀ a s, Tends f s (step a s)) (s : State) :
    Tends f s (Machine.forEach l step s) := by
  unfold Machine.forEach
  induction l generalizing s with
  | nil => exact .refl s
  | cons a l ih => exact .trans (h a s) (ih _)

/-- An operation for each element of a list, while a property holds that each keeps. -/
theorem Tends.forEachKeeping {α : Type} (P : State → Prop) (l : List α) (step : α → State → State)
    (h : ∀ a s, (s.overrun = false → P s) → Tends f s (step a s)) (keeps : ∀ {s t}, Tends.Core f s t → P s → P t) (s : State)
    (holds : s.overrun = false → P s) : Tends f s (Machine.forEach l step s) := by
  unfold Machine.forEach
  induction l generalizing s with
  | nil => exact .refl s
  | cons a l ih =>
    have first := h a s holds
    exact first.trans (ih _ fun clear => keeps (first.core clear) (holds (first.clear clear)))

theorem Tends.repeatN (n : Nat) (step : State → State) (h : ∀ s, Tends f s (step s)) (s : State) :
    Tends f s (Machine.repeatN n step s) := by
  induction n generalizing s with
  | zero => exact .refl s
  | succ n ih => exact .trans (h s) (ih _)

end

end Sys2Proof.Machine
end

section
/-! SUPPORT. Gate records, windows and seats: what a gate operation leaves, and the operations of the Gate Loop Master on gates and
windows under the laws of boarding. -/

namespace Sys2Proof.Machine

/-! ## A gate record in its place (R142, R143) -/

section
variable {a : Nat} {g h : GateRec} {s t : State}

theorem gate?_spec (found : s.gate? a = some g) : g ∈ s.glm.gates ∧ g.address = a :=
  ⟨List.mem_of_find?_eq_some found, by simpa using List.find?_some found⟩

theorem gate?_congr (same : t.glm.gates = s.glm.gates) (a : Nat) : t.gate? a = s.gate? a := by
  rw [State.gate?, State.gate?, same]

theorem gate?_setGate (s : State) (h : GateRec) (a : Nat) :
    (s.setGate h).gate? a = (s.gate? a).map (fun g => if g.address == h.address then h else g) := by
  have kept : ((fun g : GateRec => g.address == a) ∘ fun g => if g.address == h.address then h else g) = fun g => g.address == a := by
    funext g
    by_cases same : g.address = h.address <;> simp [same]
  rw [State.gate?, State.setGate, List.find?_map, kept]
  rfl

/-- A record put in the place of another is found there. -/
theorem gate?_setGate_same (found : s.gate? a = some g) (address : h.address = g.address) : (s.setGate h).gate? a = some h := by
  rw [gate?_setGate, found, Option.map_some, if_pos (by simp [address])]

theorem gate?_setGate_other (other : h.address ≠ a) : (s.setGate h).gate? a = s.gate? a := by
  rw [gate?_setGate]
  cases found : s.gate? a with
  | none => rfl
  | some g =>
    rw [Option.map_some, if_neg]
    rw [(gate?_spec found).2]
    simpa using fun same => other same.symm

/-- Of two records put in one place the later stands. -/
theorem setGate_setGate (address : h.address = g.address) : (s.setGate g).setGate h = s.setGate h := by
  simp only [State.setGate, List.map_map]
  congr 2
  refine List.map_congr_left fun x _ => ?_
  by_cases same : x.address = h.address <;> simp [same, ← address]

theorem onGate_eq (f : GateRec → GateRec) (found : s.gate? a = some g) : onGate a f s = s.setGate (f g) := by
  rw [onGate, found]

theorem onGate_absent (f : GateRec → GateRec) (absent : s.gate? a = none) : onGate a f s = s := by
  rw [onGate, absent]

theorem admissionReport_eq (a : Nat) (car : Option Car) (ticket : Option Nat) (event : AdmissionEvent) (verdict : Option Verdict)
    (k : Option Nat) (passed : Nat) (remainder aEff : Option Nat) (s : State) :
    ∃ q, admissionReport a car ticket event verdict k passed remainder aEff s = { s with slp := q } := by
  unfold admissionReport
  split
  · exact ⟨s.slp, rfl⟩
  · exact ⟨_, post_eq_taking _ _⟩

theorem gateReport_eq (a : Nat) (before : GateState) (event : GateEvent) (s : State) :
    ∃ q, gateReport a before event s = { s with slp := q } := by
  unfold gateReport
  split
  · exact ⟨_, post_eq_taking _ _⟩
  · exact ⟨s.slp, rfl⟩

/-- A gate that takes a new state, with its reports (R143, R161, R162). -/
theorem gateTo_eq (new : GateState) (event : Option GateEvent) (found : s.gate? a = some g) :
    ∃ q, gateTo a new event s = { s.setGate { g with state := new } with slp := q } := by
  have reported : ∀ (e : GateEvent) (u : State), (∃ q, u = { s.setGate { g with state := new } with slp := q }) →
      ∃ q, gateReport a g.state e u = { s.setGate { g with state := new } with slp := q } := by
    rintro e _ ⟨q, rfl⟩
    exact gateReport_eq a g.state e _
  have crossed : ∀ u : State, (∃ q, u = { s.setGate { g with state := new } with slp := q }) →
      ∃ q, (if g.state != .lockedOut && new == .lockedOut then gateReport a g.state .lockedOut u
        else if g.state == .lockedOut && new != .lockedOut then gateReport a g.state .unlocked u else u) =
          { s.setGate { g with state := new } with slp := q } := by
    intro u set
    split
    · exact reported .lockedOut u set
    · split
      · exact reported .unlocked u set
      · exact set
  have placed : ∃ q, s.setGate { g with state := new } = { s.setGate { g with state := new } with slp := q } := ⟨s.slp, rfl⟩
  unfold gateTo
  rw [found]
  cases event with
  | none => exact crossed _ placed
  | some e => exact crossed _ (reported e _ placed)

theorem gateToRest_eq (event : Option GateEvent) (found : s.gate? a = some g) :
    ∃ q, gateToRest a event s = { s.setGate { g with state := s.resting g } with slp := q } := by
  unfold gateToRest
  rw [found]
  exact gateTo_eq _ event found

end

/-! ## Seats (R159) -/

/-- The persons pending at a gate for a car. -/
def GateRec.owed (g : GateRec) (c : Car) : Nat := if g.admission.any (fun a => a.car == c) then g.pending else 0

theorem owed_none {g : GateRec} (c : Car) (none : g.admission = none) : g.owed c = 0 := by
  rw [GateRec.owed, none]
  rfl

theorem owed_some {g : GateRec} {a : Admission} (c : Car) (admission : g.admission = some a) :
    g.owed c = if a.car = c then a.pending else 0 := by
  simp [GateRec.owed, GateRec.pending, admission]

theorem owed_congr {g h : GateRec} (same : h.admission = g.admission) (c : Car) : h.owed c = g.owed c := by
  rw [GateRec.owed, GateRec.owed, GateRec.pending, GateRec.pending, same]

/-- The persons pending for a car, gate by gate. -/
theorem pendingFor_eq_sum (s : State) (c : Car) : s.pendingFor c = (s.glm.gates.map (fun g => g.owed c)).sum := by
  unfold State.pendingFor GateRec.owed
  induction s.glm.gates with
  | nil => rfl
  | cons g rest ih =>
    rw [List.filter_cons, List.map_cons, List.sum_cons, ← ih]
    split <;> simp

/-- A sum over records, one of which is replaced. -/
theorem sum_replaced {l : List GateRec} {g h : GateRec} (v : GateRec → Nat) (distinct : (l.map GateRec.address).Nodup) (member : g ∈ l)
    (address : h.address = g.address) :
    ((l.map (fun x => if x.address == h.address then h else x)).map v).sum + v g = (l.map v).sum + v h := by
  induction l with
  | nil => exact nomatch member
  | cons x rest ih =>
    rw [List.map_cons] at distinct
    obtain ⟨fresh, rest_distinct⟩ := List.nodup_cons.1 distinct
    rw [List.map_cons, List.map_cons, List.sum_cons, List.map_cons, List.sum_cons]
    rcases List.mem_cons.1 member with rfl | later
    · have others : rest.map (fun y => if y.address == h.address then h else y) = rest := by
        refine (List.map_congr_left fun y in_rest => if_neg ?_).trans rest.map_id
        rw [address, beq_iff_eq]
        exact fun same => fresh (same ▸ List.mem_map_of_mem in_rest)
      rw [others, if_pos (by simp [address])]
      omega
    · have apart : ¬(x.address == h.address) = true := by
        rw [address, beq_iff_eq]
        exact fun same => fresh (same ▸ List.mem_map_of_mem later)
      rw [if_neg apart]
      have := ih rest_distinct later
      omega

theorem addresses_nodup {s : State} (law : s.glm.law) : (s.glm.gates.map GateRec.address).Nodup :=
  law.1.imp Nat.ne_of_lt

section
variable {a : Nat} {g h : GateRec} {s : State}

/-- The persons pending for a car after a gate takes a new record. -/
theorem pendingFor_setGate (law : s.glm.law) (found : s.gate? a = some g) (address : h.address = g.address) (c : Car) :
    (s.setGate h).pendingFor c + g.owed c = s.pendingFor c + h.owed c := by
  rw [pendingFor_eq_sum, pendingFor_eq_sum]
  exact sum_replaced (fun x => x.owed c) (addresses_nodup law) (gate?_spec found).1 address

/-- A gate takes a new record that fits its window, the tallies following what its admission changes. -/
theorem gatesOk_exchange {tally : PerCar Tally} {ptb : PassTable} (ok : s.gatesOk) (found : s.gate? a = some g)
    (address : h.address = g.address) (fits : s.fits h) (table : ptb.law)
    (seats : ∀ c, (tally.get c).inFlight + g.owed c = (s.tallyOf c).inFlight + h.owed c ∧
      (tally.get c).aboardMax + (tally.get c).inFlight ≤ s.capacity) :
    State.gatesOk { s with glm := (s.setGate h).glm, tally := tally, ptb := ptb } where
  list := (Run.setGate s h).gateLaw ok.list
  table := table
  windows x member := by
    obtain ⟨y, in_list, rfl⟩ := List.mem_map.1 member
    split
    · exact fits
    · exact ok.windows y in_list
  seats c := by
    obtain ⟨inFlight, room⟩ := seats c
    have pending := pendingFor_setGate ok.list found address c
    have before := (ok.seats c).1
    refine ⟨?_, room⟩
    show (tally.get c).inFlight = (s.setGate h).pendingFor c
    omega

end

/-- A gate takes a record whose verdict is no new ADMIT. -/
theorem admits_setGate {s : State} {g h : GateRec} {a b k : Nat} (found : s.gate? a = some g) (address : h.address = g.address)
    (verdict : ∀ k, h.verdict = some (.entry k) → g.verdict = some (.entry k)) (admits : (s.setGate h).admits b k) : s.admits b k := by
  obtain ⟨x, at_b, entry⟩ := admits
  by_cases here : h.address = b
  · obtain rfl : a = b := (gate?_spec found).2.symm.trans (address.symm.trans here)
    obtain rfl : h = x := Option.some.inj ((gate?_setGate_same found address).symm.trans at_b)
    exact ⟨g, found, verdict k entry⟩
  · rw [gate?_setGate_other here] at at_b
    exact ⟨x, at_b, entry⟩

/-! ## Gates within an operation -/

section
variable {f : Frame} {a : Nat} {g h : GateRec} {s : State}

/-- A gate takes a new record with the tallies and the table, none of its verdicts a new ADMIT. -/
theorem Tends.exchange {tally : PerCar Tally} {ptb : PassTable} (found : s.gate? a = some g) (address : h.address = g.address)
    (verdict : ∀ k, h.verdict = some (.entry k) → g.verdict = some (.entry k)) (fits : s.fits g → s.fits h)
    (table : s.ptb.law → ptb.law)
    (seats : s.gatesOk → ∀ c, (tally.get c).inFlight + g.owed c = (s.tallyOf c).inFlight + h.owed c ∧
      (tally.get c).aboardMax + (tally.get c).inFlight ≤ s.capacity) :
    Tends f s { s with glm := (s.setGate h).glm, tally := tally, ptb := ptb } :=
  .boarding s _ tally ptb
    (fun ok => gatesOk_exchange ok found address (fits (ok.windows g (gate?_spec found).1)) (table ok.table) (seats ok)) (fun _ => id)
    (fun _ _ _ admits => admits_setGate found address verdict admits)

/-- A record that takes the place of another, the admission staying. -/
structure State.revises (s : State) (g h : GateRec) : Prop where
  address : h.address = g.address
  admission : h.admission = g.admission
  verdict : ∀ k, h.verdict = some (.entry k) → g.verdict = some (.entry k)
  fits : s.fits g → s.fits h

theorem Tends.setGate (found : s.gate? a = some g) (revises : s.revises g h) : Tends f s (s.setGate h) :=
  .exchange (tally := s.tally) (ptb := s.ptb) found revises.address revises.verdict revises.fits id fun ok c =>
    ⟨by rw [owed_congr revises.admission]; rfl, (ok.seats c).2⟩

theorem Tends.onGate {upd : GateRec → GateRec} (revises : ∀ g, s.gate? a = some g → s.revises g (upd g)) :
    Tends f s (Machine.onGate a upd s) := by
  cases found : s.gate? a with
  | none => rw [onGate_absent upd found]; exact .refl s
  | some g => rw [onGate_eq upd found]; exact .setGate found (revises g found)

/-- A change of a gate's record beside its state, its query timer, its admission and its verdict. -/
theorem Tends.onGateRest {upd : GateRec → GateRec} (address : ∀ g, (upd g).address = g.address) (group : ∀ g, (upd g).group = g.group)
    (state : ∀ g, (upd g).state = g.state) (timer : ∀ g, (upd g).queryTimer = g.queryTimer ∨ (upd g).queryTimer = none)
    (admission : ∀ g, (upd g).admission = g.admission)
    (verdict : ∀ g k, (upd g).verdict = some (.entry k) → g.verdict = some (.entry k)) (a : Nat) (s : State) :
    Tends f s (Machine.onGate a upd s) :=
  .onGate fun g _ => ⟨address g, admission g, verdict g, fun fits => by
    rw [State.fits, state, group, admission]
    refine ⟨fits.1, fun runs => ?_, fits.2.2⟩
    rcases timer g with same | stopped
    · exact fits.2.1 (by rw [← same]; exact runs)
    · rw [stopped] at runs
      exact nomatch runs⟩

/-- A state that a gate may take: READY at an OPEN window, away from QUERY without a query, and away from PASSING without an admission. -/
theorem revises_state {new : GateState} (ready : s.fits g → new = .ready → (s.window g.group).state = .opened)
    (query : s.fits g → g.queryTimer.isSome = true → new = .query) (passing : s.fits g → g.admission.isSome = true → new = .passing) :
    s.revises g { g with state := new } where
  address := rfl
  admission := rfl
  verdict _ := id
  fits fits := ⟨ready fits, query fits, fun x member =>
    ⟨passing fits (Option.isSome_iff_exists.2 ⟨x, member⟩), (fits.2.2 x member).2⟩⟩

theorem resting_ready (ready : s.resting g = .ready) : (s.window g.group).state = .opened := by
  unfold State.resting at ready
  split at ready
  · cases ready
  · split at ready
    · rename_i opened
      exact beq_iff_eq.1 opened
    · cases ready

theorem Tends.gateTo {new : GateState} {event : Option GateEvent}
    (revises : ∀ g, s.gate? a = some g → s.revises g { g with state := new }) : Tends f s (Machine.gateTo a new event s) := by
  cases found : s.gate? a with
  | none =>
    rw [Machine.gateTo, found]
    exact .refl s
  | some g =>
    obtain ⟨q, taken⟩ := gateTo_eq new event found
    rw [taken]
    exact .trans (.setGate found (revises g found)) (.link _ q)

/-- A gate without a query and without an admission goes to rest (R143). -/
theorem Tends.gateToRest {event : Option GateEvent}
    (idle : ∀ g, s.gate? a = some g → s.fits g → g.queryTimer = none ∧ g.admission = none) :
    Tends f s (Machine.gateToRest a event s) := by
  cases found : s.gate? a with
  | none =>
    rw [Machine.gateToRest, found]
    exact .refl s
  | some g =>
    obtain ⟨q, taken⟩ := gateToRest_eq event found
    rw [taken]
    refine .trans (.setGate found (revises_state (fun _ => resting_ready) (fun fits timer => ?_) (fun fits admission => ?_))) (.link _ q)
    · rw [(idle g found fits).1] at timer
      exact nomatch timer
    · rw [(idle g found fits).2] at admission
      exact nomatch admission

/-- A gate outside QUERY and PASSING has neither a query nor an admission (R143, R152, R153). -/
theorem idle_of_state (fits : s.fits g) (query : g.state ≠ .query) (passing : g.state ≠ .passing) :
    g.queryTimer = none ∧ g.admission = none := by
  obtain ⟨-, timer, admission⟩ := fits
  constructor
  · cases e : g.queryTimer with
    | none => rfl
    | some n => exact absurd (timer (by rw [e]; rfl)) query
  · cases e : g.admission with
    | none => rfl
    | some x => exact absurd (admission x e).1 passing

theorem Tends.admissionReport (a : Nat) (car : Option Car) (ticket : Option Nat) (event : AdmissionEvent) (verdict : Option Verdict)
    (k : Option Nat) (passed : Nat) (remainder aEff : Option Nat) (s : State) :
    Tends f s (Machine.admissionReport a car ticket event verdict k passed remainder aEff s) := by
  obtain ⟨q, reported⟩ := admissionReport_eq a car ticket event verdict k passed remainder aEff s
  rw [reported]
  exact .link s q

theorem Tends.gateReport (a : Nat) (before : GateState) (event : GateEvent) (s : State) :
    Tends f s (Machine.gateReport a before event s) := by
  obtain ⟨q, reported⟩ := gateReport_eq a before event s
  rw [reported]
  exact .link s q

theorem Tends.refuse (a : Nat) (r : RefuseReason) (s : State) : Tends f s (setVerdict a (.refuse r) s) := by
  refine .onGateRest ?_ ?_ ?_ ?_ ?_ ?_ a s <;> intro g
  exacts [rfl, rfl, rfl, .inl rfl, rfl, nofun]

theorem Tends.refuseAt (a : Nat) (car : Option Car) (ticket : Nat) (r : RefuseReason) (k aEff : Option Nat) (s : State) :
    Tends f s (Machine.refuseAt a car ticket r k aEff s) :=
  .trans (.refuse a r s) (.admissionReport _ _ _ _ _ _ _ _ _ _)

theorem Tends.endQuery (a : Nat) (how : QueryEnd) (s : State) : Tends f s (Machine.endQuery a how s) := by
  refine .onGateRest ?_ ?_ ?_ ?_ ?_ ?_ a s <;> intro g
  exacts [rfl, rfl, rfl, .inr rfl, rfl, fun _ => id]

end

/-! ## Windows (R148, R149) -/

/-- A gate's record as its group's window takes a state (R143). -/
def GateRec.follow (g : Group) (w : WindowState) (h : GateRec) : GateRec :=
  if h.group == g && w == .opened && h.state == .shut then { h with state := .ready }
  else if h.group == g && w != .opened && h.state == .ready then { h with state := .shut }
  else h

theorem follow_leaves (g : Group) (w : WindowState) (h : GateRec) :
    (h.follow g w).address = h.address ∧ (h.follow g w).group = h.group ∧ (h.follow g w).admission = h.admission ∧
      (h.follow g w).verdict = h.verdict ∧ (h.follow g w).queryTimer = h.queryTimer := by
  unfold GateRec.follow
  split
  · exact ⟨rfl, rfl, rfl, rfl, rfl⟩
  · split <;> exact ⟨rfl, rfl, rfl, rfl, rfl⟩

/-- A window's new record, its gates following, but for the report. -/
def State.withWindow (s : State) (g : Group) (w : Window) : State :=
  { s with glm := { s.glm with windows := s.glm.windows.set g w, gates := s.glm.gates.map (GateRec.follow g w.state) } }

theorem setWindow_withWindow (g : Group) (w : Window) (cause : WindowCause) (s : State) :
    ∃ q, setWindow g w cause s = { s.withWindow g w with slp := q } := by
  unfold setWindow
  dsimp only
  split
  · exact ⟨s.slp, rfl⟩
  · exact ⟨_, post_eq_taking _ _⟩

theorem window_withWindow_same (s : State) (g : Group) (w : Window) : (s.withWindow g w).window g = w := PerGroup.get_set _ _ _

theorem window_withWindow_other (s : State) {g h : Group} (w : Window) (other : h ≠ g) : (s.withWindow g w).window h = s.window h :=
  PerGroup.get_set_other _ _ other

/-- A window takes a record that serves the admissions of its gates. -/
theorem gatesOk_withWindow {s : State} {g : Group} {w : Window} (ok : s.gatesOk)
    (serves : ∀ h ∈ s.glm.gates, h.group = g → ∀ x ∈ h.admission, w.busy = true ∧ w.car = some x.car) :
    (s.withWindow g w).gatesOk where
  list := by
    obtain ⟨q, set⟩ := setWindow_withWindow g w .doors s
    have law := (Run.setWindow g w .doors s).gateLaw ok.list
    rw [set] at law
    exact law
  table := ok.table
  windows x member := by
    obtain ⟨h, in_list, rfl⟩ := List.mem_map.1 member
    obtain ⟨ready, query, admission⟩ := ok.windows h in_list
    obtain ⟨-, group, same_admission, -, timer⟩ := follow_leaves g w.state h
    rw [State.fits, group, same_admission, timer]
    by_cases here : h.group = g
    · subst here
      rw [window_withWindow_same]
      refine ⟨fun is_ready => ?_, fun runs => ?_, fun x in_admission => ⟨?_, (admission x in_admission).2.1, serves h in_list rfl x in_admission⟩⟩
      · by_contra shut
        have shut : w.state ≠ .opened := shut
        simp only [GateRec.follow, beq_self_eq_true, beq_eq_false_iff_ne.2 shut, bne_iff_ne.2 shut, Bool.true_and, Bool.false_and,
          Bool.false_eq_true, if_false, beq_iff_eq] at is_ready
        split at is_ready
        · cases is_ready
        · rename_i not_ready
          exact not_ready is_ready
      · have querying := query runs
        rw [GateRec.follow, querying]
        simp [querying]
      · have passing := (admission x in_admission).1
        rw [GateRec.follow, passing]
        simp [passing]
    · have stays : h.follow g w.state = h := by
        simp [GateRec.follow, here]
      rw [stays, window_withWindow_other s w here]
      exact ⟨ready, query, admission⟩
  seats c := by
    have pending : (s.withWindow g w).pendingFor c = s.pendingFor c := by
      rw [pendingFor_eq_sum, pendingFor_eq_sum, State.withWindow]
      dsimp only
      rw [List.map_map]
      exact congrArg List.sum (List.map_congr_left fun h _ => owed_congr (follow_leaves g w.state h).2.2.1 c)
    rw [pending]
    exact ok.seats c

theorem admits_withWindow {s : State} {g : Group} {w : Window} {a k : Nat} (admits : (s.withWindow g w).admits a k) : s.admits a k := by
  obtain ⟨x, found, entry⟩ := admits
  have kept : ((fun h : GateRec => h.address == a) ∘ GateRec.follow g w.state) = fun h => h.address == a := by
    funext h
    simp [(follow_leaves g w.state h).1]
  rw [State.gate?, State.withWindow, List.find?_map, kept] at found
  obtain ⟨h, at_a, rfl⟩ := Option.map_eq_some_iff.1 found
  exact ⟨h, at_a, (follow_leaves g w.state h).2.2.2.1.symm.trans entry⟩

section
variable {f : Frame} {s : State} {g : Group} {w : Window} {cause : WindowCause}

/-- A window that does not become OPEN or SEALING takes a record that serves the admissions of its gates. -/
theorem Tends.setWindow (busy : w.busy = true → (s.window g).busy = true)
    (serves : s.gatesOk → ∀ h ∈ s.glm.gates, h.group = g → ∀ x ∈ h.admission, w.busy = true ∧ w.car = some x.car) :
    Tends f s (Machine.setWindow g w cause s) := by
  obtain ⟨q, set⟩ := setWindow_withWindow g w cause s
  rw [set]
  refine .trans (.boarding s (s.withWindow g w).glm s.tally s.ptb (fun ok => gatesOk_withWindow ok (serves ok)) (fun h => ?_)
    (fun _ _ _ => admits_withWindow)) (.link _ q)
  by_cases here : h = g
  · subst here
    show ((s.withWindow h w).window h).busy = true → _
    rw [window_withWindow_same]
    exact busy
  · show ((s.withWindow g w).window h).busy = true → _
    rw [window_withWindow_other s w here]
    exact id

/-- A window becomes OPEN at a stop where it may. -/
theorem Tends.openWindow {c : Car} {i : Nat} (may : s.overrun = false → s.atStop ∧ s.lmu.mode.boards)
    (opens : f.opensNone = false) : Tends f s (Machine.openWindow c i s) := by
  have opened : ∀ (g : Group) (w : Window), (s.window g).busy = false → Tends f s (Machine.setWindow g w .release s) := by
    intro g w idle
    obtain ⟨q, set⟩ := setWindow_withWindow g w .release s
    have unserved : s.gatesOk → ∀ h ∈ s.glm.gates, h.group = g → ∀ x ∈ h.admission, w.busy = true ∧ w.car = some x.car := by
      rintro ok h member rfl x admission
      obtain ⟨-, -, busy, -⟩ := (ok.windows h member).2.2 x admission
      exact nomatch idle.symm.trans busy
    rw [set]
    refine Tends.trans (t := s.withWindow g w) ⟨id, fun clear => ?_⟩ (.link _ q)
    obtain ⟨⟨held, stop⟩, boards⟩ := may clear
    have placed : s.hac.state = .held ∧ s.hac.berth.stop.isSome = true ∧ s.lmu.mode ≠ .init ∧ s.lmu.mode ≠ .parked ∧
        s.lmu.mode ≠ .warming ∧ (s.lmu.mode = .evacuation → s.bsq.latch.isSome = true) := by
      rcases boards with (m | m) | m | m <;> simp [held, stop, m]
    exact {
      gates := fun ok => gatesOk_withWindow ok (unserved ok)
      placed := fun _ _ _ => placed
      allowed := fun _ _ => id
      trip := id
      test := id
      admits := fun _ _ _ => admits_withWindow
      rests := fun _ _ w r => r w
      held := id
      atStop := id
      boards := id
      mode := fun _ _ => rfl
      wait := fun _ b => ⟨b, fun _ _ => id⟩
      opened := fun _ o => nomatch opens.symm.trans o }
  unfold Machine.openWindow
  split
  · exact .refl s
  · rename_i g _
    dsimp only
    split
    · rename_i shut
      exact opened g _ (by rw [Window.busy, shut]; rfl)
    · rename_i is_sealed
      split
      · exact opened g _ (by rw [Window.busy, is_sealed]; rfl)
      · exact .refl s
    · exact .refl s
    · exact .refl s

theorem Tends.shutSealedWindows (s : State) : Tends f s (Machine.shutSealedWindows s) := by
  refine .forEach _ _ (fun g t => ?_) s
  split
  · rename_i is_sealed
    refine .setWindow (fun busy => nomatch busy) ?_
    rintro ok h member rfl x admission
    obtain ⟨-, -, busy, -⟩ := (ok.windows h member).2.2 x admission
    rw [Window.busy, beq_iff_eq.1 is_sealed] at busy
    exact nomatch busy
  · exact .refl t

end

end Sys2Proof.Machine
end

section
/-! SUPPORT. What a hand-over asks of the state it finds and what it then does under the laws of boarding: the windows, the sides and
the brakes. -/

namespace Sys2Proof.Machine

/-! ## Hand-overs -/

/-- What a hand-over asks of the state it finds: a side that begins to wait does so on a line at rest where it may, one released for
passengers is so at a stop, and the mode entered is one in which windows may stand. -/
def Act.Seemly (s : State) : Act → Prop
  | .sideTo c d r _ _ => (r.state = .releasePending → s.rests ∧ s.releasable r.kind) ∧
      (s.waits c d → r.state = .released → r.kind = some .auto ∨ r.kind = some .manual → s.lmu.mode.carries ∧ s.atStop)
  | .changeMode e _ _ => e.mode.boards ∧ (e.mode = .tripped → s.bsq.latch.isSome = true)
  | .orderStop _ _ | .command _ _ | .brakesChanged | .settle | .interlock | .abortTest _ | .closeSide _ _ | .sealWindow _ _
  | .freshness _ _ => True

/-- A hand-over that keeps the mode of a line that carries passengers. -/
def Act.mild : Act → Prop
  | .orderStop kind _ => kind ≠ .emergency
  | .changeMode _ _ _ | .freshness _ _ => False
  | .command _ _ | .brakesChanged | .settle | .interlock | .abortTest _ | .sideTo _ _ _ _ _ | .closeSide _ _ | .sealWindow _ _ => True

/-- A hand-over that makes no side wait. -/
def Act.calm : Act → Prop
  | .sideTo _ _ r _ _ => r.state ≠ .releasePending
  | .orderStop _ _ | .command _ _ | .brakesChanged | .settle | .interlock | .abortTest _ | .closeSide _ _ | .sealWindow _ _
  | .changeMode _ _ _ | .freshness _ _ => True

/-- What the operations rely on of the hand by which they reach other blocks. -/
structure Steady (k : Hand) : Prop where
  run : ∀ (f : Frame) (a : Act) (s : State), (s.overrun = false → a.Seemly s) → (f.keepsMode = true → a.mild) →
    (f.addsNoWait = true → a.calm) → Tends f s (k a s)

/-- Beside that, a side that takes a record in which it does not wait, or is ordered to close, waits afterwards only where it may. -/
structure Closing (k : Hand) : Prop extends Steady k where
  sides : ∀ c d r e x s, r.state ≠ .releasePending → (s.overrun = false → (Act.sideTo c d r e x).Seemly s) →
    (k (.sideTo c d r e x) s).overrun = false → (k (.sideTo c d r e x) s).waitAllowed c d
  closes : ∀ c d s, (k (.closeSide c d) s).overrun = false → (k (.closeSide c d) s).waitAllowed c d

section
variable {k : Hand} (hk : Steady k) {f : Frame}
include hk

theorem Steady.stop (kind : StopKind) (cause : StopCause) (s : State) (mild : f.keepsMode = true → kind ≠ .emergency) :
    Tends f s (k (.orderStop kind cause) s) := hk.run f _ s (fun _ => trivial) mild (fun _ => trivial)

theorem Steady.command (b : BrakeId) (c : BrakeCmd) (s : State) : Tends f s (k (.command b c) s) :=
  hk.run f _ s (fun _ => trivial) (fun _ => trivial) (fun _ => trivial)

theorem Steady.brakesChanged (s : State) : Tends f s (k .brakesChanged s) :=
  hk.run f _ s (fun _ => trivial) (fun _ => trivial) (fun _ => trivial)

theorem Steady.settle (s : State) : Tends f s (k .settle s) :=
  hk.run f _ s (fun _ => trivial) (fun _ => trivial) (fun _ => trivial)

theorem Steady.interlock (s : State) : Tends f s (k .interlock s) :=
  hk.run f _ s (fun _ => trivial) (fun _ => trivial) (fun _ => trivial)

theorem Steady.abort (cause : AbortCause) (s : State) : Tends f s (k (.abortTest cause) s) :=
  hk.run f _ s (fun _ => trivial) (fun _ => trivial) (fun _ => trivial)

theorem Steady.close (c : Car) (d : Side) (s : State) : Tends f s (k (.closeSide c d) s) :=
  hk.run f _ s (fun _ => trivial) (fun _ => trivial) (fun _ => trivial)

theorem Steady.seal (g : Group) (cause : WindowCause) (s : State) : Tends f s (k (.sealWindow g cause) s) :=
  hk.run f _ s (fun _ => trivial) (fun _ => trivial) (fun _ => trivial)

theorem Steady.mode (e : ModeEntry) (cause : ModeCause) (unmet : Option WarmUnmet) (s : State)
    (seemly : s.overrun = false → e.mode.boards ∧ (e.mode = .tripped → s.bsq.latch.isSome = true)) (changes : f.keepsMode = false) :
    Tends f s (k (.changeMode e cause unmet) s) :=
  hk.run f _ s seemly (fun keeps => nomatch changes.symm.trans keeps) (fun _ => trivial)

theorem Steady.freshness (c : Car) (x : Freshness) (s : State) (changes : f.keepsMode = false) :
    Tends f s (k (.freshness c x) s) :=
  hk.run f _ s (fun _ => trivial) (fun keeps => nomatch changes.symm.trans keeps) (fun _ => trivial)

/-- A side takes a record in which it neither waits nor is RELEASED. -/
theorem Steady.side (c : Car) (d : Side) (r : DoorSide) (e : DoorEvent) (x : Option DoorCause) (s : State)
    (unwaiting : r.state ≠ .releasePending) (unreleased : r.state ≠ .released) : Tends f s (k (.sideTo c d r e x) s) :=
  hk.run f _ s (fun _ => ⟨fun w => absurd w unwaiting, fun _ r => absurd r unreleased⟩) (fun _ => trivial) (fun _ => unwaiting)

theorem Steady.withoutClose : Steady (withoutClose k) where
  run f a s seemly mild calm := by
    unfold Machine.withoutClose
    split
    · exact .refl s
    · exact hk.run f a s seemly mild calm

/-! ## Windows -/

theorem Tends.autoClose (w : Window) (s : State) : Tends f s (Machine.autoClose k w s) := by
  unfold Machine.autoClose
  split
  · exact .ite (fun _ => .forEach _ _ (fun d t => hk.close _ d t) s) (fun _ => .refl s)
  · exact .refl s

theorem Tends.closeSealed (before s : State) : Tends f s (Machine.closeSealed k before s) :=
  .forEach _ _ (fun _ t => .forEach _ _ (fun _ u => .ite (fun _ => .autoClose hk _ u) (fun _ => .refl u)) t) s

omit hk in
/-- With nobody pending over a group none of its gates has an admission. -/
theorem unserving {s : State} {g : Group} (ok : s.gatesOk) (nobody : s.pendingOver g = 0) {h : GateRec} (member : h ∈ s.glm.gates)
    (group : h.group = g) : h.admission = none := by
  cases admission : h.admission with
  | none => rfl
  | some x =>
    have pending := ((ok.windows h member).2.2 x admission).2.1
    have here : GateRec.pending h ∈ ((s.glm.gates.filter (fun h => h.group == g)).map GateRec.pending) :=
      List.mem_map_of_mem (List.mem_filter.2 ⟨member, by simp [group]⟩)
    have zero := List.sum_eq_zero_iff.1 nobody _ here
    rw [GateRec.pending, admission] at zero
    exact absurd (show x.pending = 0 from zero) (by omega)

theorem Tends.examineWindow (g : Group) (s : State) : Tends f s (Machine.examineWindow k g s) := by
  unfold Machine.examineWindow
  refine .ite (fun resolved => ?_) (fun _ => .refl s)
  simp only [Bool.and_eq_true, beq_iff_eq] at resolved
  refine .trans (.setWindow (w := { s.window g with state := .sealed }) (fun busy => nomatch busy) ?_) (.autoClose hk _ _)
  intro ok h member group x admission
  rw [unserving ok resolved.2 member group] at admission
  exact nomatch admission

theorem Tends.sealWindowNow (g : Group) (cause : WindowCause) (s : State) : Tends f s (Machine.sealWindowNow k g cause s) := by
  unfold Machine.sealWindowNow
  refine .ite (fun opened => ?_) (fun _ => .refl s)
  refine .trans (.setWindow (fun _ => by rw [Window.busy, opened]; rfl) ?_) (.examineWindow hk g _)
  rintro ok h member rfl x admission
  exact ⟨rfl, ((ok.windows h member).2.2 x admission).2.2.2⟩

theorem Tends.sealOpen (cause : WindowCause) (s : State) : Tends f s (Machine.sealOpen k cause s) :=
  .forEach _ _ (fun g t => .sealWindowNow hk.withoutClose g cause t) s

theorem Tends.sealAll (cause : WindowCause) (s : State) : Tends f s (Machine.sealAll k cause s) :=
  .trans (.sealOpen hk cause s) (.closeSealed hk _ _)

theorem Tends.sealUnreleased (s : State) : Tends f s (Machine.sealUnreleased k s) :=
  .forEach _ _ (fun g t => .ite (fun _ => hk.seal g _ t) (fun _ => .refl t)) s

/-! ## A side takes a new record -/

omit hk in
theorem Tends.doorReport (c : Car) (d : Side) (before : DoorState) (event : DoorEvent) (cause : Option DoorCause) (s : State) :
    Tends f s (Machine.doorReport c d before event cause s) := .post _ s

omit hk in
/-- A tally whose in_flight stays and whose bound aboard_max does not rise. -/
theorem Tends.setTally (s : State) (c : Car) (t : Tally) (inFlight : t.inFlight = (s.tallyOf c).inFlight)
    (aboardMax : t.aboardMax ≤ (s.tallyOf c).aboardMax) : Tends f s (s.setTally c t) := by
  refine .boarding s s.glm _ s.ptb (fun ok => ⟨ok.list, ok.table, ok.windows, fun e => ?_⟩) (fun _ => id) (fun _ _ _ => id)
  obtain ⟨owed, room⟩ := ok.seats e
  show ((s.tally.set c t).get e).inFlight = s.pendingFor e ∧ ((s.tally.set c t).get e).aboardMax + ((s.tally.set c t).get e).inFlight ≤ s.capacity
  by_cases same : e = c
  · subst same
    rw [PerCar.get_set]
    exact ⟨inFlight.trans owed, by omega⟩
  · rw [PerCar.get_set_other _ _ same]
    exact ⟨owed, room⟩

omit hk in
theorem Tends.correctTally (c : Car) (r : DoorSide) (s : State) : Tends f s (Machine.correctTally c r s) := by
  unfold Machine.correctTally
  refine .ite (fun _ => ?_) (fun _ => .setTally s c _ rfl (Nat.le_refl _))
  refine .trans (.setTally s c { s.tallyOf c with aboardMin := 0, aboardMax := 0, unknown := false } rfl (Nat.zero_le _)) ?_
  exact .doorsRest _ _ fun _ _ => ⟨rfl, rfl⟩

omit hk in
theorem Tends.sendWord (s : State) : Tends f s (Machine.sendWord s) := .haulRest s _ rfl rfl

omit hk in
theorem Tends.zeroReference (s : State) : Tends f s (Machine.zeroReference s) := .haulRest s _ rfl rfl

omit hk in
/-- Report, tally and reference, once the side has its record. -/
theorem Tends.sideTaken (c : Car) (d : Side) (r : DoorSide) (event : DoorEvent) (cause : Option DoorCause) (s : State) :
    Tends f (s.setSide c d r) (Machine.sideTaken c d r event cause s) := by
  unfold Machine.sideTaken
  refine .trans (.doorReport c d (s.side c d).state event cause _) ?_
  dsimp only
  generalize Machine.doorReport c d (s.side c d).state event cause (s.setSide c d r) = reported
  have tally : Tends f reported (if (r.state == .released) = true then Machine.correctTally c r reported else reported) :=
    .ite (fun _ => .correctTally c r reported) (fun _ => .refl reported)
  exact .trans tally (.ite (fun _ => .zeroReference _) (fun _ => .refl _))

/-- A release for passengers: the side that waited becomes RELEASED by AUTO or MANUAL release (R148). -/
abbrev DoorSide.boards (old r : DoorSide) : Bool :=
  old.state == .releasePending && r.state == .released && (r.kind == some .auto || r.kind == some .manual)

theorem Tends.sideFollows (c : Car) (old r : DoorSide) (s : State)
    (may : old.boards r = true → f.opensNone = false ∧ (s.overrun = false → s.atStop ∧ s.lmu.mode.boards)) :
    Tends f s (Machine.sideFollows k c old r s) := by
  unfold Machine.sideFollows
  refine .trans ?_ (.sealUnreleased hk _)
  refine .ite (fun boards => ?_) (fun _ => .refl s)
  split
  · exact .openWindow (may boards).2 (may boards).1
  · exact .refl s

/-- From the record taken to the end of the hand-overs. -/
theorem Tends.sideTo_rest (c : Car) (d : Side) (r : DoorSide) (event : DoorEvent) (cause : Option DoorCause) (s : State)
    (may : (s.side c d).boards r = true → f.opensNone = false ∧ (s.overrun = false → s.lmu.mode.carries ∧ s.atStop)) :
    Tends f (s.setSide c d r) (Machine.sideToNow k c d r event cause s) := by
  rw [sideToNow_eq]
  have watched : Tends f (s.setSide c d r) (k .interlock (Machine.sideTaken c d r event cause s)) :=
    .trans (.sideTaken c d r event cause s) (hk.interlock _)
  refine .trans watched (.sideFollows hk c _ r _ fun boards => ⟨(may boards).1, fun clear => ?_⟩)
  obtain ⟨carries, stands⟩ := (may boards).2 (watched.clear clear)
  exact ⟨(watched.core clear).atStop stands, (watched.core clear).boards (.inl carries)⟩

omit hk in
theorem boards_spec {old r : DoorSide} (boards : old.boards r = true) :
    old.state = .releasePending ∧ r.state = .released ∧ (r.kind = some .auto ∨ r.kind = some .manual) := by
  simpa [DoorSide.boards, and_assoc] using boards

theorem Tends.sideToNow (c : Car) (d : Side) (r : DoorSide) (event : DoorEvent) (cause : Option DoorCause) (s : State)
    (seemly : s.overrun = false → (Act.sideTo c d r event cause).Seemly s) (calm : f.addsNoWait = true → r.state ≠ .releasePending) :
    Tends f s (Machine.sideToNow k c d r event cause s) := by
  by_cases waits : r.state = .releasePending
  · have adds : f.addsNoWait = false := by
      cases adds : f.addsNoWait
      · rfl
      · exact absurd waits (calm adds)
    refine .trans (.setSideWaits s c d r (fun clear => (seemly clear).1 waits) adds) (.sideTo_rest hk c d r event cause s ?_)
    intro boards
    exact nomatch waits.symm.trans (boards_spec boards).2.1
  · by_cases boards : (s.side c d).boards r = true
    · obtain ⟨waited, released, kind⟩ := boards_spec boards
      refine .of_waiting (c := c) (d := d) ?_ waited
      exact .trans (.setSide s c d r waits) (.sideTo_rest hk c d r event cause s fun _ =>
        ⟨rfl, fun clear => (seemly clear).2 waited released kind⟩)
    · exact .trans (.setSide s c d r waits) (.sideTo_rest hk c d r event cause s fun b => absurd b boards)

/-- A side that takes a record in which it does not wait waits afterwards only where it may. -/
theorem sideToNow_allowed (c : Car) (d : Side) (r : DoorSide) (event : DoorEvent) (cause : Option DoorCause) (s : State)
    (unwaiting : r.state ≠ .releasePending) (seemly : s.overrun = false → (Act.sideTo c d r event cause).Seemly s)
    (clear : (Machine.sideToNow k c d r event cause s).overrun = false) :
    (Machine.sideToNow k c d r event cause s).waitAllowed c d := by
  have rest : Tends ⟨false, false, false⟩ (s.setSide c d r) (Machine.sideToNow k c d r event cause s) := by
    refine .sideTo_rest hk c d r event cause s fun boards => ⟨rfl, fun clear => ?_⟩
    obtain ⟨waited, released, kind⟩ := boards_spec boards
    exact (seemly clear).2 waited released kind
  refine (rest.core clear).allowed c d fun waits => ?_
  rw [State.waits, side_setSide] at waits
  exact absurd waits unwaiting

/-! ## Closing -/

theorem Tends.enterClosing (c : Car) (d : Side) (s : State) : Tends f s (Machine.enterClosing k c d s) :=
  hk.side c d _ _ _ s nofun nofun

omit hk in
/-- A close order is carried out, or is nothing to a side that does not wait (R115). -/
theorem closeSideNow_cases (k : Hand) (c : Car) (d : Side) (s : State) :
    Machine.closeSideNow k c d s = Machine.enterClosing k c d s ∨ Machine.closeSideNow k c d s = s ∧ ¬s.waits c d := by
  unfold Machine.closeSideNow State.waits
  dsimp only
  cases state : (s.side c d).state
  case releasePending => exact .inl rfl
  case released | opened =>
    dsimp only
    split
    · exact .inr ⟨rfl, nofun⟩
    · exact .inl rfl
  case unproven =>
    dsimp only
    split
    · exact .inl rfl
    · exact .inr ⟨rfl, nofun⟩
  case secured | closing | fault => exact .inr ⟨rfl, nofun⟩

theorem Tends.closeSideNow (c : Car) (d : Side) (s : State) : Tends f s (Machine.closeSideNow k c d s) := by
  rcases closeSideNow_cases k c d s with closes | ⟨stays, -⟩
  · rw [closes]
    exact .enterClosing hk c d s
  · rw [stays]
    exact .refl s

theorem Tends.attemptFailed (c : Car) (d : Side) (cause : DoorCause) (s : State) : Tends f s (Machine.attemptFailed k c d cause s) := by
  unfold Machine.attemptFailed
  dsimp only
  split
  · exact hk.side c d _ _ _ s nofun nofun
  · exact hk.side c d _ _ _ s nofun nofun

theorem Tends.faultSide (c : Car) (d : Side) (x : DoorFault) (s : State) : Tends f s (Machine.faultSide k c d x s) :=
  hk.side c d _ _ _ s nofun nofun

theorem Tends.unproveSide (c : Car) (d : Side) (s : State) : Tends f s (Machine.unproveSide k c d s) := by
  unfold Machine.unproveSide
  dsimp only
  split
  · exact .refl s
  · exact .setSide s c d _ nofun
  all_goals exact hk.side c d _ _ _ s nofun nofun

theorem Tends.doorsOnFreshness (c : Car) (x : Freshness) (s : State) : Tends f s (Machine.doorsOnFreshness k c x s) := by
  unfold Machine.doorsOnFreshness
  split
  · exact .forEach _ _ (fun d t => .unproveSide hk c d t) s
  · exact .forEach _ _ (fun d t => .unproveSide hk c d t) s
  all_goals exact .refl s

end

/-- A side ordered to close waits afterwards only where it may. -/
theorem closeSideNow_allowed {k : Hand} (hk : Closing k) (c : Car) (d : Side) (s : State)
    (clear : (closeSideNow k c d s).overrun = false) : (closeSideNow k c d s).waitAllowed c d := by
  rcases closeSideNow_cases k c d s with closes | ⟨stays, unwaiting⟩
  · rw [closes] at clear ⊢
    exact hk.sides c d _ _ _ s nofun (fun _ => ⟨nofun, nofun⟩) clear
  · rw [stays]
    exact fun waits => absurd waits unwaiting

end Sys2Proof.Machine
end

section
/-! SUPPORT. The Gate Loop Master under the laws of boarding: queries, passages, access and polling, and what each leaves at its gate. -/

namespace Sys2Proof.Machine

/-! ## Queries and passages at their gates (R155 to R158) -/

/-- A gate's record when its query ends (R155). -/
def GateRec.queryEnded (g : GateRec) (how : QueryEnd) : GateRec :=
  { g with queryTimer := none, queryTicket := none,
           lastQuery := match g.queryTicket with
             | some t => some { number := g.queryNumber, ticket := t, how := how }
             | none => g.lastQuery }

/-- The tallies after a change of the tally of an admission's car. -/
abbrev State.retallied (s : State) (adm : Admission) (t : Tally → Tally) : PerCar Tally := s.tally.set adm.car (t (s.tallyOf adm.car))

/-- The Pass Table after a settlement with the entry of an admission's ticket, if it has one. -/
def PassTable.settle (t : PassTable) (adm : Admission) (f : Nat → PassTable) : PassTable :=
  match adm.ticket with
  | some id => f id
  | none => t

theorem settle_law {t : PassTable} {adm : Admission} {f : Nat → PassTable} (law : t.law) (kept : ∀ id, (f id).law) :
    (t.settle adm f).law := by
  unfold PassTable.settle
  split
  · exact kept _
  · exact law

section
variable {k : Hand} {a : Nat} {g : GateRec} {adm : Admission} {s : State}

theorem gate?_onGate {upd : GateRec → GateRec} (found : s.gate? a = some g) (address : (upd g).address = g.address) :
    (onGate a upd s).gate? a = some (upd g) := by
  rw [onGate_eq upd found, gate?_setGate_same found address]

theorem endQuery_eq (how : QueryEnd) (found : s.gate? a = some g) : endQuery a how s = s.setGate (g.queryEnded how) := onGate_eq _ found

/-- A gate whose admission is over goes to rest, whatever the tallies and the table then hold (R156, R157). -/
theorem admissionOver_eq (found : s.gate? a = some g) (car : Option Car) (ticket : Option Nat) (event : AdmissionEvent)
    (n : Option Nat) (p : Nat) (r : Option Nat) :
    ∃ q, gateToRest a none (admissionReport a car ticket event none n p r none (onGate a (fun h => { h with admission := none }) s)) =
      { s.setGate { g with admission := none, state := s.resting g } with slp := q } := by
  rw [onGate_eq _ found]
  have placed := gate?_setGate_same (h := { g with admission := none }) found rfl
  obtain ⟨q, reported⟩ := admissionReport_eq a car ticket event none n p r none (s.setGate { g with admission := none })
  obtain ⟨q', rested⟩ := gateToRest_eq (s := { s.setGate { g with admission := none } with slp := q }) none placed
  rw [reported, rested]
  refine ⟨q', ?_⟩
  have both := setGate_setGate (s := s) (g := { g with admission := none }) (h := { g with admission := none, state := s.resting g }) rfl
  rw [← both]
  rfl

/-- The remainder of an admission abandoned: the persons pending leave in_flight and are settled in the Pass Table, and the gate goes
to rest (R157). -/
theorem abandonAdmission_eq (found : s.gate? a = some g) (admission : g.admission = some adm) : ∃ q, abandonAdmission k a s =
    examineWindow k g.group { s with
      glm := (s.setGate { g with admission := none, state := s.resting g }).glm
      tally := s.retallied adm fun t => { t with inFlight := t.inFlight - adm.pending }
      ptb := s.ptb.settle adm fun id => s.ptb.abandon id adm.pending (adm.passed == 0) g.group
      slp := q } := by
  have settled : ∀ (tally : PerCar Tally) (ptb : PassTable), ∃ q, gateToRest a none (admissionReport a (some adm.car) adm.ticket
      .abandoned none (some adm.k) adm.passed (some adm.pending) none (onGate a (fun h => { h with admission := none })
        { s with tally := tally, ptb := ptb })) =
      { s with glm := (s.setGate { g with admission := none, state := s.resting g }).glm, tally := tally, ptb := ptb, slp := q } :=
    fun tally ptb => admissionOver_eq (s := { s with tally := tally, ptb := ptb }) found _ _ _ _ _ _
  obtain ⟨ticket, car, n, pending, passed, deadline, staff⟩ := adm
  unfold abandonAdmission
  rw [found]
  dsimp only
  rw [admission]
  cases ticket with
  | none =>
    obtain ⟨q, settles⟩ := settled (s.retallied _ fun t => { t with inFlight := t.inFlight - pending }) s.ptb
    exact ⟨q, congrArg (examineWindow k g.group) settles⟩
  | some id =>
    obtain ⟨q, settles⟩ := settled (s.retallied _ fun t => { t with inFlight := t.inFlight - pending })
      (s.ptb.abandon id pending (passed == 0) g.group)
    exact ⟨q, congrArg (examineWindow k g.group) settles⟩

/-- The fate of the persons pending unknown: they leave in_flight and join aboard_max (R158). -/
theorem unknownFate_eq (found : s.gate? a = some g) (admission : g.admission = some adm) : ∃ q, unknownFate a s = { s with
      glm := (s.setGate { g with admission := none }).glm
      tally := s.retallied adm fun t => { t with inFlight := t.inFlight - adm.pending, aboardMax := t.aboardMax + adm.pending }
      ptb := s.ptb.settle adm fun id => s.ptb.release id adm.pending
      slp := q } := by
  have settled : ∀ (tally : PerCar Tally) (ptb : PassTable), ∃ q, admissionReport a (some adm.car) adm.ticket
      .unknownFate none (some adm.k) adm.passed (some adm.pending) none (onGate a (fun h => { h with admission := none })
        { s with tally := tally, ptb := ptb }) =
      { s with glm := (s.setGate { g with admission := none }).glm, tally := tally, ptb := ptb, slp := q } := by
    intro tally ptb
    rw [onGate_eq (s := { s with tally := tally, ptb := ptb }) _ found]
    exact admissionReport_eq _ _ _ _ _ _ _ _ _ _
  obtain ⟨ticket, car, n, pending, passed, deadline, staff⟩ := adm
  unfold unknownFate
  rw [found]
  dsimp only
  rw [admission]
  cases ticket with
  | none => exact settled (s.retallied _ fun t => { t with inFlight := t.inFlight - pending, aboardMax := t.aboardMax + pending }) s.ptb
  | some id =>
    exact settled (s.retallied _ fun t => { t with inFlight := t.inFlight - pending, aboardMax := t.aboardMax + pending })
      (s.ptb.release id pending)

theorem unknownFate_none (found : s.gate? a = some g) (admission : g.admission = none) : unknownFate a s = s := by
  unfold unknownFate
  rw [found]
  dsimp only
  rw [admission]

/-- The tally of a car after one of those pending has passed (R156). -/
abbrev Tally.boarded (t : Tally) : Tally :=
  { t with aboardMin := t.aboardMin + 1, aboardMax := t.aboardMax + 1, inFlight := t.inFlight - 1 }

/-- One of several persons pending passes (R156). -/
theorem onePassage_next (found : s.gate? a = some g) (admission : g.admission = some adm) (others : adm.pending - 1 ≠ 0) :
    onePassage k a s = { s with
      glm := (s.setGate { g with admission := some { adm with pending := adm.pending - 1, passed := adm.passed + 1 } }).glm
      tally := s.retallied adm Tally.boarded
      ptb := s.ptb.settle adm s.ptb.passage } := by
  have settled : ∀ (tally : PerCar Tally) (ptb : PassTable) (x : Admission), onGate a (fun h => { h with admission := some x })
        { s with tally := tally, ptb := ptb } =
      { s with glm := (s.setGate { g with admission := some x }).glm, tally := tally, ptb := ptb } :=
    fun tally ptb x => onGate_eq (s := { s with tally := tally, ptb := ptb }) _ found
  obtain ⟨ticket, car, n, pending, passed, deadline, staff⟩ := adm
  unfold onePassage
  rw [found]
  dsimp only
  rw [admission]
  cases ticket with
  | none => exact (if_neg others).trans (settled _ _ _)
  | some id => exact (if_neg others).trans (settled _ _ _)

/-- The last person pending passes (R156). -/
theorem onePassage_last (found : s.gate? a = some g) (admission : g.admission = some adm) (last : adm.pending - 1 = 0) :
    ∃ q, onePassage k a s = examineWindow k g.group { s with
      glm := (s.setGate { g with admission := none, state := s.resting g }).glm
      tally := s.retallied adm Tally.boarded
      ptb := s.ptb.settle adm s.ptb.passage
      slp := q } := by
  have settled : ∀ (tally : PerCar Tally) (ptb : PassTable), ∃ q, gateToRest a none (admissionReport a (some adm.car) adm.ticket
      .complete none (some adm.k) (adm.passed + 1) none none (onGate a (fun h => { h with admission := none })
        { s with tally := tally, ptb := ptb })) =
      { s with glm := (s.setGate { g with admission := none, state := s.resting g }).glm, tally := tally, ptb := ptb, slp := q } :=
    fun tally ptb => admissionOver_eq (s := { s with tally := tally, ptb := ptb }) found _ _ _ _ _ _
  obtain ⟨ticket, car, n, pending, passed, deadline, staff⟩ := adm
  unfold onePassage
  rw [found]
  dsimp only
  rw [admission]
  cases ticket with
  | none =>
    obtain ⟨q, settles⟩ := settled (s.retallied _ Tally.boarded) s.ptb
    exact ⟨q, (if_pos last).trans (congrArg (examineWindow k g.group) settles)⟩
  | some id =>
    obtain ⟨q, settles⟩ := settled (s.retallied _ Tally.boarded) (s.ptb.passage id)
    exact ⟨q, (if_pos last).trans (congrArg (examineWindow k g.group) settles)⟩

/-- A query that runs out: the gate refuses with UNKNOWN and goes to rest (R155). -/
theorem queryExpired_eq (found : s.gate? a = some g) : ∃ q, queryExpired k a s =
    examineWindow k g.group { s with
      glm := (s.setGate { g.queryEnded .timeout with
        verdict := some (.refuse .unknown), carried := false, state := s.resting g }).glm
      slp := q } := by
  unfold queryExpired
  rw [found]
  dsimp only
  have refused : setVerdict a (.refuse .unknown) s = s.setGate { g with verdict := some (.refuse .unknown), carried := false } :=
    onGate_eq _ found
  have at_refused := gate?_setGate_same (h := { g with verdict := some (.refuse .unknown), carried := false }) found rfl
  have ends := endQuery_eq .timeout at_refused
  rw [setGate_setGate (by rfl)] at ends
  have at_ended := gate?_setGate_same (h := GateRec.queryEnded { g with verdict := some (.refuse .unknown), carried := false } .timeout)
    found rfl
  obtain ⟨q, rested⟩ := gateToRest_eq none at_ended
  rw [setGate_setGate (by rfl)] at rested
  rw [refused, ends, rested]
  obtain ⟨q', reported⟩ := admissionReport_eq a (s.window g.group).car g.queryTicket .verdict (some (.refuse .unknown)) none 0 none none
    { s.setGate { g.queryEnded .timeout with verdict := some (.refuse .unknown), carried := false, state := s.resting g } with slp := q }
  exact ⟨q', congrArg (examineWindow k g.group) reported⟩

end

/-! ## Under the laws of boarding -/

section
variable {f : Frame} {a : Nat} {g h : GateRec} {s : State} {adm : Admission}

/-- The persons pending at a gate are among those in flight (R159). -/
theorem owed_le (ok : s.gatesOk) (found : s.gate? a = some g) (c : Car) : g.owed c ≤ (s.tallyOf c).inFlight := by
  rw [(ok.seats c).1, pendingFor_eq_sum]
  exact List.single_le_sum (fun _ _ => Nat.zero_le _) _ (List.mem_map_of_mem (gate?_spec found).1)

/-- The tallies follow a gate's record: what the car of its admission gains in flight the gate gains pending. -/
theorem seats_follow {t : Tally → Tally} {owed : Nat} (ok : s.gatesOk) (admission : g.admission = some adm)
    (others : ∀ c, h.owed c = if adm.car = c then owed else 0)
    (balance : (t (s.tallyOf adm.car)).inFlight + adm.pending = (s.tallyOf adm.car).inFlight + owed)
    (room : (t (s.tallyOf adm.car)).aboardMax + (t (s.tallyOf adm.car)).inFlight ≤ s.capacity) (c : Car) :
    ((s.retallied adm t).get c).inFlight + g.owed c = (s.tallyOf c).inFlight + h.owed c ∧
      ((s.retallied adm t).get c).aboardMax + ((s.retallied adm t).get c).inFlight ≤ s.capacity := by
  rw [others, owed_some c admission]
  by_cases same : adm.car = c
  · subst same
    rw [if_pos rfl, if_pos rfl, State.retallied, PerCar.get_set]
    exact ⟨balance, room⟩
  · rw [if_neg same, if_neg same, State.retallied, PerCar.get_set_other _ _ (Ne.symm same)]
    exact ⟨rfl, (ok.seats c).2⟩

/-- An admission that is over, the tallies and the table following, at a gate that takes a state fit for it. -/
theorem Tends.settled {t : Tally → Tally} {ptb : PassTable} (found : s.gate? a = some g) (admission : g.admission = some adm)
    (address : h.address = g.address) (ended : h.admission = none) (verdict : h.verdict = g.verdict) (fits : s.fits g → s.fits h)
    (table : s.ptb.law → ptb.law)
    (tallied : s.gatesOk → adm.pending ≤ (s.tallyOf adm.car).inFlight →
      (t (s.tallyOf adm.car)).inFlight + adm.pending = (s.tallyOf adm.car).inFlight ∧
      (t (s.tallyOf adm.car)).aboardMax + (t (s.tallyOf adm.car)).inFlight ≤ (s.tallyOf adm.car).aboardMax + (s.tallyOf adm.car).inFlight)
    (l : Link) :
    Tends f s { s with glm := (s.setGate h).glm, tally := s.retallied adm t, ptb := ptb, slp := l } := by
  refine .trans (.exchange found address (fun k => by rw [verdict]; exact id) fits table fun ok => ?_) (.link _ l)
  have pending : adm.pending ≤ (s.tallyOf adm.car).inFlight := by
    have := owed_le ok found adm.car
    rwa [owed_some _ admission, if_pos rfl] at this
  obtain ⟨balance, room⟩ := tallied ok pending
  have before := (ok.seats adm.car).2
  exact seats_follow (owed := 0) ok admission (fun c => by rw [owed_none c ended, ite_self]) (by omega) (by omega)

/-- A gate whose admission is over may go to rest. -/
theorem fits_rest (admission : g.admission = some adm) (fits : s.fits g) :
    s.fits { g with admission := none, state := s.resting g } := by
  refine ⟨resting_ready, fun timer => ?_, nofun⟩
  have query := fits.2.1 timer
  rw [(fits.2.2 adm admission).1] at query
  exact nomatch query

/-- A gate's record without its admission. -/
theorem fits_over (fits : s.fits g) : s.fits { g with admission := none } := ⟨fits.1, fits.2.1, nofun⟩

theorem Tends.unknownFate (a : Nat) (s : State) : Tends f s (Machine.unknownFate a s) := by
  cases found : s.gate? a with
  | none =>
    rw [Machine.unknownFate, found]
    exact .refl s
  | some g =>
    cases admission : g.admission with
    | none =>
      rw [unknownFate_none found admission]
      exact .refl s
    | some adm =>
      obtain ⟨q, fate⟩ := unknownFate_eq found admission
      rw [fate]
      refine .settled (h := { g with admission := none }) found admission rfl rfl rfl fits_over
        (fun law => settle_law law fun _ => PassTable.release_law law _ _) (fun _ pending => ?_) q
      dsimp only
      omega

variable {k : Hand} (hk : Steady k)
include hk

theorem Tends.abandonAdmission (a : Nat) (s : State) : Tends f s (Machine.abandonAdmission k a s) := by
  cases found : s.gate? a with
  | none =>
    rw [Machine.abandonAdmission, found]
    exact .refl s
  | some g =>
    cases admission : g.admission with
    | none =>
      rw [Machine.abandonAdmission, found]
      dsimp only
      rw [admission]
      exact .refl s
    | some adm =>
      obtain ⟨q, abandoned⟩ := abandonAdmission_eq (k := k) found admission
      rw [abandoned]
      refine .trans (.settled (h := { g with admission := none, state := s.resting g }) found admission rfl rfl rfl
        (fits_rest admission) (fun law => settle_law law fun _ => PassTable.abandon_law law _ _ _ _) (fun _ pending => ?_) q)
        (.examineWindow hk _ _)
      dsimp only
      omega

theorem Tends.onePassage (a : Nat) (s : State) : Tends f s (Machine.onePassage k a s) := by
  cases found : s.gate? a with
  | none =>
    rw [Machine.onePassage, found]
    exact .refl s
  | some g =>
    cases admission : g.admission with
    | none =>
      rw [Machine.onePassage, found]
      dsimp only
      rw [admission]
      exact .refl s
    | some adm =>
      have some_pending : s.gatesOk → 1 ≤ adm.pending := fun ok =>
        ((ok.windows g (gate?_spec found).1).2.2 adm admission).2.1
      by_cases last : adm.pending - 1 = 0
      · obtain ⟨q, passed⟩ := onePassage_last (k := k) found admission last
        rw [passed]
        refine .trans (.settled (h := { g with admission := none, state := s.resting g }) found admission rfl rfl rfl
          (fits_rest admission) (fun law => settle_law law fun _ => PassTable.passage_law law _) (fun ok pending => ?_) q)
          (.examineWindow hk _ _)
        have := some_pending ok
        dsimp only
        omega
      · rw [onePassage_next found admission last]
        refine .exchange (h := { g with admission := some { adm with pending := adm.pending - 1, passed := adm.passed + 1 } })
          found rfl (fun _ => id) ?_ (fun law => settle_law law fun _ => PassTable.passage_law law _) fun ok => ?_
        · rintro ⟨ready, query, passing⟩
          refine ⟨ready, query, fun x member => ?_⟩
          cases member
          obtain ⟨state, -, busy, car⟩ := passing adm admission
          exact ⟨state, by dsimp only; omega, busy, car⟩
        · have pending := owed_le ok found adm.car
          rw [owed_some _ admission, if_pos rfl] at pending
          have room := (ok.seats adm.car).2
          have := some_pending ok
          exact seats_follow (owed := adm.pending - 1) ok admission (fun c => by rw [owed_some c rfl]) (by dsimp only; omega)
            (by dsimp only; omega)

/-- The expiry of a query timer that runs. -/
theorem Tends.queryExpired (a : Nat) (s : State) (runs : ∀ g, s.gate? a = some g → g.queryTimer.isSome = true) :
    Tends f s (Machine.queryExpired k a s) := by
  cases found : s.gate? a with
  | none =>
    rw [Machine.queryExpired, found]
    exact .refl s
  | some g =>
    obtain ⟨q, expired⟩ := queryExpired_eq (k := k) found
    rw [expired]
    refine .trans (.trans (.setGate (h := { g.queryEnded .timeout with
      verdict := some (.refuse .unknown), carried := false, state := s.resting g }) found ⟨rfl, rfl, nofun, fun fits => ?_⟩)
      (.link _ q)) (.examineWindow hk g.group _)
    refine ⟨resting_ready, nofun, fun x member => ?_⟩
    have query := fits.2.1 (runs g found)
    rw [(fits.2.2 x member).1] at query
    exact nomatch query

/-! ## Access (R160, R161) -/

theorem Tends.accessEffect (slot : SlotId) (r : AccessRequest) (result : AccessResult) (s : State) :
    Tends f s (Machine.accessEffect k slot r result s) := by
  have noted : ∀ note : Bool, Tends f s (Machine.onGate r.gate (fun g => { g with lockNote := note }) s) := by
    intro note
    refine .onGateRest ?_ ?_ ?_ ?_ ?_ ?_ r.gate s <;> intro g
    exacts [rfl, rfl, rfl, .inl rfl, rfl, fun _ => id]
  have gaveUp : Tends f s (match s.gate? r.gate with
      | some g => if g.admission.any (fun adm => adm.staff == some slot) then Machine.abandonAdmission k r.gate s else s
      | none => s) := by
    split
    · exact .ite (fun _ => .abandonAdmission hk _ s) (fun _ => .refl s)
    · exact .refl s
  unfold Machine.accessEffect
  split
  · refine .trans (noted true) ?_
    dsimp only
    generalize Machine.onGate r.gate (fun g => { g with lockNote := true }) s = t
    split
    · rename_i g found
      refine .ite (fun shut => ?_) (fun _ => .refl t)
      refine .gateTo fun h at_h => ?_
      obtain rfl : g = h := Option.some.inj (found.symm.trans at_h)
      have apart : g.state ≠ .query ∧ g.state ≠ .passing := by
        constructor <;> intro state <;> simp [state] at shut
      refine revises_state nofun (fun fits timer => absurd (fits.2.1 timer) apart.1) (fun fits admission => ?_)
      obtain ⟨x, member⟩ := Option.isSome_iff_exists.1 admission
      exact absurd (fits.2.2 x member).1 apart.2
    · exact .refl t
  · refine .trans (noted false) ?_
    dsimp only
    generalize Machine.onGate r.gate (fun g => { g with lockNote := false }) s = t
    split
    · rename_i g found
      refine .ite (fun locked => ?_) (fun _ => .refl t)
      refine .gateToRest fun h at_h fits => ?_
      obtain rfl : g = h := Option.some.inj (found.symm.trans at_h)
      have state := beq_iff_eq.1 locked
      exact idle_of_state fits (by rw [state]; nofun) (by rw [state]; nofun)
    · exact .refl t
  · exact gaveUp
  · exact gaveUp
  · exact .refl s

theorem Tends.completeAccess (slot : SlotId) (result : AccessResult) (data : Option Nat) (s : State) :
    Tends f s (Machine.completeAccess k slot result data s) := by
  unfold Machine.completeAccess
  split
  · exact .refl s
  · exact .trans (.loopRest s { s.glm with slots := s.glm.slots.set slot none } id rfl rfl)
      (.trans (.post _ _) (.accessEffect hk _ _ _ _))

theorem Tends.completeAllFor (a : Nat) (result : AccessResult) (s : State) : Tends f s (Machine.completeAllFor k a result s) :=
  .forEach _ _ (fun i t => .ite (fun _ => .completeAccess hk i _ _ t) (fun _ => .refl t)) s

theorem Tends.thirdPollPassed (p : Poll) (s : State) : Tends f s (Machine.thirdPollPassed k p s) := by
  unfold Machine.thirdPollPassed
  split
  · exact .refl s
  · exact .ite (fun _ => .completeAccess hk _ _ _ s) (fun _ => .refl s)

/-! ## Going offline and faults (R145, R146) -/

omit hk in
/-- A gate whose query ends or whose persons pending are settled, its state staying. -/
theorem fate_gate? (found : s.gate? a = some g) : (Machine.unknownFate a s).gate? a = some { g with admission := none } := by
  cases admission : g.admission with
  | none =>
    rw [unknownFate_none found admission, found, ← admission]
  | some adm =>
    obtain ⟨q, fate⟩ := unknownFate_eq found admission
    rw [fate]
    exact gate?_setGate_same (h := { g with admission := none }) found rfl

omit hk in
/-- A gate that goes offline, up to the completion of its access requests: nothing of its admission, its query and its verdict
stays. -/
theorem Tends.leaves (found : s.gate? a = some g) :
    let s := Machine.unknownFate a s
    let s := if g.state == .query then Machine.endQuery a .cancelled s else s
    let s := Machine.onGate a (fun h => { h with verdict := none, carried := false, misses := 3 }) s
    Tends f s (Machine.onGate a (fun h => { h with state := .offline }) s) := by
  intro s1 s2 s3
  have at_s1 : s1.gate? a = some { g with admission := none } := fate_gate? found
  have at_s2 : ∃ h, s2.gate? a = some h ∧ h.admission = none ∧ h.state = g.state ∧ (g.state = .query → h.queryTimer = none) := by
    by_cases query : g.state = .query
    · refine ⟨GateRec.queryEnded { g with admission := none } .cancelled, ?_, rfl, rfl, fun _ => rfl⟩
      show (if g.state == .query then Machine.endQuery a .cancelled s1 else s1).gate? a = _
      rw [if_pos (by simp [query])]
      exact gate?_onGate at_s1 rfl
    · refine ⟨{ g with admission := none }, ?_, rfl, rfl, fun q => absurd q query⟩
      show (if g.state == .query then Machine.endQuery a .cancelled s1 else s1).gate? a = _
      rw [if_neg (by simp [query])]
      exact at_s1
  obtain ⟨h, at_h, gone, state, timer⟩ := at_s2
  have at_s3 : s3.gate? a = some { h with verdict := none, carried := false, misses := 3 } := gate?_onGate at_h rfl
  refine .onGate fun x at_x => ?_
  obtain rfl := Option.some.inj (at_s3.symm.trans at_x)
  refine revises_state nofun (fun fits runs => ?_) (fun _ admission => ?_)
  · have query : h.state = .query := fits.2.1 runs
    rw [show h.queryTimer = none from timer (state.symm.trans query)] at runs
    exact nomatch runs
  · rw [show h.admission = none from gone] at admission
    exact nomatch admission

theorem Tends.goOffline (a : Nat) (s : State) : Tends f s (Machine.goOffline k a s) := by
  unfold Machine.goOffline
  split
  · exact .refl s
  · rename_i g found
    have fate : Tends f s (Machine.unknownFate a s) := .unknownFate a s
    have leaves := Tends.leaves (f := f) found
    dsimp only at leaves ⊢
    refine .trans fate ?_
    generalize Machine.unknownFate a s = s1 at leaves ⊢
    refine .trans (t := if (g.state == .query) = true then Machine.endQuery a .cancelled s1 else s1)
      (.ite (fun _ => .endQuery a _ s1) (fun _ => .refl s1)) ?_
    generalize (if (g.state == .query) = true then Machine.endQuery a .cancelled s1 else s1) = s2 at leaves ⊢
    have unjudged : Tends f s2 (Machine.onGate a (fun h => { h with verdict := none, carried := false, misses := 3 }) s2) := by
      refine .onGateRest ?_ ?_ ?_ ?_ ?_ ?_ a s2 <;> intro g
      exacts [rfl, rfl, rfl, .inl rfl, rfl, nofun]
    have reported : ∀ u : State, Tends f u (if (g.state == .lockedOut) = true then Machine.gateReport a g.state .unlocked u else u) :=
      fun u => .ite (fun _ => .gateReport a _ _ u) (fun _ => .refl u)
    refine .trans unjudged (.trans leaves (.trans (.completeAllFor hk a .noReply _) (.trans (.gateReport a g.state .offline _) ?_)))
    exact .trans (reported _) (.examineWindow hk _ _)

theorem Tends.gateFault (a code : Nat) (s : State) : Tends f s (Machine.gateFault k a code s) := by
  have coded : ∀ t : State, Tends f t (Machine.onGate a (fun h => { h with code := some code }) t) := by
    intro t
    refine .onGateRest ?_ ?_ ?_ ?_ ?_ ?_ a t <;> intro g
    exacts [rfl, rfl, rfl, .inl rfl, rfl, fun _ => id]
  unfold Machine.gateFault
  split
  · exact .refl s
  · rename_i g found
    refine .ite (fun _ => coded s) (fun _ => ?_)
    dsimp only
    have cleared : ∃ t h, (if (g.state == .query) = true then Machine.endQuery a .cancelled s else Machine.unknownFate a s) = t ∧
        Tends f s t ∧ t.gate? a = some h ∧ ((h.state = .query → h.queryTimer = none) ∧ (h.state ≠ .query → h.admission = none)) := by
      by_cases query : g.state = .query
      · refine ⟨_, _, if_pos (by simp [query]), .endQuery a _ s, gate?_onGate found rfl, fun _ => rfl, fun other => absurd query other⟩
      · refine ⟨_, _, if_neg (by simp [query]), .unknownFate a s, fate_gate? found, fun is => absurd is query, fun _ => rfl⟩
    obtain ⟨t, h, is_t, tends, at_h, timer, admission⟩ := cleared
    rw [is_t]
    refine .trans tends (.trans (coded t) (.trans (.gateTo fun x at_x => ?_) (.examineWindow hk _ _)))
    obtain rfl := Option.some.inj ((gate?_onGate (upd := fun h => { h with code := some code }) at_h rfl).symm.trans at_x)
    refine revises_state nofun (fun fits runs => ?_) (fun fits has => ?_)
    · have query : h.state = .query := fits.2.1 runs
      rw [show h.queryTimer = none from timer query] at runs
      exact nomatch runs
    · obtain ⟨x, member⟩ := Option.isSome_iff_exists.1 has
      have passing : h.state = .passing := (fits.2.2 x member).1
      rw [show h.admission = none from admission (by rw [passing]; nofun)] at has
      exact nomatch has

omit hk in
theorem Tends.leaveFault (a : Nat) (m : GateMsg) (s : State) : Tends f s (Machine.leaveFault a m s) := by
  unfold Machine.leaveFault
  split
  · rename_i g found
    refine .ite (fun fault => ?_) (fun _ => .refl s)
    have uncoded : Tends f s (Machine.onGate a (fun h => { h with code := none }) s) := by
      refine .onGateRest ?_ ?_ ?_ ?_ ?_ ?_ a s <;> intro g
      exacts [rfl, rfl, rfl, .inl rfl, rfl, fun _ => id]
    refine .trans uncoded (.gateToRest fun h at_h fits => ?_)
    obtain rfl := Option.some.inj ((gate?_onGate (upd := fun h => { h with code := none }) found rfl).symm.trans at_h)
    simp only [Bool.and_eq_true, beq_iff_eq] at fault
    exact idle_of_state fits (by rw [show GateRec.state _ = g.state from rfl, fault.1]; nofun)
      (by rw [show GateRec.state _ = g.state from rfl, fault.1]; nofun)
  · exact .refl s

omit hk in
theorem Tends.comeOnline (a : Nat) (s : State) : Tends f s (Machine.comeOnline a s) := by
  unfold Machine.comeOnline
  split
  · rename_i g found
    refine .ite (fun offline => .gateToRest fun h at_h fits => ?_) (fun _ => .refl s)
    obtain rfl : g = h := Option.some.inj (found.symm.trans at_h)
    have state := beq_iff_eq.1 offline
    exact idle_of_state fits (by rw [state]; nofun) (by rw [state]; nofun)
  · exact .refl s

omit hk in
theorem Tends.deliver (a : Nat) (s : State) : Tends f s (Machine.deliver a s) := by
  refine .onGate fun g _ => ?_
  split
  · exact ⟨rfl, rfl, nofun, id⟩
  · exact ⟨rfl, rfl, fun _ => id, id⟩

/-! ## Polling (R144) -/

omit hk in
theorem nextPoll_member (l : GateLoop) (n cycle cursor : Nat) {x : Nat × GateRec} (next : l.nextPoll n cycle cursor = some x) :
    x.2 ∈ l.gates := by
  induction n generalizing cycle cursor with
  | zero => exact nomatch next
  | succ n ih =>
    unfold GateLoop.nextPoll at next
    split at next
    · rename_i g found
      cases next
      exact List.mem_of_find?_eq_some found
    · exact ih _ _ next

omit hk in
/-- Among records with distinct addresses each is the one found at its own. -/
theorem find?_address {l : List GateRec} (distinct : (l.map GateRec.address).Nodup) (member : g ∈ l) :
    l.find? (fun h => h.address == g.address) = some g := by
  induction l with
  | nil => exact absurd member List.not_mem_nil
  | cons x rest ih =>
    rw [List.map_cons] at distinct
    obtain ⟨fresh, rest_distinct⟩ := List.nodup_cons.1 distinct
    rcases List.mem_cons.1 member with rfl | later
    · exact List.find?_cons_of_pos (by simp)
    · rw [List.find?_cons_of_neg]
      · exact ih rest_distinct later
      · simp only [beq_iff_eq]
        exact fun same => fresh (same ▸ List.mem_map_of_mem later)

omit hk in
theorem Tends.sendPoll (cycle : Nat) (g : GateRec) (s : State) (member : g ∈ s.glm.gates) (cycles : s.glm.cycle < 8 → cycle < 8) :
    Tends f s (Machine.sendPoll cycle g s) := by
  unfold Machine.sendPoll
  refine .boarding s _ s.tally s.ptb (fun ok => ?_) (fun _ => id) (fun ok b k admits => ?_)
  · have found : s.gate? g.address = some g := find?_address (addresses_nodup ok.list) member
    have exchanged : State.gatesOk (s.setGate { g with carried := g.verdict.isSome }) :=
      gatesOk_exchange (tally := s.tally) (ptb := s.ptb) (h := { g with carried := g.verdict.isSome }) ok found rfl
        (ok.windows g member) ok.table fun c => ⟨rfl, (ok.seats c).2⟩
    exact gatesOk_of_eq (s := s.setGate { g with carried := g.verdict.isSome }) (fun law => ⟨law.1, cycles law.2⟩) rfl rfl rfl rfl rfl exchanged
  · exact admits_setGate (h := { g with carried := g.verdict.isSome }) (find?_address (addresses_nodup ok.list) member) rfl (fun _ => id) admits

omit hk in
theorem Tends.pollNext (s : State) : Tends f s (Machine.pollNext s) := by
  have idle : Tends f s { s with glm := { s.glm with poll := none } } := .loopRest s { s.glm with poll := none } id rfl rfl
  unfold Machine.pollNext
  dsimp only
  refine .trans idle (.ite (fun _ => ?_) (fun _ => .refl _))
  split
  · rename_i next
    exact .sendPoll _ _ _ (nextPoll_member _ _ _ _ next) (fun cycle => nextPoll_cycle _ _ _ _ cycle next)
  · exact .refl _

theorem Tends.stopLoop (s : State) : Tends f s (Machine.stopLoop k s) := by
  unfold Machine.stopLoop
  refine .ite (fun _ => ?_) (fun _ => .refl s)
  have halted : Tends f s { s with glm := { s.glm with running := false, poll := none } } :=
    .loopRest s { s.glm with running := false, poll := none } id rfl rfl
  have left : ∀ t : State, Tends f t (Machine.forEach (s.glm.gates.map GateRec.address) (fun a t =>
      if (t.gate? a).any (fun g => g.state != .offline) then Machine.goOffline (Machine.withoutClose k) a t else t) t) :=
    fun t => .forEach _ _ (fun a u => .ite (fun _ => .goOffline hk.withoutClose a u) (fun _ => .refl u)) t
  refine .trans halted (.trans (left _) (.trans (.closeSealed hk { s with glm := { s.glm with running := false, poll := none } } _) ?_))
  exact .loopRest _ _ (fun law => ⟨law.1, Nat.zero_lt_succ 7⟩) rfl rfl

omit hk in
theorem Tends.startLoop (s : State) : Tends f s (Machine.startLoop s) := by
  unfold Machine.startLoop
  refine .ite (fun _ => .refl s) (fun _ => .trans ?_ (.pollNext _))
  exact .loopRest s { s.glm with running := true, cycle := 0, cursor := 0 } (fun law => ⟨law.1, Nat.zero_lt_succ 7⟩) rfl rfl

end

end Sys2Proof.Machine
end

section
/-! SUPPORT. Brakes, haulage, modes and links under the laws of boarding, and every hand-over nested as deeply as the model follows. -/

namespace Sys2Proof.Machine

section
variable {f : Frame} {s t : State}

/-- What keeps the mode of a line that carries passengers does so whether it is asked or not. -/
theorem Tends.of_keeping (h : Tends { f with keepsMode := true } s t) : Tends f s t :=
  ⟨h.overrun, fun clear => { h.core clear with mode := fun _ => (h.core clear).mode rfl }⟩

/-! ## The Haulage Controller (R24, R25) -/

/-- The berth record written, the clearance marks as they then are (R25, R114). -/
theorem setBerth_eq (b : Berth) (s : State) :
    ∃ cleared, setBerth b s = { s with hac := { s.hac with berth := b }, dru := { s.dru with cleared := cleared } } := by
  unfold setBerth
  split
  · rename_i same
    exact ⟨s.dru.cleared, by rw [← same]⟩
  · exact ⟨⟨false, false⟩, rfl⟩

/-- A moving line goes to another state of motion (R24). -/
theorem Tends.setHaulage (new : HState) (s : State) (moving : s.hac.state ≠ .held) (stays : new ≠ .held)
    (berthing : f.addsNoWait = true → new ≠ .berthing) : Tends f s (Machine.setHaulage new s) := by
  rw [setHaulage_moving moving stays]
  exact .haulMoving s _ _ s.dru.cleared moving fun q is => absurd is (berthing q)

theorem Tends.enterStopping (s : State) (moving : s.hac.state ≠ .held) : Tends f s (Machine.enterStopping s) := by
  rw [enterStopping_moving moving]
  exact .haulMoving s _ _ s.dru.cleared moving fun _ is => nomatch is

theorem Tends.haulageOnStop (kind : StopKind) (s : State) : Tends f s (Machine.haulageOnStop kind s) := by
  have stops : s.hac.state ≠ .held → Tends f s (Machine.sendWord (Machine.enterStopping s)) := fun moving =>
    .trans (.enterStopping s moving) (.sendWord _)
  have ramps : s.hac.state ≠ .held → Tends f s (if (s.hac.vRef == 0) = true then Machine.enterStopping s
      else { s with hac := { s.hac with ramp := true } }) := fun moving =>
    .ite (fun _ => .enterStopping s moving) (fun _ => .haulRest s _ rfl rfl)
  unfold Machine.haulageOnStop
  cases kind
  case controlled =>
    dsimp only
    split
    case h_1 | h_2 | h_3 =>
      rename_i state
      exact ramps (by rw [state]; nofun)
    case h_4 =>
      rename_i state
      exact .enterStopping s (by rw [state]; nofun)
    all_goals exact .refl s
  case brake | emergency =>
    dsimp only
    split
    case h_1 | h_2 | h_3 | h_4 | h_5 =>
      rename_i state
      exact stops (by rw [state]; nofun)
    all_goals exact .refl s

theorem Tends.heldFromStopping (s : State) (stopping : s.hac.state = .stopping) : Tends f s (Machine.heldFromStopping s) := by
  obtain ⟨q, held⟩ := heldFromStopping_eq stopping
  rw [held]
  refine .trans (.haulMoving s _ _ _ (by rw [stopping]; nofun) ?_) (.link _ q)
  exact fun _ is => nomatch is

theorem Tends.departed (s : State) (releasing : s.hac.state = .releasing) : Tends f s (Machine.departed s) :=
  .trans (.setHaulage .motoring s (by rw [releasing]; nofun) (by decide) (fun _ => by decide)) (.post _ _)

end

section
variable {k : Hand} (hk : Steady k) {f : Frame}
include hk

/-! ## Release on arrival (R109) -/

theorem Tends.autoReleaseSide (c : Car) (d : Side) (i : Nat) (s : State) (adds : f.addsNoWait = false)
    (may : s.overrun = false → s.lmu.mode.carries ∧ s.atStop) : Tends f s (Machine.autoReleaseSide k c d i s) := by
  unfold Machine.autoReleaseSide
  refine .ite (fun allowed => .ite (fun _ => ?_) (fun _ => .doorReport c d _ _ _ s)) (fun _ => .refl s)
  simp only [State.releaseAllowed, State.isHeld, State.sbApplied, Bool.and_eq_true, beq_iff_eq] at allowed
  obtain ⟨⟨⟨held, applied⟩, still⟩, -⟩ := allowed
  refine hk.run f _ s (fun clear => ⟨fun _ => ⟨⟨held, applied, still⟩, .inl (may clear)⟩, fun _ => nofun⟩) (fun _ => trivial) fun q => ?_
  exact nomatch adds.symm.trans q

theorem Tends.autoRelease (i : Nat) (onA onB : Bool) (s : State) (adds : f.addsNoWait = false)
    (stands : s.overrun = false → s.atStop) : Tends f s (Machine.autoRelease k i onA onB s) := by
  unfold Machine.autoRelease
  refine .ite (fun carries => .of_keeping ?_) (fun _ => .refl s)
  have carries : s.lmu.mode.carries := by simpa using carries
  have kept : ∀ {s t : State}, Tends.Core { f with keepsMode := true } s t → s.lmu.mode.carries ∧ s.atStop →
      t.lmu.mode.carries ∧ t.atStop :=
    fun core ⟨carries, stands⟩ => ⟨by rw [core.mode rfl carries]; exact carries, core.atStop stands⟩
  refine .forEachKeeping (fun u => u.lmu.mode.carries ∧ u.atStop) _ _ (fun c u may => ?_) (fun core => kept core) s (fun clear => ⟨carries, stands clear⟩)
  have car : ∀ on : Bool, Tends { f with keepsMode := true } u (if on = true then
      Machine.forEach (u.platformSides c i) (fun d v => Machine.autoReleaseSide k c d i v) u else u) := by
    intro on
    refine .ite (fun _ => ?_) (fun _ => .refl u)
    exact Tends.forEachKeeping (f := { f with keepsMode := true }) (fun v => v.lmu.mode.carries ∧ v.atStop) _ _ (fun d v may => .autoReleaseSide hk c d i v adds may) (fun core => kept core) u may
  exact car _

theorem Tends.berthArrive (s : State) (berthing : s.hac.state = .berthing) : Tends f s (Machine.berthArrive k s) := by
  refine .of_berthing ?_ berthing
  have moving : s.hac.state ≠ .held := by rw [berthing]; nofun
  have arrives : ∀ b : Berth, ∃ h o cleared, h.state = .held ∧ h.berth = b ∧ arrivePlan (setBerth b (Machine.setHaulage .held s)) =
      { s with hac := h, osp := o, dru := { s.dru with cleared := cleared } } := by
    intro b
    rw [setHaulage_held moving]
    obtain ⟨cleared, berthed⟩ := setBerth_eq b { s with hac := { s.hac with state := .held }, osp := s.restingSupervisor }
    rw [berthed]
    exact ⟨_, _, cleared, rfl, rfl, rfl⟩
  have tail : ∀ (b : Berth) (r : TripReport), Tends { f with addsNoWait := false } s (match b.stop with
      | some i => Machine.autoRelease k i b.onA b.onB (Machine.post (.trip r) (arrivePlan (setBerth b (Machine.setHaulage .held s))))
      | none => Machine.post (.trip r) (arrivePlan (setBerth b (Machine.setHaulage .held s)))) := by
    intro b r
    obtain ⟨h, o, cleared, held, berth, arrived⟩ := arrives b
    rw [arrived]
    have stands : Tends { f with addsNoWait := false } s
        (Machine.post (.trip r) { s with hac := h, osp := o, dru := { s.dru with cleared := cleared } }) :=
      .trans (.haulMoving s h o cleared moving fun q => nomatch q) (.post _ _)
    split
    · rename_i i stop
      refine .trans stands (.autoRelease hk i _ _ _ rfl fun _ => ?_)
      rw [post_eq_taking]
      exact ⟨held, by rw [show State.hac _ = h from rfl, berth, stop]; rfl⟩
    · exact stands
  exact tail _ _

/-! ## The Brake Sequencer (R70 to R86) -/

omit hk in
theorem commanded_applied {r : BrakeRec} (x : Reading) (bound : Timer) (applied : r.state = .applied) :
    (r.commanded .apply x bound).state = .applied := by
  unfold BrakeRec.commanded
  split
  · exact applied
  · simp only [BrakeRec.commandApply, applied]

omit hk in
theorem Tends.rawCommand (b : BrakeId) (c : BrakeCmd) (s : State) (allowed : s.commandAllowed b c = true) :
    Tends f s (Machine.rawCommand b c s) := by
  refine .brakes s _ id id fun e d waits applied => ?_
  cases b
  case eb => exact applied
  case sb =>
    cases c
    case apply => exact commanded_applied _ _ applied
    case release =>
      have secured := allSecured_iff.1 (Bool.and_eq_true_iff.1 (show (s.allSecured && s.bothFresh) = true from allowed)).1 e d
      exact nomatch secured.symm.trans waits

theorem Tends.handOverBrakes (before : BrakeState × BrakeState) (s : State) : Tends f s (Machine.handOverBrakes k before s) := by
  unfold Machine.handOverBrakes
  split
  · exact .refl s
  · exact hk.brakesChanged s

theorem Tends.commandBrake (b : BrakeId) (c : BrakeCmd) (s : State) : Tends f s (Machine.commandBrake k b c s) := by
  unfold Machine.commandBrake
  exact .ite (fun allowed => .trans (.rawCommand b c s allowed) (.handOverBrakes hk _ _)) (fun _ => .refl s)

omit hk in
theorem Tends.stopCommands (kind : StopKind) (s : State) : Tends f s (Machine.stopCommands kind s) := by
  cases kind with
  | controlled => exact .ite (fun _ => .rawCommand .sb .apply s rfl) (fun _ => .refl s)
  | brake => exact .rawCommand .sb .apply s rfl
  | emergency => exact .trans (.rawCommand .sb .apply s rfl) (.rawCommand .eb .apply _ rfl)

omit hk in
theorem Tends.setLatch (kind : StopKind) (cause : StopCause) (s : State) : Tends f s (Machine.setLatch kind cause s) := by
  unfold Machine.setLatch
  split
  · exact .brakes s _ (fun _ => rfl) id (fun _ _ _ => id)
  · exact .refl s

omit hk in
theorem setLatch_set (cause : StopCause) (s : State) : (Machine.setLatch .emergency cause s).bsq.latch.isSome = true := by
  unfold Machine.setLatch
  split
  · rfl
  · rename_i unset
    cases latch : s.bsq.latch with
    | none => exact absurd latch (unset rfl)
    | some c => rfl

/-- The notice of an emergency comes with the latch (R78, R166). -/
theorem Tends.emergencyMode (kind : StopKind) (s : State) (mild : f.keepsMode = true → kind ≠ .emergency)
    (latched : kind = .emergency → s.bsq.latch.isSome = true) : Tends f s (Machine.emergencyMode k kind s) := by
  unfold Machine.emergencyMode
  refine .ite (fun emergency => ?_) (fun _ => .refl _)
  simp only [Bool.and_eq_true, beq_iff_eq] at emergency
  refine hk.mode _ _ _ _ (fun _ => ⟨.inr (.inr rfl), fun _ => latched emergency.1⟩) ?_
  cases keeps : f.keepsMode
  · rfl
  · exact absurd emergency.1 (mild keeps)

/-- What follows when the Haulage Controller has acted on a stop that is taken (R74 to R79). -/
abbrev stopFollows (k : Hand) (kind : StopKind) (cause : StopCause) (event : BrakeEvent) (before : BrakeState × BrakeState) (s : State) :
    State :=
  let s := Machine.setLatch kind cause (Machine.stopCommands kind s)
  k .settle (Machine.handOverBrakes k before (Machine.emergencyMode k kind
    (Machine.post (.brake { brakeReport s event with kind := some kind, cause := some cause }) s)))

omit hk in
/-- A stop that is taken, in three parts: the abort of a test with the record, what the Haulage Controller does, and what follows. -/
theorem takeStop_eq (k : Hand) (kind : StopKind) (cause : StopCause) (s : State) : ∃ event r,
    Machine.takeStop k kind cause s = stopFollows k kind cause event (k (.abortTest .stop) s).brakeStates (Machine.haulageOnStop kind
      { k (.abortTest .stop) s with bsq := { (k (.abortTest .stop) s).bsq with stop := some r } }) := ⟨_, _, rfl⟩

theorem Tends.stopFollows (kind : StopKind) (cause : StopCause) (event : BrakeEvent) (before : BrakeState × BrakeState) (s : State)
    (mild : f.keepsMode = true → kind ≠ .emergency) : Tends f s (Machine.stopFollows k kind cause event before s) := by
  refine .trans (.stopCommands kind _) (.trans (.setLatch kind cause _)
    (.trans (.post _ _) (.trans (.emergencyMode hk kind _ mild ?_) (.trans (.handOverBrakes hk _ _) (hk.settle _)))))
  rintro rfl
  rw [post_bsq]
  exact setLatch_set cause _

theorem Tends.takeStop (kind : StopKind) (cause : StopCause) (s : State) (mild : f.keepsMode = true → kind ≠ .emergency) :
    Tends f s (Machine.takeStop k kind cause s) := by
  obtain ⟨event, r, taken⟩ := takeStop_eq k kind cause s
  rw [taken]
  refine .trans (hk.abort .stop s) ?_
  generalize k (.abortTest .stop) s = t
  have recorded : Tends f t { t with bsq := { t.bsq with stop := some r } } :=
    .brakesRest t { t.bsq with stop := some r } rfl rfl rfl
  exact .trans recorded (.trans (.haulageOnStop kind _) (.stopFollows hk kind cause event _ _ mild))

theorem Tends.orderStopNow (kind : StopKind) (cause : StopCause) (s : State) (mild : f.keepsMode = true → kind ≠ .emergency) :
    Tends f s (Machine.orderStopNow k kind cause s) := by
  unfold Machine.orderStopNow
  exact .ite (fun _ => .takeStop hk kind cause s mild) (fun _ => .refl s)

omit hk in
theorem Tends.endStop (s : State) : Tends f s (Machine.endStop s) := by
  obtain ⟨q, ended⟩ := endStop_eq s
  rw [ended]
  exact .trans (.brakesRest s { s.bsq with stop := none } rfl rfl rfl) (.link _ q)

theorem Tends.settleNow (s : State) : Tends f s (Machine.settleNow k s) := by
  have set : Tends f s (if s.setDue = true then k (.command .sb .apply) s else s) :=
    .ite (fun _ => hk.command _ _ s) (fun _ => .refl s)
  unfold Machine.settleNow
  refine .trans set ?_
  dsimp only
  generalize (if s.setDue = true then k (.command .sb .apply) s else s) = t
  have rested : Tends f t (if (t.hac.state == .stopping && t.ptr.standstill && t.sbApplied) = true then Machine.heldFromStopping t
      else t) := by
    refine .ite (fun stopped => .heldFromStopping t ?_) (fun _ => .refl t)
    simp only [Bool.and_eq_true, beq_iff_eq] at stopped
    exact stopped.1.1
  exact .trans rested (.ite (fun _ => .endStop _) (fun _ => .refl _))

theorem Tends.interlockNow (s : State) : Tends f s (Machine.interlockNow k s) := by
  unfold Machine.interlockNow
  refine .ite (fun _ => .trans ?_ (hk.command _ _ _)) (fun _ => .refl s)
  exact .ite (fun _ => hk.stop _ _ s fun _ => nofun) (fun _ => hk.abort _ s)

omit hk in
theorem Tends.setTest (t : Option BrakeTest) (torque : Bool) (s : State) (runs : t.isSome = true → s.bsq.test.isSome = true) :
    Tends f s (Machine.setTest t torque s) := .brakes s _ id runs (fun _ _ _ => id)

theorem Tends.abortTestNow (cause : AbortCause) (s : State) : Tends f s (Machine.abortTestNow k cause s) := by
  unfold Machine.abortTestNow
  split
  · exact .refl s
  · exact .trans (.setTest none false s nofun) (.trans (hk.command _ _ _) (.trans (hk.command _ _ _) (.post _ _)))

omit hk in
theorem Tends.passTest (t : BrakeTest) (s : State) : Tends f s (Machine.passTest t s) :=
  .trans (.setTest none false s nofun) (.post _ _)

theorem Tends.testProgress (s : State) : Tends f s (Machine.testProgress k s) := by
  unfold Machine.testProgress
  split
  · exact .refl s
  · rename_i t test
    dsimp only
    split
    · refine .ite (fun _ => .ite (fun _ => ?_) (fun _ => .ite (fun _ => ?_) (fun _ => .refl s))) (fun _ => .refl s)
      · exact .setTest _ true s fun _ => by rw [test]; rfl
      · exact .ite (fun _ => hk.command _ _ s) (fun _ => hk.abort _ s)
    · refine .ite (fun _ => .ite (fun _ => .passTest t s) (fun _ => ?_)) (fun _ => .refl s)
      exact .ite (fun _ => hk.command _ _ s) (fun _ => .refl s)
    · exact .refl s
    · exact .refl s

theorem Tends.haulageOnBrakes (s : State) : Tends f s (Machine.haulageOnBrakes k s) := by
  unfold Machine.haulageOnBrakes
  split
  · rename_i releasing
    exact .ite (fun _ => .departed s releasing) (fun _ => .refl s)
  · rename_i berthing
    exact .ite (fun _ => .berthArrive hk s berthing) (fun _ => .refl s)
  all_goals exact .refl s

/-! ## The Line Mode Unit (R165, R170 to R172) -/

omit hk in
theorem WarmTarget.mode_boards (t : WarmTarget) : t.mode.boards ∧ t.mode ≠ .tripped := by
  cases t
  exacts [⟨.inl (.inl rfl), nofun⟩, ⟨.inl (.inr rfl), nofun⟩, ⟨.inr (.inl rfl), nofun⟩]

theorem Tends.warmingCheck (s : State) : Tends f s (Machine.warmingCheck k s) := by
  unfold Machine.warmingCheck
  refine .ite (fun warm => .of_uncarrying ?_ ?_) (fun _ => .refl s)
  · split
    · exact .refl s
    · exact .ite (fun _ => hk.mode _ _ _ s (fun _ => ⟨.inl (.inr rfl), nofun⟩) rfl)
        (fun _ => hk.mode _ _ _ s (fun _ => ⟨.inl (.inl rfl), nofun⟩) rfl)
    · rename_i t _ _
      obtain ⟨boards, untripped⟩ := t.mode_boards
      exact hk.mode _ _ _ s (fun _ => ⟨boards, fun tripped => absurd tripped untripped⟩) rfl
  · simp only [Bool.and_eq_true, beq_iff_eq] at warm
    rw [warm.1]
    exact nofun

theorem Tends.brakesChangedNow (s : State) : Tends f s (Machine.brakesChangedNow k s) :=
  .trans (.haulageOnBrakes hk s) (.trans (hk.settle _) (.trans (.testProgress hk _) (.warmingCheck hk _)))

theorem Tends.bumpHealth (n : CounterName) (amount : Nat) (s : State) (changes : f.keepsMode = false) :
    Tends f s (Machine.bumpHealth k n amount s) := by
  unfold Machine.bumpHealth
  dsimp only
  have counted : ∀ c : Counter, Tends f s { s with lmu := { s.lmu with health := s.lmu.health.set n c } } := fun c =>
    .modeRest s { s.lmu with health := s.lmu.health.set n c } rfl
  refine .trans (counted { s.lmu.health.get n with count := satCount (s.lmu.health.get n).count amount }) ?_
  refine .ite (fun _ => .trans (.post _ _) (.ite (fun _ => ?_) (fun _ => .refl _))) (fun _ => .refl _)
  exact hk.mode _ _ _ _ (fun _ => ⟨.inl (.inr rfl), nofun⟩) changes

omit hk in
theorem Tends.suspendOrResume (wasQuiet : Bool) (s : State) : Tends f s (Machine.suspendOrResume wasQuiet s) := by
  unfold Machine.suspendOrResume
  dsimp only
  refine .ite (fun _ => ?_) (fun _ => .ite (fun _ => .modeRest s _ rfl) (fun _ => .refl s))
  split
  · exact .modeRest s _ rfl
  · exact .refl s
  · exact .refl s

omit hk in
theorem Tends.modeReport (event : ModeEvent) (before : Mode) (cause : Option ModeCause) (unmet : Option WarmUnmet) (s : State) :
    Tends f s (Machine.modeReport event before cause unmet s) := .post _ s

omit hk in
theorem Tends.startLinks (s : State) : Tends f s (Machine.startLinks s) := by
  refine .forEach _ _ (fun c t => ?_) s
  unfold startLink
  exact .ite (fun _ => .refl t) (fun _ => .setCar t c _)

theorem Tends.stopLinks (s : State) (changes : f.keepsMode = false) : Tends f s (Machine.stopLinks k s) := by
  refine .forEach _ _ (fun c t => ?_) s
  unfold stopLink
  refine .ite (fun _ => ?_) (fun _ => .refl t)
  exact .trans (.setCar t c { t.car c with running := false, timer := none }) (.trans (hk.freshness c .never _ changes) (.setCar _ c _))

theorem Tends.followVariant (v : Variant) (s : State) (changes : f.keepsMode = false) : Tends f s (Machine.followVariant k v s) := by
  unfold Machine.followVariant
  refine .trans (t := if v.keepLinks = true then Machine.startLinks s else Machine.stopLinks k s)
    (.ite (fun _ => .startLinks s) (fun _ => .stopLinks hk s changes)) ?_
  exact .ite (fun _ => .startLoop _) (fun _ => .stopLoop hk _)

theorem Tends.linksOnMode (old : Mode) (e : ModeEntry) (s : State) (changes : f.keepsMode = false) :
    Tends f s (Machine.linksOnMode k old e s) := by
  unfold Machine.linksOnMode
  split
  · exact .followVariant hk _ s changes
  · exact .ite (fun _ => .trans (.startLinks s) (.startLoop _)) (fun _ => .refl s)

theorem Tends.closeAll (s : State) : Tends f s (Machine.closeAll k s) :=
  .forEach _ _ (fun c t => .forEach _ _ (fun d u => hk.close c d u) t) s

theorem Tends.closeOnMode (old new : Mode) (s : State) : Tends f s (Machine.closeOnMode k old new s) := by
  unfold Machine.closeOnMode
  refine .ite (fun _ => .trans ?_ (.closeAll hk _)) (fun _ => .ite (fun _ => .sealAll hk _ s) (fun _ => .refl s))
  exact .ite (fun _ => .sealOpen hk _ s) (fun _ => .refl s)

omit hk in
theorem Tends.supervisorPark (s : State) : Tends f s (Machine.supervisorPark s) := by
  unfold Machine.supervisorPark
  exact .trans (.supervisor s _) (.ite (fun _ => .refl _) (fun _ => .post _ _))

theorem Tends.enterWarming (s : State) : Tends f s (Machine.enterWarming k s) :=
  .trans (.modeRest s { s.lmu with warmTimer := s.boundSec LineFields.tWarm } rfl) (hk.command _ _ _)

theorem Tends.modeFollows (old : Mode) (e : ModeEntry) (s : State) (changes : f.keepsMode = false) :
    Tends f s (Machine.modeFollows k old e s) := by
  have parked : Tends f s (if (e.mode == .parked) = true then
      k (.command .eb .apply) (k (.command .sb .apply) (Machine.supervisorPark s)) else s) :=
    .ite (fun _ => .trans (.supervisorPark s) (.trans (hk.command _ _ _) (hk.command _ _ _))) (fun _ => .refl s)
  unfold Machine.modeFollows
  refine .trans parked (.trans (.closeOnMode hk old e.mode _) (.trans (.linksOnMode hk old e _ changes) ?_))
  exact .ite (fun _ => .enterWarming hk _) (fun _ => .refl _)

/-! ## The Car Link Unit (R94) -/

theorem Tends.freshnessNow (c : Car) (x : Freshness) (s : State) (changes : f.keepsMode = false) :
    Tends f s (Machine.freshnessNow k c x s) := by
  rw [freshnessNow_eq]
  refine .ite (fun _ => .refl s) (fun _ => .trans (.setCar s c { s.car c with freshness := x }) (.trans ?_ (.trans
    (hk.interlock (freshnessTaken k c (s.car c).freshness x (s.setCar c { s.car c with freshness := x }))) ?_)))
  · unfold freshnessTaken
    generalize s.setCar c { s.car c with freshness := x } = t
    have forgot : Tends f t (if (x == .never) = true then
        { t with ptr := { t.ptr with lastPassage := t.ptr.lastPassage.set c none } } else t) :=
      .ite (fun _ => .track t _ rfl) (fun _ => .refl t)
    have counted : ∀ u : State, Tends f u (if (x == .lost) = true then Machine.bumpHealth k (linkCounter c) 1 u else u) := fun u =>
      .ite (fun _ => .bumpHealth hk _ _ u changes) (fun _ => .refl u)
    exact .trans forgot (.trans (counted _) (.trans (.post _ _) (.doorsOnFreshness hk c x _)))
  · unfold freshnessFollows
    exact .trans (.warmingCheck hk _) (.ite (fun _ => hk.stop _ _ _ fun _ => nofun) (fun _ => .refl _))

end

/-! ## Changes of mode (R165) -/

section
variable {k : Hand} {f : Frame} {s : State}

/-- Of the four sides ordered to close none waits afterwards but where it may. -/
theorem closeAll_allowed (hk : Closing k) (s : State) (clear : (closeAll k s).overrun = false) (c : Car) (d : Side) :
    (closeAll k s).waitAllowed c d := by
  have steady : ∀ (c : Car) (d : Side) (s : State), Tends ⟨false, false, false⟩ s (k (.closeSide c d) s) := hk.toSteady.close
  have one : closeAll k s = k (.closeSide .b .right) (k (.closeSide .b .left) (k (.closeSide .a .right) (k (.closeSide .a .left) s))) := rfl
  rw [one] at clear ⊢
  have al := hk.closes .a .left s
  generalize k (.closeSide .a .left) s = s1 at clear al ⊢
  have ar := hk.closes .a .right s1
  have r1 := steady .a .right s1
  generalize k (.closeSide .a .right) s1 = s2 at clear ar r1 ⊢
  have bl := hk.closes .b .left s2
  have r2 := steady .b .left s2
  generalize k (.closeSide .b .left) s2 = s3 at clear bl r2 ⊢
  have br := hk.closes .b .right s3
  have r3 := steady .b .right s3
  have clear3 := r3.clear clear
  have clear2 := r2.clear clear3
  cases c <;> cases d
  · exact ((r1.trans (r2.trans r3)).core clear).allowed _ _ (al (r1.clear clear2))
  · exact ((r2.trans r3).core clear).allowed _ _ (ar clear2)
  · exact (r3.core clear).allowed _ _ (bl clear3)
  · exact br clear

/-- After a change of mode a side waits only where it may: all four have been ordered to close, or it did so before (R165). -/
theorem modeFollows_allowed (hk : Closing k) {old : Mode} {e : ModeEntry} (clear : (modeFollows k old e s).overrun = false)
    {c : Car} {d : Side} (start : closesDoors old e.mode = true ∨ s.waitAllowed c d) : (modeFollows k old e s).waitAllowed c d := by
  have free := fun s => Tends.modeFollows (f := ⟨false, false, false⟩) hk.toSteady old e s rfl
  rcases start with closes | allowed
  · unfold modeFollows at clear ⊢
    dsimp only at clear ⊢
    generalize (if (e.mode == .parked) = true then k (.command .eb .apply) (k (.command .sb .apply) (supervisorPark s)) else s) = s1
      at clear ⊢
    have rest : ∀ s2, Tends ⟨false, false, false⟩ s2 (if (e.mode == .warming) = true then enterWarming k (linksOnMode k old e s2)
        else linksOnMode k old e s2) := fun s2 =>
      .trans (.linksOnMode hk.toSteady old e s2 rfl) (.ite (fun _ => .enterWarming hk.toSteady _) (fun _ => .refl _))
    refine ((rest _).core clear).allowed c d ?_
    have clear := (rest _).clear clear
    unfold closeOnMode at clear ⊢
    rw [if_pos closes] at clear ⊢
    exact closeAll_allowed hk _ clear c d
  · exact ((free s).core clear).allowed c d allowed

/-- A line in a mode entered, with its report. -/
abbrev State.entered (s : State) (e : ModeEntry) (cause : ModeCause) (unmet : Option WarmUnmet) : State :=
  modeReport .change s.lmu.mode (some cause) unmet (suspendOrResume s.lmu.isQuiet { s with lmu := s.lmu.enter e })

theorem entered_eq (s : State) (e : ModeEntry) (cause : ModeCause) (unmet : Option WarmUnmet) :
    ∃ l q, s.entered e cause unmet = { s with lmu := l, slp := q } ∧ l.mode = e.mode := by
  have resumed : ∃ l, suspendOrResume s.lmu.isQuiet { s with lmu := s.lmu.enter e } = { s with lmu := l } ∧ l.mode = e.mode := by
    unfold suspendOrResume
    dsimp only
    split
    · split <;> exact ⟨_, rfl, rfl⟩
    · split <;> exact ⟨_, rfl, rfl⟩
  obtain ⟨l, resumed, mode⟩ := resumed
  rw [State.entered, resumed, modeReport, post_eq_taking]
  exact ⟨l, _, rfl, mode⟩

/-- A side that may wait may do so in the mode entered, where the doors are not ordered to close. -/
theorem waitAllowed_entered {e : ModeEntry} {l : LineMode} {q : Link} (mode : l.mode = e.mode) (stays : closesDoors s.lmu.mode e.mode = false)
    {c : Car} {d : Side} (allowed : s.waitAllowed c d) : State.waitAllowed { s with lmu := l, slp := q } c d := by
  intro waits
  have before := allowed waits
  simp only [closesDoors, Bool.and_eq_false_iff, Bool.not_eq_false', Bool.and_eq_true, beq_iff_eq] at stays
  rcases stays with (still | ⟨was, is⟩) | ⟨was, is⟩
  · rcases before with ⟨m | m, -⟩ | ⟨m, -⟩ <;> rw [m] at still <;> exact nomatch still
  · rcases before with ⟨-, stands⟩ | ⟨m, -⟩
    · exact .inl ⟨.inr (mode.trans is), stands⟩
    · exact nomatch was.symm.trans m
  · rcases before with ⟨-, stands⟩ | ⟨m, -⟩
    · exact .inl ⟨.inl (mode.trans is), stands⟩
    · exact nomatch was.symm.trans m

theorem Tends.changeModeNow (hk : Closing k) (e : ModeEntry) (cause : ModeCause) (unmet : Option WarmUnmet) (s : State)
    (seemly : s.overrun = false → (Act.changeMode e cause unmet).Seemly s) (changes : f.keepsMode = false) :
    Tends f s (Machine.changeModeNow k e cause unmet s) := by
  rw [changeModeNow_eq]
  obtain ⟨l, q, entered, mode⟩ := entered_eq s e cause unmet
  rw [show Machine.modeReport .change s.lmu.mode (some cause) unmet (Machine.suspendOrResume s.lmu.isQuiet { s with lmu := s.lmu.enter e })
    = { s with lmu := l, slp := q } from entered]
  have follows : Tends f { s with lmu := l, slp := q } (Machine.modeFollows k s.lmu.mode e { s with lmu := l, slp := q }) :=
    .modeFollows hk.toSteady _ e _ changes
  have allowed := fun clear c d => modeFollows_allowed hk (s := { s with lmu := l, slp := q }) (old := s.lmu.mode) (e := e) clear
    (c := c) (d := d)
  generalize Machine.modeFollows k s.lmu.mode e { s with lmu := l, slp := q } = t at follows allowed ⊢
  refine ⟨follows.overrun, fun clear => ?_⟩
  obtain ⟨boards, tripped⟩ := seemly (follows.clear clear)
  have core := follows.core clear
  exact {
    gates := fun ok => core.gates (gatesOk_of_eq (s := s) id rfl rfl rfl rfl rfl ok)
    placed := fun g placed => core.placed g fun busy => by
      obtain ⟨held, stop, -⟩ := placed busy
      refine ⟨held, stop, ?_⟩
      dsimp only
      rw [mode]
      rcases boards with (m | m) | m | m <;> simp [m]
    allowed := fun c d before => allowed clear c d (by
      cases stays : closesDoors s.lmu.mode e.mode
      · exact .inr (waitAllowed_entered mode stays before)
      · exact .inl rfl)
    trip := fun _ => core.trip fun m => tripped (mode.symm.trans m)
    test := core.test
    admits := fun ok => core.admits (gatesOk_of_eq (s := s) id rfl rfl rfl rfl rfl ok)
    rests := core.rests
    held := core.held
    atStop := core.atStop
    boards := fun _ => core.boards (show Mode.boards l.mode from mode ▸ boards)
    mode := fun keeps => nomatch changes.symm.trans keeps
    wait := core.wait
    opened := core.opened }

end

/-! ## Every hand-over -/

theorem act_tends {k : Hand} (hk : Closing k) (f : Frame) (a : Act) (s : State) (seemly : s.overrun = false → a.Seemly s)
    (mild : f.keepsMode = true → a.mild) (calm : f.addsNoWait = true → a.calm) : Tends f s (act k a s) := by
  have changes : (f.keepsMode = true → False) → f.keepsMode = false := fun no => by
    cases keeps : f.keepsMode
    · rfl
    · exact (no keeps).elim
  cases a with
  | orderStop kind cause => exact .orderStopNow hk.toSteady kind cause s mild
  | command b c => exact .commandBrake hk.toSteady b c s
  | brakesChanged => exact .brakesChangedNow hk.toSteady s
  | settle => exact .settleNow hk.toSteady s
  | interlock => exact .interlockNow hk.toSteady s
  | abortTest cause => exact .abortTestNow hk.toSteady cause s
  | sideTo c d r e cause => exact .sideToNow hk.toSteady c d r e cause s seemly calm
  | closeSide c d => exact .closeSideNow hk.toSteady c d s
  | sealWindow g cause => exact .sealWindowNow hk.toSteady g cause s
  | changeMode e cause unmet => exact .changeModeNow hk e cause unmet s seemly (changes mild)
  | freshness c x => exact .freshnessNow hk.toSteady c x s (changes mild)

/-- Hand-overs nested to any depth. -/
theorem run_closing (n : Nat) : Closing (run n) := by
  induction n with
  | zero =>
    exact {
      run := fun _ _ s _ _ _ => .deep s
      sides := fun _ _ _ _ _ _ _ _ clear => nomatch clear
      closes := fun _ _ _ clear => nomatch clear }
  | succ n ih =>
    have side : ∀ c d r e x s, run (n + 1) (.sideTo c d r e x) s = sideToNow (run n) c d r e x s := fun _ _ _ _ _ _ => rfl
    have close : ∀ c d s, run (n + 1) (.closeSide c d) s = closeSideNow (run n) c d s := fun _ _ _ => rfl
    exact {
      run := act_tends ih
      sides := fun c d r e x s => by rw [side]; exact sideToNow_allowed ih.toSteady c d r e x s
      closes := fun c d s => by rw [close]; exact closeSideNow_allowed ih c d s }

/-- The hand-overs of a step. -/
theorem cascade_closing : Closing cascade := run_closing _

theorem cascade_steady : Steady cascade := cascade_closing.toSteady

end Sys2Proof.Machine
end

section
/-! SUPPORT. The operations of the events and requests under the laws of boarding: frames from the cars, samples, drive updates, brake
timers and the gate loop's exchanges. -/

namespace Sys2Proof.Machine

/-- Nothing is asked beside the laws. -/
abbrev Frame.free : Frame := ⟨false, false, false⟩

section
variable {f : Frame} {s : State}

/-- A side's record changes beside its state and its release. -/
theorem Tends.sideRest (s : State) (c : Car) (d : Side) (r : DoorSide) (state : r.state = (s.side c d).state)
    (kind : r.kind = (s.side c d).kind) : Tends f s (s.setSide c d r) := by
  refine .doorsRest s { s.dru with sides := s.dru.sides.set c ((s.dru.sides.get c).set d r) } fun e x => ?_
  show ((s.setSide c d r).side e x).state = _ ∧ ((s.setSide c d r).side e x).kind = _
  by_cases same : (e, x) = (c, d)
  · cases same
    rw [side_setSide]
    exact ⟨state, kind⟩
  · rw [side_setSide_other s r same]
    exact ⟨rfl, rfl⟩

/-- The Pass Table changes under its law. -/
theorem Tends.table (s : State) (t : PassTable) (law : s.ptb.law → t.law) : Tends f s { s with ptb := t } :=
  .boarding s s.glm s.tally t (fun ok => ⟨ok.list, law ok.table, ok.windows, ok.seats⟩) (fun _ => id) (fun _ _ _ => id)

/-- A record in its window's place that keeps the window's state and car. -/
theorem Tends.windowRest (s : State) (g : Group) (w : Window) (state : w.state = (s.window g).state) (car : w.car = (s.window g).car) :
    Tends f s { s with glm := { s.glm with windows := s.glm.windows.set g w } } := by
  have alike : ∀ h, ((s.glm.windows.set g w).get h).state = (s.window h).state ∧ ((s.glm.windows.set g w).get h).car = (s.window h).car := by
    intro h
    by_cases same : h = g
    · subst same
      rw [PerGroup.get_set]
      exact ⟨state, car⟩
    · rw [PerGroup.get_set_other _ _ same]
      exact ⟨rfl, rfl⟩
  refine .boarding s _ s.tally s.ptb (fun ok => ⟨ok.list, ok.table, fun x member => ?_, ok.seats⟩) (fun h busy => ?_) (fun _ _ _ => id)
  · have fits := ok.windows x member
    simpa only [State.fits, State.window, Window.busy, (alike _).1, (alike _).2] using fits
  · rw [Window.busy, (alike h).1] at busy
    exact busy

theorem Tends.extendDwell (g : Group) (n : Nat) (s : State) : Tends f s (Machine.extendDwell g n s) :=
  .windowRest s g { s.window g with dwell := some (n * 1000) } rfl rfl

theorem Tends.sendCommand (c : Car) (s : State) : Tends f s (Machine.sendCommand c s) := by
  unfold Machine.sendCommand
  exact .ite (fun _ => .setCar s c _) (fun _ => .refl s)

theorem Tends.carLinkReport (c : Car) (event : CarLinkEvent) (before : Freshness) (value : Option Bool) (s : State) :
    Tends f s (Machine.carLinkReport c event before value s) := .post _ s

theorem Tends.reportAlarm (r : AlarmReport) (s : State) : Tends f s (Machine.reportAlarm r s) := by
  unfold Machine.reportAlarm
  exact .ite (fun _ => .post _ s) (fun _ => .refl s)

theorem Tends.watchCrew (c : Car) (prev : Option CarStatus) (x : CarStatus) (s : State) : Tends f s (Machine.watchCrew c prev x s) := by
  unfold Machine.watchCrew
  dsimp only
  exact .trans (.ite (fun _ => .carLinkReport c _ _ _ s) (fun _ => .refl s)) (.ite (fun _ => .carLinkReport c _ _ _ _) (fun _ => .refl _))

theorem Tends.positionReport (cause : PositionCause) (before after : Int) (marker : Option Nat) (switch : Option LineEnd) (s : State) :
    Tends f s (Machine.positionReport cause before after marker switch s) := .post _ s

theorem Tends.setPosition (p : LineFields) (target : Int) (v : Validity) (cause : PositionCause) (sw : LineEnd) (s : State) :
    Tends f s (Machine.setPosition p target v cause sw s) :=
  .trans (.track s { s.ptr with
    offsetP := target - (s.ptr.terms p).p, offsetC := target - (s.ptr.terms p).c, x := target, xc := target, sm := 0, u := p.u0
    validity := v } rfl) (.positionReport _ _ _ _ _ _)

theorem Tends.homedWhileHeld (target : Nat) (s : State) : Tends f s (Machine.homedWhileHeld target s) := by
  unfold Machine.homedWhileHeld
  refine .ite (fun _ => ?_) (fun _ => .refl s)
  split
  · rename_i r _
    have berths : Tends f s (setBerth (.at r) s) := by
      obtain ⟨cleared, berthed⟩ := setBerth_eq (.at r) s
      rw [berthed]
      exact .haulStop s _ cleared rfl rfl
    refine .trans berths ?_
    dsimp only
    split
    · exact .haulRest _ _ rfl rfl
    · exact .refl _
  · exact .refl s

theorem Tends.homeAt (p : LineFields) (sw : LineEnd) (s : State) : Tends f s (Machine.homeAt p sw s) :=
  .trans (.setPosition _ _ _ _ _ _) (.homedWhileHeld _ _)

theorem Tends.decelerationSample (s : State) : Tends f s (Machine.decelerationSample s) := by
  unfold Machine.decelerationSample
  refine .trans (.brakesRest s { s.bsq with vHist := keepSpeeds s.ptr.vMeas s.bsq.vHist } rfl rfl rfl) ?_
  dsimp only
  split
  · split
    · exact .ite (fun _ => .brakesRest _ _ rfl rfl rfl) (fun _ => .refl _)
    all_goals exact .refl _
  · exact .refl _

theorem Tends.assertRail (s : State) : Tends f s (Machine.assertRail s) := by
  unfold Machine.assertRail
  exact .ite (fun _ => .refl s) (fun _ => .trans (.brakesRest s { s.bsq with railTrip := true } rfl rfl rfl) (.post _ _))

theorem Tends.cutReference (vPerm : Nat) (s : State) : Tends f s (Machine.cutReference vPerm s) := by
  unfold Machine.cutReference
  split
  · refine .trans (t := Machine.sendWord { s with hac := { s.hac with vRef := vPerm } })
      (.trans (.haulRest s { s.hac with vRef := vPerm } rfl rfl) (.sendWord _)) ?_
    refine .ite (fun cut => .enterStopping _ ?_) (fun _ => .refl _)
    simp only [Bool.and_eq_true] at cut
    exact fun held => by simp [State.moving, held] at cut
  · exact .refl s

theorem Tends.stallWatch (p : LineFields) (vCap v : Nat) (s : State) : Tends f s (Machine.stallWatch p vCap v s) := by
  unfold Machine.stallWatch
  split
  · exact .haulRest s { s.hac with stalled := false } rfl rfl
  · exact .ite (fun _ => .trans (.haulRest s { s.hac with stalled := true } rfl rfl) (.post _ _)) (fun _ => .refl s)

/-- An update of the drive reference, by which a trip may come to berth (R33, R34, R38a). -/
theorem Tends.referenceUpdate (s : State) (adds : f.addsNoWait = false) : Tends f s (Machine.referenceUpdate s) := by
  have referred : ∀ v, Tends f s { s with hac := { s.hac with vRef := v } } := fun v => .haulRest s { s.hac with vRef := v } rfl rfl
  have bound : ∀ v h, s.hac.state ≠ .held → h.drives = true →
      Tends f s (Machine.setHaulage h { s with hac := { s.hac with vRef := v } }) := fun v h moving drives =>
    .trans (referred v) (.setHaulage h _ moving (not_held_of_drives drives) fun q => nomatch adds.symm.trans q)
  have ramp : ∀ p, s.hac.state ≠ .held → Tends f s (rampUpdate p s) := by
    intro p moving
    unfold rampUpdate
    exact .trans (referred _) (.ite (fun _ => .enterStopping _ moving) (fun _ => .refl _))
  have trip : ∀ p, s.hac.state ≠ .held → Tends f s (tripUpdate p s) := by
    intro p moving
    unfold tripUpdate
    dsimp only
    refine .ite (fun _ => ?_) (fun _ => ?_)
    · exact .trans (referred 0) (.setHaulage .berthing _ moving (by decide) fun q => nomatch adds.symm.trans q)
    · exact .trans (bound _ _ moving (boundState_drives _ _ _ _)) (.stallWatch _ _ _ _)
  unfold Machine.referenceUpdate
  split
  · exact .refl s
  · rename_i p _
    have drives : s.hac.state ≠ .held → Tends f s (if s.hac.ramp = true then rampUpdate p s else tripUpdate p s) := fun moving =>
      .ite (fun _ => ramp p moving) (fun _ => trip p moving)
    split
    case h_1 | h_2 | h_3 =>
      rename_i state
      exact drives (by rw [state]; nofun)
    all_goals exact .refl s

theorem Tends.enterTorque (t : BrakeTest) (s : State) (runs : s.bsq.test.isSome = true) : Tends f s (Machine.enterTorque t s) :=
  .setTest _ true s fun _ => runs

/-- A test starts on a line that is HELD. -/
theorem Tends.testStarts (t : Option BrakeTest) (torque : Bool) (s : State) (held : s.hac.state = .held) :
    Tends f s (Machine.setTest t torque s) where
  overrun := id
  core _ := {
    gates := gatesOk_of_eq id rfl rfl rfl rfl rfl
    placed := fun _ => id
    allowed := fun _ _ => id
    trip := id
    test := fun _ _ => held
    admits := fun _ _ _ => id
    rests := fun _ _ w r => r w
    held := id
    atStop := id
    boards := id
    mode := fun _ _ => rfl
    wait := fun _ b => ⟨b, fun _ _ => id⟩
    opened := fun _ _ _ _ _ => id }

theorem Tends.supervised (s : State) : Tends f s (Machine.supervised s) := by
  unfold Machine.supervised
  dsimp only
  exact .trans (.modeRest s { s.lmu with
    expected := s.lmu.expected.other, lost := false
    supTimer := if s.lmu.isQuiet then .stopped else s.freshSupTimer, suspended := s.lmu.isQuiet } rfl)
    (.ite (fun _ => .modeReport _ _ _ _ _) (fun _ => .refl _))

end

section
variable {k : Hand} (hk : Steady k)
include hk

/-! ## Doors and car frames (R91 to R100, R112 to R120) -/

theorem Tends.ackExpired (c : Car) (d : Side) (s : State) : Tends .free s (Machine.ackExpired k c d s) := by
  unfold Machine.ackExpired
  exact .ite (fun _ => hk.side c d _ _ _ s nofun nofun) (fun _ => .sideRest s c d _ rfl rfl)

theorem Tends.closeExpired (c : Car) (d : Side) (s : State) : Tends .free s (Machine.closeExpired k c d s) := by
  unfold Machine.closeExpired
  exact .ite (fun _ => .attemptFailed hk c d _ s) (fun _ => .sideRest s c d _ rfl rfl)

theorem Tends.retryExpired (c : Car) (d : Side) (s : State) : Tends .free s (Machine.retryExpired k c d s) := by
  unfold Machine.retryExpired
  exact .ite (fun _ => hk.side c d _ _ _ s nofun nofun) (fun _ => .sideRest s c d _ rfl rfl)

theorem Tends.faultMoving (c : Car) (d : Side) (s : State) : Tends .free s (Machine.faultMoving k c d s) :=
  .trans (.faultSide hk c d _ s) (hk.stop _ _ _ nofun)

/-- A side that becomes RELEASED out of a state in which it does not wait, or where it may wait. -/
theorem Tends.releasedSide (c : Car) (d : Side) (r : DoorSide) (event : DoorEvent) (cause : Option DoorCause) (s : State)
    (unwaiting : r.state ≠ .releasePending) (kind : r.kind = (s.side c d).kind) (allowed : s.overrun = false → s.waitAllowed c d) :
    Tends .free s (k (.sideTo c d r event cause) s) := by
  refine hk.run .free _ s (fun clear => ⟨fun waits => absurd waits unwaiting, fun waits _ passengers => ?_⟩) nofun nofun
  rcases allowed clear waits with may | ⟨-, evac⟩
  · exact may
  · rw [kind, evac] at passengers
    simp at passengers

theorem Tends.judgePending (c : Car) (d : Side) (x : DoorStatus) (s : State) (allowed : s.overrun = false → s.waitAllowed c d) :
    Tends .free s (Machine.judgePending k c d x s) := by
  unfold Machine.judgePending
  dsimp only
  refine .ite (fun _ => ?_) (fun _ => .ite (fun _ => .faultSide hk c d _ s) (fun _ => .refl s))
  refine .trans (.releasedSide hk c d { s.side c d with state := .released, ackTimer := none } .released (some .ack) s nofun rfl allowed) ?_
  exact .ite (fun _ => hk.side c d _ _ _ _ nofun nofun) (fun _ => .refl _)

theorem Tends.judgeSide (moving : Bool) (c : Car) (d : Side) (x : DoorStatus) (s : State)
    (allowed : s.overrun = false → s.waitAllowed c d) : Tends .free s (Machine.judgeSide k moving c d x s) := by
  have secured : Tends .free s (judgeSecured k moving c d x s) := by
    unfold judgeSecured
    split
    · exact .refl s
    · refine .ite (fun _ => .faultMoving hk c d s) (fun _ => .ite (fun _ => ?_) (fun _ => .faultSide hk c d _ s))
      exact hk.side c d _ _ _ s nofun nofun
    · exact .ite (fun _ => .faultMoving hk c d s) (fun _ => .ite (fun _ => .faultSide hk c d _ s) (fun _ => .faultSide hk c d _ s))
  have unproven : Tends .free s (judgeUnproven k moving c d x s) := by
    unfold judgeUnproven
    exact .ite (fun _ => hk.side c d _ _ _ s nofun nofun) (fun _ => .ite (fun _ => .faultMoving hk c d s) (fun _ => .refl s))
  have closing : Tends .free s (judgeClosing k c d x s) := by
    unfold judgeClosing
    exact .ite (fun _ => hk.side c d _ _ _ s nofun nofun) (fun _ => .ite (fun _ => .attemptFailed hk c d _ s) (fun _ => .refl s))
  unfold Machine.judgeSide
  dsimp only
  split
  · exact secured
  · exact unproven
  · exact .judgePending hk c d x s allowed
  · exact .ite (fun _ => .refl s) (fun _ => hk.side c d _ _ _ s nofun nofun)
  · exact .ite (fun _ => .releasedSide hk c d _ _ _ s nofun rfl allowed) (fun _ => .refl s)
  · exact closing
  · exact .refl s

theorem Tends.judgeFrame (c : Car) (x : CarStatus) (s : State) (allowed : s.overrun = false → ∀ d, s.waitAllowed c d) :
    Tends .free s (Machine.judgeFrame k c x s) :=
  .forEachKeeping (fun t => ∀ d, t.waitAllowed c d) _ _ (fun d t may => .judgeSide hk s.moving c d (x.door d) t fun clear => may clear d)
    (fun core may d => core.allowed c d (may d)) s allowed

theorem Tends.watchAlarm (c : Car) (x : CarStatus) (s : State) : Tends .free s (Machine.watchAlarm k c x s) := by
  unfold Machine.watchAlarm
  refine .ite (fun _ => .trans (.setCar s c { s.car c with alarm := true }) ?_) (fun _ => .refl s)
  generalize s.setCar c { s.car c with alarm := true } = t
  exact .trans (.ite (fun _ => hk.stop _ _ t nofun) (fun _ => .refl t)) (.trans (hk.abort _ _) (.reportAlarm _ _))

theorem Tends.loseValidity {f : Frame} (cause : PositionCause) (marker : Option Nat) (switch : Option LineEnd) (s : State) :
    Tends f s (Machine.loseValidity k cause marker switch s) := by
  unfold Machine.loseValidity
  split
  · exact .refl s
  · refine .trans (.trans (.track s { s.ptr with validity := .lost } rfl) (.positionReport cause s.ptr.x s.ptr.x marker switch _)) ?_
    exact .ite (fun _ => hk.stop _ _ _ fun _ => nofun) (fun _ => .refl _)

theorem Tends.correctAt (p : LineFields) (c : Car) (id : Nat) (s : State) : Tends .free s (Machine.correctAt k p c id s) := by
  have shifted : ∀ e, Tends .free s (shiftOffsets p.u0 e s) := fun e => .track s _ rfl
  unfold Machine.correctAt
  split
  · exact .bumpHealth hk _ _ s rfl
  · dsimp only
    split
    · exact shifted _
    · split
      · exact .trans (shifted _) (.trans (.positionReport _ _ _ _ _ _) (.bumpHealth hk _ _ _ rfl))
      · exact .trans (.bumpHealth hk _ _ s rfl) (.loseValidity hk _ _ _ _)

theorem Tends.markerHandOver (c : Car) (m : Option MarkerField) (before : Freshness) (s : State) :
    Tends .free s (Machine.markerHandOver k c m before s) := by
  unfold Machine.markerHandOver
  split
  · exact .refl s
  · rename_i x
    refine .trans (.track s { s.ptr with lastPassage := s.ptr.lastPassage.set c (some x.passage) } rfl) ?_
    dsimp only
    split
    · exact .refl _
    · split
      · exact .refl _
      · split
        · exact .refl _
        · exact .ite (fun _ => .correctAt hk _ _ _ _) (fun _ => .refl _)

theorem Tends.acceptStatus (c : Car) (x : CarStatus) (s : State) (allowed : ∀ d, s.waitAllowed c d) :
    Tends .free s (Machine.acceptStatus k c x s) := by
  unfold Machine.acceptStatus
  dsimp only
  have marked := Tends.markerHandOver hk c x.marker (s.car c).freshness s
  generalize Machine.markerHandOver k c x.marker (s.car c).freshness s = t at marked ⊢
  have counted : Tends .free t (if gapCount (s.car c) x.seq = 0 then t else
      Machine.bumpHealth k (linkCounter c) (gapCount (s.car c) x.seq) t) := by
    split
    · exact .refl t
    · exact .bumpHealth hk _ _ t rfl
  generalize (if gapCount (s.car c) x.seq = 0 then t else Machine.bumpHealth k (linkCounter c) (gapCount (s.car c) x.seq) t) = u
    at counted ⊢
  have accepted : Tends .free u (k (.freshness c .fresh) (u.setCar c { u.car c with
      lastSeq := some x.seq, discards := 0, status := some x, since := some 0, accepted := satCount (u.car c).accepted 1 })) :=
    .trans (.setCar u c _) (hk.freshness c _ _ rfl)
  have before := marked.trans (counted.trans accepted)
  refine .trans before (.trans (.judgeFrame hk c x _ fun clear d => (before.core clear).allowed c d (allowed d)) ?_)
  exact .trans (.watchAlarm hk c x _) (.trans (.watchCrew c _ x _) (.sendCommand c _))

theorem Tends.receiveStatus (c : Car) (x : Option CarStatus) (s : State) (allowed : ∀ d, s.waitAllowed c d) :
    Tends .free s (Machine.receiveStatus k c x s) := by
  unfold Machine.receiveStatus
  refine .ite (fun _ => ?_) (fun _ => .refl s)
  split
  · unfold discardStatus
    exact .trans (.setCar s c { s.car c with
      discards := min 255 ((s.car c).discards + 1), discarded := satCount (s.car c).discarded 1 }) (.bumpHealth hk _ _ _ rfl)
  · split
    · exact .setCar s c _
    · exact .acceptStatus hk c _ s allowed

/-! ## The sample (R11, R19, R20, R47, R77, R84) -/

theorem Tends.oneSwitch (p : LineFields) (sw : LineEnd) (became stilled : Bool) (s : State) :
    Tends .free s (Machine.oneSwitch k p sw became stilled s) := by
  unfold Machine.oneSwitch
  dsimp only
  refine .ite (fun _ => .homeAt p sw s) (fun _ => .ite (fun _ => ?_) (fun _ => .refl s))
  refine .ite (fun _ => .setPosition _ _ _ _ _ s) (fun _ => .ite (fun _ => .setPosition _ _ _ _ _ s) (fun _ => ?_))
  exact .trans (.bumpHealth hk _ _ s rfl) (.loseValidity hk _ _ _ _)

theorem Tends.doubleTerminal (s : State) : Tends .free s (Machine.doubleTerminal k s) := by
  unfold Machine.doubleTerminal
  refine .trans (.bumpHealth hk .pos 1 s rfl) ?_
  dsimp only
  split
  · exact .loseValidity hk _ _ _ _
  · exact .positionReport _ _ _ _ _ _

theorem Tends.terminalSwitches (p : LineFields) (prev now : Switches) (first stilled : Bool) (s : State) :
    Tends .free s (Machine.terminalSwitches k p prev now first stilled s) := by
  unfold Machine.terminalSwitches
  dsimp only
  split
  · exact .ite (fun _ => .refl s) (fun _ => .doubleTerminal hk s)
  · exact .ite (fun _ => .homeAt p _ s) (fun _ => .oneSwitch hk p _ _ _ s)
  · exact .ite (fun _ => .homeAt p _ s) (fun _ => .oneSwitch hk p _ _ _ s)
  · exact .refl s

theorem Tends.overtravelSwitches (prev now : Switches) (s : State) : Tends .free s (Machine.overtravelSwitches k prev now s) := by
  have travelled : ∀ sw t, Tends .free t (overtravel k sw t) := fun sw t =>
    .trans (hk.stop _ _ t nofun) (.positionReport _ _ _ _ _ _)
  unfold Machine.overtravelSwitches
  exact .trans (.ite (fun _ => travelled .lower s) (fun _ => .refl s)) (.ite (fun _ => travelled .upper _) (fun _ => .refl _))

theorem Tends.levelOrder (l : Level) (s : State) : Tends .free s (Machine.levelOrder k l s) := by
  cases l
  case none | warn => exact .refl s
  case service | emergency => exact hk.stop _ _ s nofun
  case rail => exact .trans (hk.stop _ _ s nofun) (.assertRail _)

theorem Tends.evaluate (p : LineFields) (t : Int) (s : State) : Tends .free s (Machine.evaluate k p t s) := by
  unfold Machine.evaluate
  dsimp only
  generalize (decide (200 < accumulate s t) && (s.osp.fresh || !s.osp.ordered)) = exceeds
  have stored : Tends .free s (k .settle (Machine.cutReference (s.envelope p).vPerm
      (storeEvaluation (s.envelope p) (accumulate s t) exceeds s))) :=
    .trans (.supervisor s _) (.trans (.cutReference _ _) (hk.settle _))
  refine .trans stored ?_
  generalize k .settle (Machine.cutReference (s.envelope p).vPerm (storeEvaluation (s.envelope p) (accumulate s t) exceeds s)) = u
  have ordered : Tends .free u (if decide (s.osp.level.rank < (s.envelope p).level.rank) = true then
      Machine.levelOrder k (s.envelope p).level u else u) := .ite (fun _ => .levelOrder hk _ u) (fun _ => .refl u)
  refine .trans ordered ?_
  generalize (if decide (s.osp.level.rank < (s.envelope p).level.rank) = true then
      Machine.levelOrder k (s.envelope p).level u else u) = v
  refine .ite (fun _ => .trans ?_ (.trans (hk.stop .emergency .rollback _ nofun) (.post _ _))) (fun _ => ?_)
  · exact .ite (fun _ => .refl v) (fun _ => .post _ v)
  · exact .ite (fun _ => .refl v) (fun _ => .post _ v)

theorem Tends.failTest (t : BrakeTest) (s : State) : Tends .free s (Machine.failTest k t s) :=
  .trans (.setTest none false s nofun) (.trans (hk.stop _ _ _ nofun) (.post _ _))

theorem Tends.testSample (s : State) : Tends .free s (Machine.testSample k s) := by
  unfold Machine.testSample
  split
  · exact .refl s
  · rename_i t test
    split
    · dsimp only
      split
      · exact .failTest hk _ s
      · exact .setTest _ _ s fun _ => by rw [test]; rfl
    · exact .refl s
    · exact .refl s

theorem Tends.onSample (t : Int) (s : State) : Tends .free s (Machine.onSample k t s) := by
  have rest : ∀ u : State, Tends .free u (k .settle (Machine.testSample k (Machine.decelerationSample u))) := fun u =>
    .trans (.decelerationSample u) (.trans (.testSample hk _) (hk.settle _))
  unfold Machine.onSample
  dsimp only
  split
  · exact .trans (.ite (fun _ => .evaluate hk _ _ s) (fun _ => .refl s)) (rest _)
  · exact rest s

theorem Tends.driveUpdate (ready fault : Bool) (s : State) : Tends .free s (Machine.driveUpdate k ready fault s) := by
  unfold Machine.driveUpdate readDriveLines
  refine .trans (.trans (.referenceUpdate s rfl) (hk.settle _)) ?_
  refine .trans (.trans (.haulRest _ { (k .settle (Machine.referenceUpdate s)).hac with ready := ready, fault := fault } rfl rfl) ?_)
    (.sendWord _)
  exact .ite (fun _ => .trans (hk.stop _ _ _ nofun) (.post _ _)) (fun _ => .refl _)

/-! ## Brakes (R69 to R71, R77, R85) -/

theorem Tends.checkExpired (s : State) : Tends .free s (Machine.checkExpired k s) := by
  unfold Machine.checkExpired
  split
  · rename_i r _
    split
    · exact .trans (.brakesRest s { s.bsq with stop := some { r with check := .failed } } rfl rfl rfl) (hk.stop _ _ _ nofun)
    all_goals exact .refl s
  · exact .refl s

theorem Tends.testExpired (s : State) : Tends .free s (Machine.testExpired k s) := by
  unfold Machine.testExpired
  split
  · exact .refl s
  · rename_i t test
    split
    · split
      · exact .passTest t s
      · exact .trans (.setTest _ false s fun _ => by rw [test]; rfl) (hk.command _ _ _)
    · exact .refl s
    · exact .refl s

/-! ## Modes (R175 to R178, R180) -/

theorem Tends.supervisionExpired (s : State) : Tends .free s (Machine.supervisionExpired k s) := by
  unfold Machine.supervisionExpired
  refine .trans (hk.abort .supervision s) ?_
  generalize k (.abortTest .supervision) s = t
  refine .trans (.modeRest t { t.lmu with lost := true, supTimer := .stopped, suspended := false } rfl)
    (.trans (.modeReport .supervisionLost t.lmu.mode none none _) ?_)
  exact .trans (.ite (fun _ => hk.stop _ _ _ nofun) (fun _ => .refl _)) (.sealAll hk _ _)

theorem Tends.changeVariant (v : Variant) (s : State) : Tends .free s (Machine.changeVariant k v s) := by
  unfold Machine.changeVariant
  exact .trans (.modeRest s { s.lmu with variant := some v } rfl) (.trans (.suspendOrResume _ _)
    (.trans (.modeReport _ _ _ _ _) (.followVariant hk v _ rfl)))

theorem Tends.writeHealth (n : CounterName) (c : Counter) (s : State) : Tends .free s (Machine.writeHealth k n c s) := by
  unfold Machine.writeHealth
  dsimp only
  refine .trans (.modeRest s { s.lmu with health := s.lmu.health.set n c } rfl) ?_
  refine .ite (fun _ => .post _ _) (fun _ => .ite (fun _ => ?_) (fun _ => .refl _))
  refine .trans (.post _ _) (.ite (fun _ => ?_) (fun _ => .refl _))
  exact hk.mode _ _ _ _ (fun _ => ⟨.inl (.inr rfl), nofun⟩) rfl

/-! ## The gate loop's exchanges (R144 to R146) -/

theorem Tends.passed (a n : Nat) (s : State) : Tends .free s (Machine.passed k a n s) := by
  unfold Machine.passed
  split
  · exact .refl s
  · rename_i g _
    refine .ite (fun _ => ?_) (fun _ => .bumpHealth hk _ _ s rfl)
    dsimp only
    refine .trans (.repeatN (min n g.pending) _ (.onePassage hk a) s) ?_
    split
    · exact .refl _
    · exact .bumpHealth hk _ _ _ rfl

/-- A reply that presents no ticket. -/
theorem Tends.replyContent (a : Nat) (m : GateMsg) (s : State) (others : ∀ ticket, m ≠ .presented ticket) :
    Tends .free s (Machine.replyContent k a m s) := by
  unfold Machine.replyContent
  split
  · exact .refl s
  · exact absurd rfl (others _)
  · exact .passed hk a _ s
  · exact .gateFault hk a _ s
  · split
    · exact .completeAccess hk _ _ _ s
    · exact .refl s

omit hk in
/-- What a good reply does before its content (R144 to R146). -/
theorem Tends.replyBegins (a : Nat) (m : GateMsg) (s : State) : Tends .free s
    (Machine.leaveFault a m (Machine.deliver a (Machine.comeOnline a (Machine.onGate a (fun g => { g with misses := 0 }) s)))) := by
  have answered : Tends .free s (Machine.onGate a (fun g => { g with misses := 0 }) s) := by
    refine .onGateRest ?_ ?_ ?_ ?_ ?_ ?_ a s <;> intro g
    exacts [rfl, rfl, rfl, .inl rfl, rfl, fun _ => id]
  exact .trans answered (.trans (.comeOnline a _) (.trans (.deliver a _) (.leaveFault a m _)))

theorem Tends.replyEnds (p : Poll) (s : State) : Tends .free s (Machine.pollNext (Machine.thirdPollPassed k p s)) :=
  .trans (.thirdPollPassed hk p s) (.pollNext _)

theorem Tends.missedPoll (p : Poll) (s : State) : Tends .free s (Machine.missedPoll k p s) := by
  have missed : Tends .free s (Machine.onGate p.address (fun h => { h with misses := h.misses + 1 }) s) := by
    refine .onGateRest ?_ ?_ ?_ ?_ ?_ ?_ p.address s <;> intro g
    exacts [rfl, rfl, rfl, .inl rfl, rfl, fun _ => id]
  have counted := missed.trans (.bumpHealth hk .gates 1 _ rfl)
  unfold Machine.missedPoll
  dsimp only
  refine .trans ?_ (.replyEnds hk p _)
  split
  · exact .refl s
  · refine .ite (fun _ => .refl s) (fun _ => ?_)
    split
    · exact .trans counted (.goOffline hk _ _)
    · exact counted

end

end Sys2Proof.Machine
end

section
/-! SUPPORT. Admissions: what judging a presentation or a ticket answer leaves, and where it gives an ADMIT verdict. -/

namespace Sys2Proof.Machine

/-! ## An admission made (R151, R152) -/

/-- The admission that is made for k persons of a car. -/
abbrev State.newAdmission (s : State) (c : Car) (ticket : Option Nat) (k : Nat) (staff : Option SlotId) : Admission :=
  { ticket := ticket, car := c, k := k, pending := k, passed := 0, deadline := s.boundSec LineFields.tPass, staff := staff }

/-- The tallies with k persons more in flight to a car. -/
abbrev State.inFlightMore (s : State) (c : Car) (k : Nat) : PerCar Tally :=
  s.tally.set c { s.tallyOf c with inFlight := (s.tallyOf c).inFlight + k }

/-- A gate's record with an admission under the ADMIT verdict. -/
abbrev GateRec.admitted (g : GateRec) (x : Admission) : GateRec :=
  { g with admission := some x, state := .passing, verdict := some (.entry x.k), carried := false }

section
variable {a : Nat} {g h : GateRec} {s t u : State} {c : Car} {ticket k : Nat}

theorem makeAdmission_eq (found : s.gate? a = some g) (ticket : Option Nat) (staff : Option SlotId) :
    makeAdmission a c ticket k staff s = { s with
      glm := (s.setGate { g with admission := some (s.newAdmission c ticket k staff), state := .passing }).glm
      tally := s.inFlightMore c k } := onGate_eq (s := s.setTally c _) _ found

/-- Checks 2 to 4 of R151 all passed: the admission is made. -/
theorem judgeSeats_admits {taking : Taking} (found : s.gate? a = some g) (group : Group)
    (room : ¬s.seatsLeft c < (k : Int)) (level : ((s.project c k).descends && (s.project c k).below) = false)
    (taken : s.ptb.taking ticket k group = .inl taking) : ∃ q, judgeSeats a group c ticket k s = ({ s with
      glm := (s.setGate (g.admitted (s.newAdmission c (some ticket) k none))).glm
      tally := s.inFlightMore c k, ptb := taking.table, slp := q }, .entry k) := by
  unfold judgeSeats
  rw [if_neg room]
  dsimp only
  rw [level, taken]
  simp only [Bool.false_eq_true, if_false]
  have made := makeAdmission_eq (s := { s with ptb := taking.table }) (c := c) (k := k) found (some ticket) none
  rw [made]
  have at_made := gate?_setGate_same (h := { g with admission := some (s.newAdmission c (some ticket) k none), state := .passing }) found rfl
  have judged : setVerdict a (.entry k) { s with
      glm := (s.setGate { g with admission := some (s.newAdmission c (some ticket) k none), state := .passing }).glm
      tally := s.inFlightMore c k, ptb := taking.table } = { s with
      glm := (s.setGate (g.admitted (s.newAdmission c (some ticket) k none))).glm, tally := s.inFlightMore c k, ptb := taking.table } := by
    have placed := onGate_eq (s := { s with
      glm := (s.setGate { g with admission := some (s.newAdmission c (some ticket) k none), state := .passing }).glm
      tally := s.inFlightMore c k, ptb := taking.table }) (fun g => { g with verdict := some (.entry k), carried := false }) at_made
    have twice := setGate_setGate (s := s) (g := { g with admission := some (s.newAdmission c (some ticket) k none), state := .passing })
      (h := g.admitted (s.newAdmission c (some ticket) k none)) rfl
    rw [← twice]
    exact placed
  obtain ⟨q, reported⟩ := admissionReport_eq a (some c) (some ticket) .verdict (some (.entry k)) (some k) 0 none
    (some (s.project c k).aEff) { s with
      glm := (s.setGate (g.admitted (s.newAdmission c (some ticket) k none))).glm, tally := s.inFlightMore c k, ptb := taking.table }
  exact ⟨q, by rw [← reported, ← judged]; rfl⟩

/-- An entry of the table asks for at least one seat (R126). -/
theorem seats_pos {t : PassTable} {e : PassEntry} {id : Nat} (law : t.law) (found : t.find? id = some e) : 1 ≤ e.seats := by
  have member : e ∈ t.entries := List.mem_of_find?_eq_some found
  obtain ⟨-, rides, -⟩ := law.2.2 e member
  unfold PassEntry.seats
  unfold PassEntry.ridesLaw at rides
  cases kind : e.kind
  case party =>
    rw [kind] at rides
    cases loads : e.rides with
    | none => exact Nat.le_refl 1
    | some n =>
      rw [loads] at rides
      cases loaded : e.loaded with
      | none =>
        rw [loaded] at rides
        have := (of_decide_eq_true rides).1
        exact Nat.le_trans (by decide) this
      | some m =>
        rw [loaded] at rides
        exact nomatch rides
  all_goals exact Nat.le_refl 1

/-- A lookup that finds a ticket eligible gives its seat count (R135). -/
theorem lookup_eligible {t : PassTable} {passback id : Nat} {g : Group} {kind : PassKind} {k : Nat}
    (found : t.lookup passback id g = .eligible kind k) : ∃ e, t.find? id = some e ∧ e.seats = k := by
  unfold PassTable.lookup at found
  split at found
  · exact nomatch found
  · rename_i e held
    refine ⟨e, held, ?_⟩
    split at found
    · exact nomatch found
    · split at found
      · exact nomatch found
      · split at found
        · exact nomatch found
        · split at found
          · exact nomatch found
          · split at found
            · exact nomatch found
            · split at found
              · exact nomatch found
              · cases found
                rfl

/-- The tallies follow a gate that is given an admission. -/
theorem seats_join {x : Admission} (ok : s.gatesOk) (idle : g.admission = none) (admission : h.admission = some x)
    (room : (s.tallyOf x.car).aboardMax + (s.tallyOf x.car).inFlight + x.pending ≤ s.capacity) (c : Car) :
    ((s.inFlightMore x.car x.pending).get c).inFlight + g.owed c = (s.tallyOf c).inFlight + h.owed c ∧
      ((s.inFlightMore x.car x.pending).get c).aboardMax + ((s.inFlightMore x.car x.pending).get c).inFlight ≤ s.capacity := by
  rw [owed_none c idle, owed_some c admission]
  by_cases same : x.car = c
  · subst same
    rw [if_pos rfl, State.inFlightMore, PerCar.get_set]
    exact ⟨rfl, by dsimp only; omega⟩
  · rw [if_neg same, State.inFlightMore, PerCar.get_set_other _ _ (Ne.symm same)]
    exact ⟨rfl, (ok.seats c).2⟩

/-- A gate in PASSING with an admission fits an OPEN window that serves its car. -/
theorem fits_admission {x : Admission} (admission : h.admission = some x) (state : h.state = .passing) (timer : h.queryTimer = none)
    (opened : (s.window h.group).state = .opened) (car : (s.window h.group).car = some x.car) (pending : 1 ≤ x.pending) : s.fits h := by
  refine ⟨fun _ => opened, fun runs => (nomatch timer.symm.trans (Option.eq_some_of_isSome runs)), fun y member => ?_⟩
  obtain rfl : x = y := Option.some.inj (admission.symm.trans member)
  exact ⟨state, pending, by rw [Window.busy, opened]; rfl, car⟩

theorem room_of_seatsLeft {n : Nat} (room : ¬s.seatsLeft c < (n : Int)) :
    (s.tallyOf c).aboardMax + (s.tallyOf c).inFlight + n ≤ s.capacity := by
  rw [State.seatsLeft] at room
  omega

/-- The staff admission at a READY gate with a seat left (R161). -/
theorem Tends.staffAdmission {f : Frame} (slot : SlotId) (found : s.gate? a = some g) (ready : g.state = .ready)
    (car : (s.window g.group).car = some c) (room : 1 ≤ s.seatsLeft c) : Tends f s (Machine.staffAdmission a c slot s) := by
  unfold Machine.staffAdmission
  dsimp only
  rw [makeAdmission_eq found none (some slot)]
  refine .trans ?_ (.admissionReport _ _ _ _ _ _ _ _ _ _)
  refine .exchange (ptb := s.ptb) (h := { g with admission := some (s.newAdmission c none 1 (some slot)), state := .passing }) found rfl
    (fun _ => id) (fun fits => ?_) id fun ok => ?_
  · have idle := idle_of_state fits (by rw [ready]; nofun) (by rw [ready]; nofun)
    exact fits_admission (x := s.newAdmission c none 1 (some slot)) rfl rfl idle.1 (fits.1 ready) car (Nat.le_refl 1)
  · have fits := ok.windows g (gate?_spec found).1
    have idle := idle_of_state fits (by rw [ready]; nofun) (by rw [ready]; nofun)
    have seat : ¬s.seatsLeft c < ((1 : Nat) : Int) := by omega
    exact seats_join (x := s.newAdmission c none 1 (some slot)) ok idle.2 rfl (room_of_seatsLeft seat)

/-! ## ADMIT verdicts -/

/-- t is s but for gates, tallies, the Pass Table and the link; its windows are those of s, and every ADMIT verdict that s does not
have stands at an OPEN window. -/
structure Grants (s t : State) : Prop where
  aside : t = { s with glm := t.glm, tally := t.tally, ptb := t.ptb, slp := t.slp }
  windows : t.glm.windows = s.glm.windows
  gates : s.gatesOk → t.gatesOk
  admits : s.gatesOk → ∀ a x k, t.gate? a = some x → x.verdict = some (.entry k) → s.admits a k ∨ (t.window x.group).state = .opened

/-- t is s but for gates and the link; its windows are those of s, and its gates have their groups and verdicts. -/
structure Polls (s t : State) : Prop where
  aside : t = { s with glm := t.glm, slp := t.slp }
  windows : t.glm.windows = s.glm.windows
  gates : s.gatesOk → t.gatesOk
  kept : s.gatesOk → ∀ a x, t.gate? a = some x → ∃ y, s.gate? a = some y ∧ y.group = x.group ∧ y.verdict = x.verdict

theorem Polls.rest (l : GateLoop) (p : Link) (law : s.glm.law → l.law) (gates : l.gates = s.glm.gates) (windows : l.windows = s.glm.windows) :
    Polls s { s with glm := l, slp := p } where
  aside := rfl
  windows := windows
  gates := gatesOk_of_eq law gates windows rfl rfl rfl
  kept _ a x found := ⟨x, by rw [← found]; exact (gate?_congr gates a).symm, rfl, rfl⟩

theorem Polls.trans (h : Polls s t) (i : Polls t u) : Polls s u where
  aside := by
    rw [i.aside]
    generalize u.glm = l
    generalize u.slp = p
    rw [h.aside]
  windows := i.windows.trans h.windows
  gates ok := i.gates (h.gates ok)
  kept ok a x found := by
    obtain ⟨y, at_t, group, verdict⟩ := i.kept (h.gates ok) a x found
    obtain ⟨z, at_s, group', verdict'⟩ := h.kept ok a y at_t
    exact ⟨z, at_s, group'.trans group, verdict'.trans verdict⟩

theorem Grants.polls (h : Grants s t) (i : Polls t u) : Grants s u where
  aside := by
    have apart := h.aside
    rw [i.aside]
    generalize u.glm = l
    generalize u.slp = p
    generalize t.glm = tg, t.tally = tt, t.ptb = tp, t.slp = tl at apart
    rw [apart]
  windows := i.windows.trans h.windows
  gates ok := i.gates (h.gates ok)
  admits ok a x k found entry := by
    obtain ⟨y, at_t, group, verdict⟩ := i.kept (h.gates ok) a x found
    rcases h.admits ok a y k at_t (verdict.trans entry) with old | opened
    · exact .inl old
    · refine .inr ?_
      rw [← group, State.window, i.windows]
      exact opened

/-- An admission made at an idle gate whose OPEN window serves the car. -/
theorem grants_admission {x : Admission} {table : PassTable} {q : Link} (found : s.gate? a = some g)
    (idle : s.fits g → g.queryTimer = none ∧ g.admission = none) (opened : s.fits g → (s.window g.group).state = .opened)
    (car : (s.window g.group).car = some x.car) (pending : s.ptb.law → 1 ≤ x.pending)
    (room : (s.tallyOf x.car).aboardMax + (s.tallyOf x.car).inFlight + x.pending ≤ s.capacity) (law : s.ptb.law → table.law) :
    Grants s { s with glm := (s.setGate (g.admitted x)).glm, tally := s.inFlightMore x.car x.pending, ptb := table, slp := q } where
  aside := rfl
  windows := rfl
  gates ok := by
    have fits := ok.windows g (gate?_spec found).1
    have placed := gatesOk_exchange (tally := s.inFlightMore x.car x.pending) (ptb := table) (h := g.admitted x) ok found rfl
      (fits_admission (x := x) rfl rfl (idle fits).1 (opened fits) car (pending ok.table)) (law ok.table)
      (seats_join ok (idle fits).2 rfl room)
    exact gatesOk_of_eq (s := { s with glm := (s.setGate (g.admitted x)).glm, tally := s.inFlightMore x.car x.pending, ptb := table })
      id rfl rfl rfl rfl rfl placed
  admits ok b y k at_b entry := by
    have at_b : (s.setGate (g.admitted x)).gate? b = some y := at_b
    by_cases here : g.address = b
    · obtain rfl : a = b := (gate?_spec found).2.symm.trans here
      obtain rfl : g.admitted x = y := Option.some.inj ((gate?_setGate_same (h := g.admitted x) found rfl).symm.trans at_b)
      exact .inr (opened (ok.windows g (gate?_spec found).1))
    · rw [gate?_setGate_other (h := g.admitted x) here] at at_b
      exact .inl ⟨y, at_b, entry⟩

/-- A gate at which the current admission is no staff's. -/
abbrev State.unstaffed (s : State) (a : Nat) : Prop := ∀ g, s.gate? a = some g → ∀ x ∈ g.admission, x.staff = none

/-- Checks 2 to 4 of R151 at an idle gate whose OPEN window serves the car: a refusal, or the admission (R151, R152). -/
theorem judgeSeats_cases (found : s.gate? a = some g) (idle : s.fits g → g.queryTimer = none ∧ g.admission = none)
    (opened : s.fits g → (s.window g.group).state = .opened) (car : (s.window g.group).car = some c) (seats : s.ptb.law → 1 ≤ k) :
    (∃ u r, judgeSeats a g.group c ticket k s = (u, .refuse r) ∧
        ∃ x, u = refuseAt a (some c) ticket r (some k) x s) ∨
      ∃ u, judgeSeats a g.group c ticket k s = (u, .entry k) ∧ Grants s u ∧ u.unstaffed a := by
  by_cases full : s.seatsLeft c < (k : Int)
  · exact .inl ⟨_, .full, by rw [judgeSeats, if_pos full], none, rfl⟩
  · cases level : ((s.project c k).descends && (s.project c k).below) with
    | true =>
      refine .inl ⟨refuseAt a (some c) ticket .balance (some k) (some (s.project c k).aEff) s, .balance, ?_, _, rfl⟩
      rw [judgeSeats, if_neg full]
      dsimp only
      rw [level, if_pos rfl]
    | false =>
      cases taken : s.ptb.taking ticket k g.group with
      | inr r =>
        refine .inl ⟨refuseAt a (some c) ticket r (some k) (some (s.project c k).aEff) s, r, ?_, _, rfl⟩
        rw [judgeSeats, if_neg full]
        dsimp only
        rw [level, if_neg Bool.false_ne_true, taken]
      | inl taking =>
        obtain ⟨q, admits⟩ := judgeSeats_admits (ticket := ticket) found g.group full level taken
        refine .inr ⟨_, admits, grants_admission (x := s.newAdmission c (some ticket) k none) found idle opened car seats
          (room_of_seatsLeft full) (fun law => taking_law law taken), fun y at_y x member => ?_⟩
        have at_y : (s.setGate (g.admitted (s.newAdmission c (some ticket) k none))).gate? a = some y := at_y
        rw [gate?_setGate_same (h := g.admitted (s.newAdmission c (some ticket) k none)) found rfl] at at_y
        obtain rfl := Option.some.inj at_y
        cases member
        rfl

theorem Tends.startQuery {f : Frame} (group : Group) (ticket : Nat) (found : s.gate? a = some g) (ready : g.state = .ready) :
    Tends f s (Machine.startQuery a group c ticket s) := by
  unfold Machine.startQuery
  rw [found]
  refine .trans (.setGate (h := { g with
    state := .query, queryNumber := (g.queryNumber + 1) % 256, queryTicket := some ticket, queryTimer := some Config.queryMs })
    found ⟨rfl, rfl, fun _ => id, fun fits => ?_⟩) (.post _ _)
  refine ⟨nofun, fun _ => rfl, fun x member => ?_⟩
  have idle := idle_of_state fits (by rw [ready]; nofun) (by rw [ready]; nofun)
  exact nomatch idle.2.symm.trans member

/-- Judging at a READY gate: no ADMIT verdict, or one at the OPEN window (R151). -/
theorem judge_cases (ticket : Nat) (found : s.gate? a = some g) (ready : g.state = .ready) :
    Tends .free s (judge a ticket s) ∨ Grants s (judge a ticket s) ∧ (judge a ticket s).unstaffed a := by
  have refused : ∀ car r n e, Tends .free s (refuseAt a car ticket r n e s) := fun car r n e => .refuseAt a car ticket r n e s
  unfold judge
  rw [found]
  dsimp only
  cases car : (s.window g.group).car with
  | none => exact .inl (.refl s)
  | some c =>
    dsimp only
    split
    · exact .inl (refused _ _ _ _)
    · split
      · exact .inl (.ite (fun _ => .startQuery _ _ found ready) (fun _ => refused _ _ _ _))
      · exact .inl (refused _ _ _ _)
      · rename_i kind seats eligible
        obtain ⟨e, at_e, rfl⟩ := lookup_eligible eligible
        rcases judgeSeats_cases (ticket := ticket) found (fun fits => idle_of_state fits (by rw [ready]; nofun) (by rw [ready]; nofun))
          (fun fits => fits.1 ready) car (fun law => seats_pos law at_e) with ⟨u, r, judged, x, is_refused⟩ | ⟨u, judged, grants⟩
        · rw [judged]
          dsimp only
          rw [is_refused]
          exact .inl (refused _ _ _ _)
        · rw [judged]
          exact .inr grants

theorem presented_cases (a ticket : Nat) (s : State) :
    Tends .free s (presented a ticket s) ∨ Grants s (presented a ticket s) ∧ (presented a ticket s).unstaffed a := by
  have refused : ∀ car r, Tends .free s (refuseAt a car ticket r none none s) := fun car r => .refuseAt a car ticket r none none s
  unfold presented
  split
  · exact .inl (.refl s)
  · rename_i g found
    split
    · exact .inl (.refl s)
    · split
      case h_2 => exact judge_cases ticket found ‹_›
      case h_1 | h_4 | h_5 => exact .inl (refused _ _)
      all_goals exact .inl (.refl s)

/-- A request that has had its polls does nothing at a gate whose admission is no staff's (R160, R161). -/
theorem thirdPollPassed_polls {k : Hand} {p : Poll} (unstaffed : s.unstaffed p.address) : Polls s (thirdPollPassed k p s) := by
  have stays : Polls s s := .rest s.glm s.slp id rfl rfl
  unfold thirdPollPassed
  split
  · exact stays
  · rename_i access _
    split
    · rename_i third
      unfold completeAccess
      split
      · exact stays
      · rename_i r held
        obtain ⟨-, here⟩ : _ ∧ r.gate = p.address := by
          rw [held] at third
          simp only [Option.any_some, Bool.and_eq_true, beq_iff_eq] at third
          exact ⟨trivial, third.1⟩
        dsimp only
        rw [post_eq_taking]
        have freed : ∀ q, Polls s { s with glm := { s.glm with slots := s.glm.slots.set access.slot none }, slp := q } := fun q =>
          .rest { s.glm with slots := s.glm.slots.set access.slot none } q id rfl rfl
        unfold accessEffect
        split
        · rename_i nothing
          exact nomatch nothing
        · rename_i nothing
          exact nomatch nothing
        · rename_i nothing
          exact nomatch nothing
        · split
          · rename_i g found
            rw [if_neg]
            · exact freed _
            · have at_gate : s.gate? p.address = some g := here ▸ found
              cases admission : g.admission with
              | none => exact nofun
              | some x =>
                have nobody := unstaffed g at_gate x admission
                simp [nobody]
          · exact freed _
        · exact freed _
    · exact stays

theorem pollNext_polls (s : State) : Polls s (pollNext s) := by
  have unpolled : ∀ q, Polls s { s with glm := { s.glm with poll := q } } := fun q => .rest { s.glm with poll := q } s.slp id rfl rfl
  unfold pollNext
  dsimp only
  split
  · split
    · rename_i cycle g next
      have member : g ∈ s.glm.gates := nextPoll_member _ _ _ _ next
      have cycles : s.glm.cycle < 8 → cycle < 8 := fun l => nextPoll_cycle _ _ _ _ l next
      have sent := Tends.sendPoll (f := .free) cycle g { s with glm := { s.glm with poll := none }, overrun := false } member cycles
      refine (unpolled none).trans ⟨rfl, rfl, fun ok => ?_, fun ok b x at_x => ?_⟩
      · have okay := (sent.core rfl).gates (gatesOk_of_eq (s := { s with glm := { s.glm with poll := none } }) id rfl rfl rfl rfl rfl ok)
        exact gatesOk_of_eq (s := sendPoll cycle g { s with glm := { s.glm with poll := none }, overrun := false })
          id rfl rfl rfl rfl rfl okay
      · have found : State.gate? { s with glm := { s.glm with poll := none } } g.address = some g :=
          find?_address (addresses_nodup ok.list) member
        have at_x : (State.setGate { s with glm := { s.glm with poll := none } } { g with carried := g.verdict.isSome }).gate? b = some x :=
          at_x
        by_cases here : g.address = b
        · subst here
          rw [gate?_setGate_same (h := { g with carried := g.verdict.isSome }) found rfl] at at_x
          obtain rfl := Option.some.inj at_x
          exact ⟨g, found, rfl, rfl⟩
        · rw [gate?_setGate_other (h := { g with carried := g.verdict.isSome }) here] at at_x
          exact ⟨x, at_x, rfl, rfl⟩
    · exact unpolled none
  · exact unpolled none

end

end Sys2Proof.Machine
end

section
/-! SUPPORT. What a whole command does under the laws of boarding: Onset, what comes before any side newly waits; Course, the
hand-overs that follow; and Sound, what a step is asked. -/

namespace Sys2Proof.Machine

/-! ## Commands under the laws -/

/-- The laws of boarding with those of the gate list and the Pass Table. -/
structure State.lawful (s : State) : Prop where
  gates : s.gatesOk
  boarding : s.boardingLaw

/-- What a step is asked: the laws hold after it, a side that newly waits does so on a line at rest (R108), and a gate with a new ADMIT
verdict has an OPEN window (R151). -/
structure Sound (s t : State) : Prop where
  laws : t.lawful
  rests : ∀ c d, t.waits c d → ¬s.waits c d → t.rests
  admits : ∀ a x k, t.gate? a = some x → x.verdict = some (.entry k) → s.admits a k ∨ (t.window x.group).state = .opened

/-- A part of a command that makes no side wait and gives no ADMIT verdict. -/
structure Onset (s t : State) : Prop where
  overrun : s.overrun = true → t.overrun = true
  laws : s.lawful → t.overrun = false → t.lawful
  admits : s.lawful → t.overrun = false → ∀ a k, t.admits a k → s.admits a k
  waits : s.lawful → t.overrun = false → ∀ c d, t.waits c d → s.waits c d

/-- A part of a command that makes sides wait on a line at rest alone, where it leaves the line, and gives no ADMIT verdict. -/
structure Course (s t : State) : Prop where
  overrun : s.overrun = true → t.overrun = true
  laws : s.lawful → t.overrun = false → t.lawful
  admits : s.lawful → t.overrun = false → ∀ a k, t.admits a k → s.admits a k
  rests : s.lawful → t.overrun = false → ∀ c d, t.waits c d → (s.waits c d → s.rests) → t.rests

/-- A command that is as a step asks, where its hand-overs do not go too deep. -/
abbrev Meets (s t : State) : Prop := s.lawful → t.overrun = false → Sound s t

section
variable {s t u : State} {f : Frame}

/-- The laws speak of the haulage, the brakes, the doors, the gate loop, the tallies, the table, the modes and the parameters. -/
theorem lawful_of_eq (haul : t.hac = s.hac) (brakes : t.bsq = s.bsq) (doors : t.dru = s.dru) (table : t.ptb = s.ptb)
    (loop : t.glm = s.glm) (tally : t.tally = s.tally) (mode : t.lmu = s.lmu) (line : t.line = s.line) (law : s.lawful) : t.lawful where
  gates := gatesOk_of_eq (by rw [loop]; exact id) (by rw [loop]) (by rw [loop]) table tally line law.gates
  boarding := by
    have boarding := law.boarding
    simpa only [State.boardingLaw, State.window, State.side, haul, brakes, doors, loop, mode] using boarding

theorem clear_of_stays (stays : s.overrun = true → t.overrun = true) (clear : t.overrun = false) : s.overrun = false := by
  cases o : s.overrun
  · rfl
  · exact nomatch clear.symm.trans (stays o)

theorem lawful_of_core (core : Tends.Core f s t) (law : s.lawful) : t.lawful := by
  obtain ⟨placed, allowed, trip, test⟩ := boardingLaw_iff.1 law.boarding
  exact ⟨core.gates law.gates, boardingLaw_iff.2 ⟨fun g => core.placed g (placed g), fun c d => core.allowed c d (allowed c d),
    core.trip trip, core.test test⟩⟩

theorem Tends.course (h : Tends f s t) : Course s t where
  overrun := h.overrun
  laws law clear := lawful_of_core (h.core clear) law
  admits law clear := (h.core clear).admits law.gates
  rests _ clear := (h.core clear).rests

theorem Course.refl (s : State) : Course s s := (Tends.refl (f := .free) s).course

theorem Onset.refl (s : State) : Onset s s := ⟨id, fun law _ => law, fun _ _ _ _ => id, fun _ _ _ _ => id⟩

theorem Course.trans (h : Course s t) (i : Course t u) : Course s u where
  overrun o := i.overrun (h.overrun o)
  laws law clear := i.laws (h.laws law (clear_of_stays i.overrun clear)) clear
  admits law clear a k admits := by
    have before := clear_of_stays i.overrun clear
    exact h.admits law before a k (i.admits (h.laws law before) clear a k admits)
  rests law clear c d waits rests := by
    have before := clear_of_stays i.overrun clear
    exact i.rests (h.laws law before) clear c d waits fun waits => h.rests law before c d waits rests

theorem Onset.trans (h : Onset s t) (i : Onset t u) : Onset s u where
  overrun o := i.overrun (h.overrun o)
  laws law clear := i.laws (h.laws law (clear_of_stays i.overrun clear)) clear
  admits law clear a k admits := by
    have before := clear_of_stays i.overrun clear
    exact h.admits law before a k (i.admits (h.laws law before) clear a k admits)
  waits law clear c d waits := by
    have before := clear_of_stays i.overrun clear
    exact h.waits law before c d (i.waits (h.laws law before) clear c d waits)

/-- A command that begins without making a side wait. -/
theorem Onset.meets (h : Onset s t) (i : Course t u) : Meets s u := by
  intro law clear
  have before := clear_of_stays i.overrun clear
  have there := h.laws law before
  exact {
    laws := i.laws there clear
    rests := fun c d waits fresh => i.rests there clear c d waits fun waits => absurd (h.waits law before c d waits) fresh
    admits := fun a x k found entry => .inl (h.admits law before a k (i.admits there clear a k ⟨x, found, entry⟩)) }

theorem Course.meets (h : Course s t) : Meets s t := (Onset.refl s).meets h

theorem Tends.meets (h : Tends f s t) : Meets s t := h.course.meets

/-- Hand-overs of which nothing newly waits. -/
theorem Tends.onset (h : Tends f s t) (waits : s.lawful → t.overrun = false → ∀ c d, t.waits c d → s.waits c d) : Onset s t :=
  ⟨h.overrun, fun law clear => lawful_of_core (h.core clear) law, fun law clear => (h.core clear).admits law.gates, waits⟩

/-- A command that gives an ADMIT verdict at the end. -/
theorem Course.grants (h : Course s t) (i : Grants t u) : Meets s u := by
  intro law clear
  obtain ⟨aside, windows, gates, admits⟩ := i
  have before : t.overrun = false := by
    rw [aside] at clear
    exact clear
  have there := h.laws law before
  have same_hac : u.hac = t.hac := by rw [aside]
  have same_bsq : u.bsq = t.bsq := by rw [aside]
  have same_dru : u.dru = t.dru := by rw [aside]
  have same_lmu : u.lmu = t.lmu := by rw [aside]
  have same_ptr : u.ptr = t.ptr := by rw [aside]
  refine ⟨⟨gates there.gates, ?_⟩, fun c d waits fresh => ?_, fun a x k found entry => ?_⟩
  · have boarding := there.boarding
    simpa only [State.boardingLaw, State.window, State.side, same_hac, same_bsq, same_dru, same_lmu, windows] using boarding
  · have rests := h.rests law before c d (by simpa only [State.waits, State.side, same_dru] using waits) fun waits => absurd waits fresh
    simpa only [State.rests, State.brake, same_hac, same_bsq, same_ptr] using rests
  · exact (admits there.gates a x k found entry).imp (fun old => h.admits law before a k old) id

/-- The link, the queue, the reset line and the mark of depth are beside the laws. -/
theorem Meets.aside {p : Link} {q : Link} {pending : List Instr} {reset : Option ResetCause} {o : Bool}
    (h : Meets { s with slp := p, pending := pending, inReset := reset, overrun := o } t) : Meets s { t with slp := q } := by
  intro law clear
  have there : State.lawful { s with slp := p, pending := pending, inReset := reset, overrun := o } :=
    lawful_of_eq (s := s) rfl rfl rfl rfl rfl rfl rfl rfl law
  obtain ⟨laws, rests, admits⟩ := h there clear
  exact ⟨lawful_of_eq (s := t) rfl rfl rfl rfl rfl rfl rfl rfl laws, rests, admits⟩

/-! ## Beginnings -/

/-- The tracker is beside the laws. -/
theorem Onset.track (s : State) (p : Tracker) : Onset s { s with ptr := p } :=
  ⟨id, fun law _ => lawful_of_eq (s := s) rfl rfl rfl rfl rfl rfl rfl rfl law, fun _ _ _ _ => id, fun _ _ _ _ => id⟩

/-- The brakes change but for the latch and the test. -/
theorem Onset.brakes (s : State) (b : Brakes) (latch : b.latch = s.bsq.latch) (test : b.test.isSome = s.bsq.test.isSome) :
    Onset s { s with bsq := b } where
  overrun := id
  laws law _ := by
    obtain ⟨placed, allowed, trip, test_held⟩ := boardingLaw_iff.1 law.boarding
    refine ⟨gatesOk_of_eq (s := s) id rfl rfl rfl rfl rfl law.gates, boardingLaw_iff.2 ⟨fun g busy => ?_, allowed, fun tripped => ?_, fun runs => ?_⟩⟩
    · obtain ⟨held, stop, init, parked, warming, evac⟩ := placed g busy
      exact ⟨held, stop, init, parked, warming, fun m => (congrArg Option.isSome latch).trans (evac m)⟩
    · exact (congrArg Option.isSome latch).trans (trip tripped)
    · exact test_held (test.symm.trans runs)
  admits _ _ _ _ := id
  waits _ _ _ _ := id

/-- No window is OPEN or SEALING and no side waits. -/
structure State.idle (s : State) : Prop where
  windows : ∀ g, (s.window g).busy = false
  sides : ∀ c d, ¬s.waits c d

theorem windowsBusy_false (none : s.windowsBusy = false) (g : Group) : (s.window g).busy = false := by
  rw [State.windowsBusy, List.any_eq_false] at none
  have := none g (by cases g <;> decide)
  simpa [Window.busy] using this

theorem idle_of_secured (windows : s.windowsBusy = false) (secured : s.allSecured = true) : s.idle :=
  ⟨windowsBusy_false windows, fun c d waits => nomatch (allSecured_iff.1 secured c d).symm.trans waits⟩

/-- In INIT and PARKED nothing boards (R109 to R111, R149). -/
theorem idle_of_configurable (law : s.lawful) (mode : s.configurable = true) : s.idle := by
  obtain ⟨placed, allowed, -⟩ := boardingLaw_iff.1 law.boarding
  simp only [State.configurable, Bool.or_eq_true, beq_iff_eq] at mode
  refine ⟨fun g => ?_, fun c d waits => ?_⟩
  · by_contra busy
    obtain ⟨-, -, init, parked, -⟩ := placed g (by simpa using busy)
    exact mode.elim init parked
  · rcases allowed c d waits with ⟨m | m, -⟩ | ⟨m, -⟩ <;> rw [m] at mode <;> simp at mode

/-- Without OPEN and SEALING windows no gate has an admission and nobody is in flight (R152, R159). -/
theorem nobody_inFlight (ok : s.gatesOk) (idle : s.idle) : (∀ g ∈ s.glm.gates, g.admission = none) ∧ ∀ c, (s.tallyOf c).inFlight = 0 := by
  have unadmitted : ∀ g ∈ s.glm.gates, g.admission = none := by
    intro g member
    cases admission : g.admission with
    | none => rfl
    | some x =>
      obtain ⟨-, -, busy, -⟩ := (ok.windows g member).2.2 x admission
      exact nomatch (idle.windows g.group).symm.trans busy
  refine ⟨unadmitted, fun c => ?_⟩
  rw [(ok.seats c).1, pendingFor_eq_sum, List.sum_eq_zero_iff]
  intro n member
  obtain ⟨g, in_list, rfl⟩ := List.mem_map.1 member
  exact owed_none c (unadmitted g in_list)

/-- Where nothing boards the berth record and the clearance marks change freely. -/
theorem Onset.berth (s : State) (h : Haulage) (cleared : PerCar Bool) (stops : List StopRec) (p : Tracker) (state : h.state = s.hac.state)
    (idle : s.lawful → s.idle) :
    Onset s { s with hac := h, dru := { s.dru with cleared := cleared }, stops := stops, ptr := p } where
  overrun := id
  laws law _ := by
    obtain ⟨-, -, trip, test⟩ := boardingLaw_iff.1 law.boarding
    refine ⟨gatesOk_of_eq (s := s) id rfl rfl rfl rfl rfl law.gates, boardingLaw_iff.2 ⟨fun g busy => ?_, fun c d waits => ?_, trip, ?_⟩⟩
    · exact nomatch ((idle law).windows g).symm.trans busy
    · exact absurd waits ((idle law).sides c d)
    · exact fun runs => state.trans (test runs)
  admits _ _ _ _ := id
  waits _ _ _ _ := id

/-- Where nothing boards and no test runs the haulage changes freely. -/
theorem Onset.departs (s : State) (h : Haulage) (o : Supervisor) (cleared : PerCar Bool) (idle : s.idle) (no_test : s.bsq.test = none) :
    Onset s { s with hac := h, osp := o, dru := { s.dru with cleared := cleared } } where
  overrun := id
  laws law _ := by
    obtain ⟨-, -, trip, -⟩ := boardingLaw_iff.1 law.boarding
    refine ⟨gatesOk_of_eq (s := s) id rfl rfl rfl rfl rfl law.gates, boardingLaw_iff.2 ⟨fun g busy => ?_, fun c d waits => ?_, trip, fun runs => ?_⟩⟩
    · exact nomatch (idle.windows g).symm.trans busy
    · exact absurd waits (idle.sides c d)
    · exact nomatch (congrArg Option.isSome no_test).symm.trans runs
  admits _ _ _ _ := id
  waits _ _ _ _ := id

end

end Sys2Proof.Machine
end

section
/-! SUPPORT. Beginnings of commands under the laws of boarding: changes of mode, stops of a line that moves, samples, brake timers and
contacts. -/

namespace Sys2Proof.Machine

/-! ## Changes of mode (R165, R168) -/

/-- The laws let a change of mode be made: windows are OPEN or SEALING only where the new mode has them, and TRIPPED has its latch. -/
structure State.admitsMode (s : State) (m : Mode) : Prop where
  windows : ∀ g, (s.window g).busy = true → m ≠ .init ∧ m ≠ .parked ∧ m ≠ .warming ∧ (m = .evacuation → s.bsq.latch.isSome = true)
  tripped : m = .tripped → s.bsq.latch.isSome = true

section
variable {s t u : State} {f : Frame}

/-- The laws but for the latch of TRIPPED. -/
structure State.lawfulUntripped (s : State) : Prop where
  gates : s.gatesOk
  placed : ∀ g, s.windowPlaced g
  allowed : ∀ c d, s.waitAllowed c d
  test : s.testHeld

theorem lawful_untripped (law : s.lawful) : s.lawfulUntripped := by
  obtain ⟨placed, allowed, -, test⟩ := boardingLaw_iff.1 law.boarding
  exact ⟨law.gates, placed, allowed, test⟩

theorem Tends.Core.untripped (core : Tends.Core f s t) (law : s.lawfulUntripped) : t.lawfulUntripped :=
  ⟨core.gates law.gates, fun g => core.placed g (law.placed g), fun c d => core.allowed c d (law.allowed c d), core.test law.test⟩

/-- A change of mode that the laws let be made. -/
structure Enters (m : Mode) (s t : State) : Prop where
  overrun : s.overrun = true → t.overrun = true
  laws : s.lawfulUntripped → s.admitsMode m → t.overrun = false → t.lawful
  admits : s.gatesOk → t.overrun = false → ∀ a k, t.admits a k → s.admits a k
  rests : t.overrun = false → ∀ c d, t.waits c d → (s.waits c d → s.rests) → t.rests

theorem changeMode_enters (e : ModeEntry) (cause : ModeCause) (unmet : Option WarmUnmet) (s : State) :
    Enters e.mode s (cascade (.changeMode e cause unmet) s) := by
  have changes : cascade (.changeMode e cause unmet) s = changeModeNow (run 63) e cause unmet s := rfl
  rw [changes, changeModeNow_eq]
  obtain ⟨l, q, entered, mode⟩ := entered_eq s e cause unmet
  rw [show modeReport .change s.lmu.mode (some cause) unmet (suspendOrResume s.lmu.isQuiet { s with lmu := s.lmu.enter e })
    = { s with lmu := l, slp := q } from entered]
  have closing := run_closing 63
  have follows : Tends .free { s with lmu := l, slp := q } (modeFollows (run 63) s.lmu.mode e { s with lmu := l, slp := q }) :=
    .modeFollows closing.toSteady _ e _ rfl
  have allowed := fun clear c d => modeFollows_allowed closing (s := { s with lmu := l, slp := q }) (old := s.lmu.mode) (e := e) clear
    (c := c) (d := d)
  generalize modeFollows (run 63) s.lmu.mode e { s with lmu := l, slp := q } = t at follows allowed ⊢
  refine ⟨follows.overrun, fun law may clear => ?_, fun ok clear => ?_, fun clear => (follows.core clear).rests⟩
  · have core := follows.core clear
    obtain ⟨windows, tripped⟩ := may
    refine ⟨core.gates (gatesOk_of_eq (s := s) id rfl rfl rfl rfl rfl law.gates), boardingLaw_iff.2 ⟨fun g => core.placed g fun busy => ?_,
      fun c d => allowed clear c d ?_, core.trip fun m => tripped (mode.symm.trans m), core.test law.test⟩⟩
    · obtain ⟨held, stop, -⟩ := law.placed g busy
      refine ⟨held, stop, ?_⟩
      dsimp only
      rw [mode]
      exact windows g busy
    · cases stays : closesDoors s.lmu.mode e.mode
      · exact .inr (waitAllowed_entered mode stays (law.allowed c d))
      · exact .inl rfl
  · exact (follows.core clear).admits (gatesOk_of_eq (s := s) id rfl rfl rfl rfl rfl ok)

theorem Course.changeMode (e : ModeEntry) (cause : ModeCause) (unmet : Option WarmUnmet) (s : State)
    (may : s.lawful → s.admitsMode e.mode) : Course s (cascade (.changeMode e cause unmet) s) := by
  obtain ⟨stays, laws, admits, rests⟩ := changeMode_enters e cause unmet s
  exact ⟨stays, fun law => laws (lawful_untripped law) (may law), fun law => admits law.gates, fun _ => rests⟩

/-! ## Stops of a line that moves -/

/-- No side newly waits, and where none waits no window becomes OPEN or SEALING. -/
structure Quiet (s t : State) : Prop where
  waits : ∀ c d, t.waits c d → s.waits c d
  windows : (∀ c d, ¬s.waits c d) → ∀ g, (t.window g).busy = true → (s.window g).busy = true

theorem Quiet.refl (s : State) : Quiet s s := ⟨fun _ _ => id, fun _ _ => id⟩

/-- A line that does not berth is quiet where the frame asks it. -/
theorem Tends.quiet (h : Tends ⟨false, true, true⟩ s t) (clear : t.overrun = false) (unberthing : s.hac.state ≠ .berthing) : Quiet s t :=
  ⟨((h.core clear).wait rfl unberthing).2, (h.core clear).opened rfl rfl unberthing⟩

/-- A BRAKE stop of a line that berths takes it to STOPPING before anything else moves (R35a, R39). -/
theorem takeStop_quiet {n : Nat} (cause : StopCause) (no_test : s.bsq.test = none) (berthing : s.hac.state = .berthing)
    (clear : (takeStop (run (n + 1)) .brake cause s).overrun = false) : Quiet s (takeStop (run (n + 1)) .brake cause s) := by
  obtain ⟨event, r, taken⟩ := takeStop_eq (run (n + 1)) .brake cause s
  rw [taken, abortTest_none no_test] at clear ⊢
  have moving : s.hac.state ≠ .held := by rw [berthing]; nofun
  have stopped : haulageOnStop .brake { s with bsq := { s.bsq with stop := some r } } =
      sendWord (enterStopping { s with bsq := { s.bsq with stop := some r } }) := by
    simp only [haulageOnStop, berthing]
  rw [stopped, enterStopping_moving (s := { s with bsq := { s.bsq with stop := some r } }) moving] at clear ⊢
  have rest := Tends.stopFollows (f := ⟨false, true, true⟩) (run_closing (n + 1)).toSteady .brake cause event s.brakeStates
  have follows := (rest (sendWord { s with
    bsq := { s.bsq with stop := some r }, hac := { s.hac with state := .stopping, vRef := 0, ramp := false }
    osp := if s.hac.state = .stopping then s.osp else { s.osp with acc := 0, ordered := false } }) (fun keeps => nomatch keeps)).quiet
      clear (by show HState.stopping ≠ .berthing; decide)
  exact ⟨follows.waits, follows.windows⟩

theorem brakeStop_quiet (cause : StopCause) (held : s.testHeld)
    (clear : (cascade (.orderStop .brake cause) s).overrun = false) : Quiet s (cascade (.orderStop .brake cause) s) := by
  by_cases berthing : s.hac.state = .berthing
  · have no_test : s.bsq.test = none := by
      cases test : s.bsq.test with
      | none => rfl
      | some t =>
        have stands : s.hac.state = .held := held (by rw [test]; rfl)
        exact nomatch berthing.symm.trans stands
    have orders : cascade (.orderStop .brake cause) s = if s.takesStop .brake = true then takeStop (run 63) .brake cause s else s := rfl
    rw [orders] at clear ⊢
    split at clear
    · rename_i takes
      rw [if_pos takes]
      exact takeStop_quiet cause no_test berthing clear
    · rename_i takes
      rw [if_neg takes]
      exact .refl s
  · exact (cascade_steady.stop (f := ⟨false, true, true⟩) .brake cause s (fun keeps => nomatch keeps)).quiet clear berthing

/-- A loss of validity writes the tracker and the link, and orders a BRAKE stop where the line moves (R18). -/
theorem loseValidity_cases (k : Hand) (cause : PositionCause) (marker : Option Nat) (switch : Option LineEnd) (s : State) :
    loseValidity k cause marker switch s = s ∨ ∃ p q, loseValidity k cause marker switch s = { s with ptr := p, slp := q } ∨
      s.moving = true ∧ loseValidity k cause marker switch s = k (.orderStop .brake .position) { s with ptr := p, slp := q } := by
  unfold loseValidity
  split
  · exact .inl rfl
  · have reported : ∃ q, positionReport cause s.ptr.x s.ptr.x marker switch { s with ptr := { s.ptr with validity := .lost } } =
        { s with ptr := { s.ptr with validity := .lost }, slp := q } := ⟨_, post_eq_taking _ _⟩
    obtain ⟨q, reported⟩ := reported
    dsimp only
    rw [reported]
    refine .inr ⟨{ s.ptr with validity := .lost }, q, ?_⟩
    split
    · rename_i moving
      exact .inr ⟨moving, rfl⟩
    · exact .inl rfl

theorem loseValidity_quiet (cause : PositionCause) (marker : Option Nat) (switch : Option LineEnd) (held : s.testHeld)
    (clear : (loseValidity cascade cause marker switch s).overrun = false) : Quiet s (loseValidity cascade cause marker switch s) := by
  rcases loseValidity_cases cascade cause marker switch s with same | ⟨p, q, written | ⟨-, stopped⟩⟩
  · rw [same]
    exact .refl s
  · rw [written]
    exact ⟨fun _ _ => id, fun _ _ => id⟩
  · rw [stopped] at clear ⊢
    have quiet := brakeStop_quiet (s := { s with ptr := p, slp := q }) .position held clear
    exact ⟨quiet.waits, quiet.windows⟩

/-! ## Samples (R11, R13) -/

/-- A count changes the Line Mode Unit and the link alone: what it may force, REDUCED out of SERVICE, has no other effect (R165, R175). -/
theorem bumpHealth_writes (n : CounterName) (amount : Nat) (s : State) :
    ∃ l q, bumpHealth cascade n amount s = { s with lmu := l, slp := q } := by
  unfold bumpHealth
  dsimp only
  split
  · rw [post_eq_taking]
    split
    · rename_i forced
      obtain ⟨service, -⟩ : s.lmu.mode = .service ∧ True := by simp_all
      generalize Link.taking _ _ = q
      generalize hl : ({ s.lmu with health := _ } : LineMode) = l
      have mode : l.mode = .service := by rw [← hl]; exact service
      obtain ⟨m, p, entered, -⟩ := entered_eq { s with lmu := l, slp := q } (.plain .reduced) .forced none
      refine ⟨m, p, ?_⟩
      have follows : cascade (.changeMode (.plain .reduced) .forced none) { s with lmu := l, slp := q } =
          modeFollows (run 63) l.mode (.plain .reduced) (State.entered { s with lmu := l, slp := q } (.plain .reduced) .forced none) := rfl
      rw [follows, mode, entered]
      rfl
    · exact ⟨_, _, rfl⟩
  · exact ⟨_, s.slp, rfl⟩

theorem bumpHealth_quiet (n : CounterName) (amount : Nat) (s : State) : Quiet s (bumpHealth cascade n amount s) := by
  obtain ⟨l, q, written⟩ := bumpHealth_writes n amount s
  rw [written]
  exact ⟨fun _ _ => id, fun _ _ => id⟩

/-- The cross-check makes no side wait (R13, R18). -/
theorem Onset.crossCheck (p : LineFields) (wasBeyond : Bool) (s : State) : Onset s (Machine.crossCheck cascade p wasBeyond s) := by
  unfold Machine.crossCheck
  dsimp only
  have counted : Onset s (if (s.ptr.beyond && !wasBeyond) = true then bumpHealth cascade .pos 1 s else s) := by
    split
    · exact (Tends.bumpHealth (f := .free) cascade_steady .pos 1 s rfl).onset fun _ _ => (bumpHealth_quiet _ _ s).waits
    · exact .refl s
  refine counted.trans ?_
  generalize (if (s.ptr.beyond && !wasBeyond) = true then bumpHealth cascade .pos 1 s else s) = t
  split
  · refine (Tends.loseValidity (f := .free) cascade_steady .diverged none none t).onset fun law clear => ?_
    obtain ⟨-, -, -, held⟩ := boardingLaw_iff.1 law.boarding
    exact (loseValidity_quiet .diverged none none held clear).waits
  · exact .refl t

theorem sample_meets (now : Switches) (s : State) : Meets s (sample cascade now s) := by
  unfold sample
  dsimp only
  have read : Onset s (readSwitches now s) := .track s _
  have ends : ∀ (t : Int) (u : State), Tends .free u (onSample cascade t (overtravelSwitches cascade s.ptr.switches now u)) :=
    fun t u => .trans (.overtravelSwitches cascade_steady _ _ u) (.onSample cascade_steady _ _)
  split
  · exact read.meets (ends _ _).course
  · rename_i p _
    have located := read.trans (.track _ ((readSwitches now s).ptr.locate p))
    have checked := located.trans (.crossCheck p (readSwitches now s).ptr.wasBeyond _)
    exact (checked.trans (.track _ _)).meets (Tends.trans (.terminalSwitches cascade_steady _ _ _ _ _ _) (ends _ _)).course

end

end Sys2Proof.Machine
end

section
/-! SUPPORT. Brake events and the requests of the Brake Sequencer, the Haulage Controller and the Line Mode Unit under the laws of
boarding. -/

namespace Sys2Proof.Machine

section
variable {s t u : State} {f : Frame}

/-! ## Brake events (R69 to R71) -/

theorem Onset.setBrake (b : BrakeId) (r : BrakeRec) (s : State) : Onset s (s.setBrake b r) :=
  .brakes s { s.bsq with recs := s.bsq.recs.set b r } rfl rfl

theorem brakeFault_meets (b : BrakeId) (cause : BrakeFaultCause) (s : State) : Meets s (brakeFault cascade b cause s) := by
  unfold brakeFault
  dsimp only
  refine (Onset.setBrake b { s.brake b with state := .fault, timer := none } s).meets (Tends.course (f := .free) ?_)
  exact .trans (.post _ _) (.trans (cascade_steady.stop _ _ _ nofun) (cascade_steady.brakesChanged _))

/-- What a change of a brake's reading does to the records of the brakes comes before what it hands over (R70). -/
theorem readingChanged_cases (b : BrakeId) (x : Reading) (s : State) : readingChanged cascade b x s = s ∨
    (∃ cause, readingChanged cascade b x s = brakeFault cascade b cause s) ∨
    ∃ e r, Course (s.setBrake e r) (readingChanged cascade b x s) := by
  have timed : ∀ v, ∃ e r, Course (s.setBrake e r) (setBrakeTimer b v s) := fun v => ⟨b, { s.brake b with timer := v }, .refl _⟩
  have settled : ∀ st, ∃ e r, Course (s.setBrake e r) (settleBrake cascade b st s) := fun st =>
    ⟨b, { s.brake b with state := st, timer := none }, (cascade_steady.brakesChanged (f := .free) _).course⟩
  unfold readingChanged
  split
  case h_2 => exact .inr (.inl ⟨_, rfl⟩)
  case h_1 | h_3 | h_8 | h_9 => exact .inr (.inr (timed _))
  case h_4 | h_10 => exact .inr (.inr (settled _))
  case h_7 =>
    split
    · exact .inr (.inl ⟨_, rfl⟩)
    · refine .inr (.inr ⟨.eb, { cmd := .apply, state := .applied, timer := none }, Tends.course (f := .free) ?_⟩)
      exact .trans (cascade_steady.brakesChanged _) (cascade_steady.stop _ _ _ nofun)
  all_goals exact .inl rfl

theorem readingChanged_meets (b : BrakeId) (x : Reading) (s : State) : Meets s (readingChanged cascade b x s) := by
  rcases readingChanged_cases b x s with same | ⟨cause, faulted⟩ | ⟨e, r, course⟩
  · rw [same]
    exact (Course.refl s).meets
  · rw [faulted]
    exact brakeFault_meets b cause s
  · exact (Onset.setBrake e r s).meets course

theorem Onset.then (h : Onset s t) (i : Meets t u) (stays : t.overrun = true → u.overrun = true) : Meets s u := by
  intro law clear
  have before := clear_of_stays stays clear
  obtain ⟨laws, rests, admits⟩ := i (h.laws law before) clear
  exact ⟨laws, fun c d waits fresh => rests c d waits fun waits => fresh (h.waits law before c d waits),
    fun a x k found entry => (admits a x k found entry).imp (h.admits law before a k) id⟩

theorem contactsChanged_meets (b : BrakeId) (c : Contacts) (s : State) : Meets s (contactsChanged cascade b c s) := by
  have read : Onset s { s with bsq := { s.bsq with contacts := s.bsq.contacts.set b c } } := .brakes s _ rfl rfl
  unfold contactsChanged
  dsimp only
  split
  · exact read.meets (.refl _)
  · exact read.then (readingChanged_meets b _ _) (readingChanged_run cascade_drives b _ _).overrun_stays

theorem responseExpired_meets (b : BrakeId) (s : State) : Meets s (responseExpired cascade b s) := by
  unfold responseExpired
  split
  · exact (Onset.setBrake b _ s).meets (.refl _)
  · exact brakeFault_meets b _ s

/-! ## Departures (R30, R31) -/

theorem setHaulage_releases (held : s.hac.state = .held) : ∃ h o, setHaulage .releasing s =
    shutSealedWindows { s with hac := h, osp := o, dru := { s.dru with cleared := ⟨false, false⟩ } } := by
  have changes : (HState.held == HState.releasing) = false := rfl
  have away : (HState.releasing == HState.held) = false := rfl
  simp only [setHaulage, supervisorOnHaulage, held, changes, away, Bool.false_eq_true, if_false, beq_self_eq_true, if_true]
  exact ⟨_, _, rfl⟩

theorem departTo_meets (r : StopRec) (held : s.hac.state = .held) (idle : s.idle) (no_test : s.bsq.test = none) :
    Meets s (departTo cascade r s) := by
  unfold departTo
  dsimp only
  obtain ⟨cleared, berthed⟩ := setBerth_eq .offStop { s with
    hac := { s.hac with dest := some r.index, legMark := true, tripDir := directionTo r.pos s.ptr.x } }
  rw [berthed]
  obtain ⟨h, o, departs⟩ := setHaulage_releases (s := { s with
    hac := { s.hac with dest := some r.index, legMark := true, tripDir := directionTo r.pos s.ptr.x, berth := .offStop }
    dru := { s.dru with cleared := cleared } }) held
  rw [departs]
  refine (Onset.departs s h o ⟨false, false⟩ idle no_test).meets (Tends.course (f := .free) (.trans (.shutSealedWindows _) ?_))
  split
  · exact .refl _
  · exact cascade_steady.command _ _ _

theorem handleDepart_meets (s : State) : Meets s (handleDepart s).1 := by
  unfold handleDepart
  split
  · exact (Course.refl s).meets
  · rename_i still
    split
    · rename_i r none_present _
      have absent := namesPresent_nil none_present
      have held : s.hac.state = .held := by
        by_contra moves
        exact still (moving_iff.2 moves)
      have secured : s.allSecured = true := by simpa using absent (!s.allSecured, .doors) (by simp)
      have windows : s.windowsBusy = false := absent (s.windowsBusy, .windows) (by simp)
      have no_test : s.bsq.test.isSome = false := absent (s.bsq.test.isSome, .test) (by simp)
      exact departTo_meets r held (idle_of_secured windows secured) (by simpa using no_test)
    · exact (Course.refl s).meets

/-! ## TRIP_RESET (R81, R82) -/

theorem Onset.link (s : State) (q : Link) : Onset s { s with slp := q } :=
  ⟨id, fun law _ => lawful_of_eq (s := s) rfl rfl rfl rfl rfl rfl rfl rfl law, fun _ _ _ _ => id, fun _ _ _ _ => id⟩

theorem Onset.clearFault (b : BrakeId) (s : State) : Onset s (Machine.clearFault b s) := by
  obtain ⟨q, cleared⟩ := clearFault_eq b s
  rw [cleared]
  exact (Onset.setBrake b _ s).trans (.link _ q)

/-- In TRIPPED the latch may be cleared on the way to MAINTENANCE (R82). -/
theorem untripped_cleared (law : s.lawful) (tripped : s.lmu.mode = .tripped) (rail : Bool) :
    State.lawfulUntripped { s with bsq := { s.bsq with latch := none, railTrip := rail } } := by
  obtain ⟨gates, placed, allowed, test⟩ := lawful_untripped law
  refine ⟨gatesOk_of_eq (s := s) id rfl rfl rfl rfl rfl gates, fun g busy => ?_, allowed, test⟩
  obtain ⟨held, stop, init, parked, warming, -⟩ := placed g busy
  exact ⟨held, stop, init, parked, warming, fun evacuation => nomatch tripped.symm.trans evacuation⟩

theorem clearFault_mode (b : BrakeId) (s : State) : (clearFault b s).lmu = s.lmu := by
  obtain ⟨q, cleared⟩ := clearFault_eq b s
  rw [cleared]
  rfl

theorem tripReset_meets (tripped : s.lmu.mode = .tripped) : Meets s (tripReset cascade s) := by
  unfold tripReset
  dsimp only
  have begins : Onset s (clearFault .eb (clearFault .sb s)) := (Onset.clearFault .sb s).trans (.clearFault .eb _)
  have mode : (clearFault .eb (clearFault .sb s)).lmu.mode = .tripped := by rw [clearFault_mode, clearFault_mode, tripped]
  generalize clearFault .eb (clearFault .sb s) = t at begins mode ⊢
  have handed : Tends .free { t with bsq := { t.bsq with latch := none, railTrip := false } }
      (cascade (.command .eb .release) (cascade .settle (handOverBrakes cascade s.brakeStates
        { t with bsq := { t.bsq with latch := none, railTrip := false } }))) :=
    .trans (.handOverBrakes cascade_steady _ _) (.trans (cascade_steady.settle _) (cascade_steady.command _ _ _))
  generalize cascade (.command .eb .release) (cascade .settle (handOverBrakes cascade s.brakeStates
    { t with bsq := { t.bsq with latch := none, railTrip := false } })) = u at handed ⊢
  obtain ⟨stays, laws, admits, rests⟩ := changeMode_enters (.plain .maintenance) .tripReset none u
  refine Onset.meets begins (Course.trans (t := cascade (.changeMode (.plain .maintenance) .tripReset none) u) ?_
    (Tends.post (f := .free) _ _).course)
  have before : ∀ {v : State}, (u.overrun = true → v.overrun = true) → v.overrun = false → u.overrun = false := fun stays =>
    clear_of_stays stays
  have maintained : u.admitsMode .maintenance := ⟨fun _ _ => ⟨nofun, nofun, nofun, nofun⟩, nofun⟩
  refine ⟨fun o => stays (handed.overrun o), fun law clear => ?_, fun law clear a k given => ?_, fun law clear c d waits r => ?_⟩
  · exact laws ((handed.core (before stays clear)).untripped (untripped_cleared law mode false)) maintained clear
  · have core := handed.core (before stays clear)
    have ok := gatesOk_of_eq (s := t) (t := { t with bsq := { t.bsq with latch := none, railTrip := false } })
      id rfl rfl rfl rfl rfl law.gates
    exact core.admits ok a k (admits (core.gates ok) clear a k given)
  · exact rests clear c d waits fun waits => (handed.core (before stays clear)).rests c d waits r

theorem handleTripReset_meets (s : State) : Meets s (handleTripReset s).1 := by
  unfold handleTripReset
  split
  · rename_i none_present
    refine tripReset_meets ?_
    simpa using namesPresent_nil none_present (s.lmu.mode != .tripped, .mode) (by simp)
  · exact (Course.refl s).meets

/-! ## BRAKE_TEST (R83, R84) -/

theorem Tends.startTest (b : BrakeId) (s : State) (held : s.hac.state = .held) : Tends .free s (Machine.startTest cascade b s) := by
  cases b
  · exact .trans (.testStarts _ false s held) (.trans (.post _ _) (.enterTorque _ _ (by rw [post_bsq]; rfl)))
  · exact .trans (.testStarts _ false s held) (.trans (.post _ _) (cascade_steady.command _ _ _))

theorem handleBrakeTest_meets (brake : Nat) (s : State) : Meets s (handleBrakeTest brake s).1 := by
  unfold handleBrakeTest
  split
  · exact (Course.refl s).meets
  · rename_i b _
    split
    · exact (Course.refl s).meets
    · split
      · rename_i none_present
        have held : s.hac.state = .held := by
          have still : s.moving = false := namesPresent_nil none_present (s.moving, .notHeld) (by simp)
          by_contra moves
          exact nomatch still.symm.trans (moving_iff.2 moves)
        exact (Tends.startTest b s held).meets
      · exact (Course.refl s).meets

/-! ## SET_MODE (R167, R168) -/

/-- The rows of SET_MODE's table that enter PARKED, WARMING, EVACUATION and TRIPPED; none enters INIT (R168). -/
theorem modeChange_rows {old new : Mode} {c : ModeConditions} (v : Variant) (change : modeChange old new = some c) :
    ((entryOf old new v).mode ≠ .init) ∧
    ((entryOf old new v).mode = .parked → old = .init ∨ old = .parked ∨ c.windows = true ∨ old = .evacuation ∧ c.latchClear = true) ∧
    ((entryOf old new v).mode = .warming → old = .init ∨ old = .parked) ∧
    ((entryOf old new v).mode = .evacuation → c.offStop = true ∨ old = .tripped) ∧
    ((entryOf old new v).mode = .tripped → old = .evacuation ∧ new = .tripped) := by
  unfold modeChange at change
  split at change <;> cases change <;> simp [entryOf, ModeEntry.plain]

/-- The conditions of a change of mode let it be made (R168). -/
theorem admitsMode_of_conditions {new : Mode} {c : ModeConditions} (v : Variant) (change : s.modeChangeAllowed new = some c)
    (met : s.modeReasons c = []) (law : s.lawful) : s.admitsMode (entryOf s.lmu.mode new v).mode := by
  obtain ⟨placed, -, trip, -⟩ := boardingLaw_iff.1 law.boarding
  unfold State.modeChangeAllowed at change
  split at change
  · exact nomatch change
  · rename_i latched
    obtain ⟨not_init, to_parked, to_warming, to_evacuation, to_tripped⟩ := modeChange_rows v change
    have absent := namesPresent_nil met
    have windows : (c.windows && s.windowsBusy) = false := absent (c.windows && s.windowsBusy, .windows) (by simp)
    have off_stop : (c.offStop && s.hac.berth.stop.isSome) = false := absent (c.offStop && s.hac.berth.stop.isSome, .atStop) (by simp)
    have latch_clear : (c.latchClear && s.bsq.latch.isSome) = false := absent (c.latchClear && s.bsq.latch.isSome, .tripLatched) (by simp)
    refine ⟨fun g busy => ?_, fun tripped => ?_⟩
    · obtain ⟨-, stop, init, parked, -, evacuated⟩ := placed g busy
      refine ⟨not_init, fun m => ?_, fun m => (to_warming m).elim init parked, fun m => ?_⟩
      · rcases to_parked m with i | p | w | ⟨e, l⟩
        · exact init i
        · exact parked p
        · rw [w, Bool.true_and] at windows
          exact nomatch (windowsBusy_false windows g).symm.trans busy
        · rw [l, evacuated e] at latch_clear
          exact nomatch latch_clear
      · rcases to_evacuation m with o | tripped
        · rw [o, stop] at off_stop
          exact nomatch off_stop
        · exact trip tripped
    · obtain ⟨was, is⟩ := to_tripped tripped
      subst is
      simpa [was, Option.isSome_iff_ne_none] using latched

theorem examineMode_course (target links loop : Nat) (s : State) : Course s (examineMode cascade target links loop s).1 := by
  unfold examineMode
  split
  · exact .refl s
  · split
    · exact .refl s
    · split
      · unfold sameMode
        split
        · exact (Tends.changeVariant cascade_steady _ s).course
        · exact .refl s
      · unfold otherMode
        split
        · exact .refl s
        · rename_i c change
          split
          · exact .refl s
          · split
            · exact .refl s
            · split
              · rename_i met
                exact .changeMode _ _ _ s (admitsMode_of_conditions _ change met)
              · exact .refl s

theorem handleSetMode_meets (target links loop : Nat) (s : State) : Meets s (handleSetMode target links loop s).1 :=
  ((cascade_steady.abort (f := .free) .modeRequest s).course.trans (examineMode_course target links loop _)).meets

theorem warmingExpired_meets (s : State) : Meets s (warmingExpired cascade s) := by
  unfold warmingExpired
  split
  · rename_i warming
    refine (Course.changeMode { mode := .parked, variant := some s.lmu.warmBack, target := none } .warmFailed (some s.warmUnmet) s fun law => ⟨fun g busy => ?_, nofun⟩).meets
    obtain ⟨placed, -⟩ := boardingLaw_iff.1 law.boarding
    obtain ⟨-, -, -, -, not_warming, -⟩ := placed g busy
    exact absurd (by simpa using warming) not_warming
  · exact (Tends.modeRest (f := .free) s { s.lmu with warmTimer := none } rfl).meets

end

end Sys2Proof.Machine
end

section
/-! SUPPORT. The requests of the tables, the configuration, the doors and the gate loop under the laws of boarding. -/

namespace Sys2Proof.Machine

section
variable {s t u : State} {f : Frame}

theorem Onset.bind (h : Onset s t) (i : s.lawful → t.overrun = false → Onset t u) (stays : t.overrun = true → u.overrun = true) :
    Onset s u where
  overrun o := stays (h.overrun o)
  laws law clear := (h.trans (i law (clear_of_stays stays clear))).laws law clear
  admits law clear := (h.trans (i law (clear_of_stays stays clear))).admits law clear
  waits law clear := (h.trans (i law (clear_of_stays stays clear))).waits law clear

/-! ## CONFIGURE_LINE (R3, R4, R159) -/

/-- Where nothing boards, parameters with a new capacity empty both cars (R159). -/
theorem Onset.newCapacity (p : LineFields) (idle : s.lawful → s.idle) :
    Onset s (Machine.newCapacity s.line p { s with line := some p }) := by
  have parts : ∃ tally, Machine.newCapacity s.line p { s with line := some p } = { s with line := some p, tally := tally } ∧
      (s.lawful → ∀ c, (tally.get c).inFlight = 0 ∧ (tally.get c).aboardMax ≤ p.capacity) := by
    unfold Machine.newCapacity
    split
    · rename_i same
      refine ⟨s.tally, rfl, fun law c => ?_⟩
      have seats := law.gates.seats c
      have capacity : s.capacity = p.capacity := by
        cases line : s.line with
        | none => exact nomatch (line ▸ same)
        | some q =>
          rw [line] at same
          simpa [State.capacity, State.param, line] using same
      have none := (nobody_inFlight law.gates (idle law)).2 c
      exact ⟨none, by rw [← capacity]; exact Nat.le_trans (Nat.le_add_right _ _) seats.2⟩
    · refine ⟨_, rfl, fun law c => ?_⟩
      have none := (nobody_inFlight law.gates (idle law)).2 c
      cases c <;> exact ⟨none, Nat.le_refl _⟩
  obtain ⟨tally, written, seats⟩ := parts
  rw [written]
  refine ⟨id, fun law _ => ⟨?_, law.boarding⟩, fun _ _ _ _ => id, fun _ _ _ _ => id⟩
  refine ⟨law.gates.list, law.gates.table, law.gates.windows, fun c => ?_⟩
  obtain ⟨none, room⟩ := seats law c
  have pending : s.pendingFor c = 0 := by rw [← (law.gates.seats c).1, (nobody_inFlight law.gates (idle law)).2 c]
  exact ⟨none.trans pending.symm, by rw [State.tallyOf, none]; exact room⟩

theorem Tends.startResponse (b : BrakeId) (s : State) : Tends f s (Machine.startResponse b s) := by
  unfold Machine.startResponse
  dsimp only
  refine .ite (fun _ => .brakesRest s { s.bsq with recs := s.bsq.recs.set b { s.brake b with timer := s.respBound b } } rfl rfl ?_)
    (fun _ => .refl s)
  cases b <;> rfl

theorem Tends.startDoorTimer (c : Car) (d : Side) (s : State) : Tends f s (Machine.startDoorTimer c d s) := by
  unfold Machine.startDoorTimer
  dsimp only
  split
  · exact .ite (fun _ => .sideRest s c d _ rfl rfl) (fun _ => .refl s)
  · exact .ite (fun _ => .sideRest s c d _ rfl rfl) (fun _ => .refl s)
  · exact .ite (fun _ => .sideRest s c d _ rfl rfl) (fun _ => .refl s)
  · exact .ite (fun _ => .sideRest s c d _ rfl rfl) (fun _ => .refl s)
  all_goals exact .refl s

theorem Tends.startTimers (s : State) : Tends f s (Machine.startTimers s) := by
  unfold Machine.startTimers
  dsimp only
  exact .trans (.startResponse .sb s) (.trans (.startResponse .eb _)
    (.forEach _ _ (fun c t => .forEach _ _ (fun d u => .startDoorTimer c d u) t) _))

/-- The state of a line whose axis changes: nothing boards, and nothing begins to (R4, R29). -/
theorem Onset.axisChanged (idle : s.lawful → s.idle) : Onset s (Machine.axisChanged s) := by
  have lost : Onset s (loseValidity cascade .config none none s) :=
    (Tends.loseValidity (f := .free) cascade_steady .config none none s).onset fun law clear => by
      obtain ⟨-, -, -, held⟩ := boardingLaw_iff.1 law.boarding
      exact (loseValidity_quiet .config none none held clear).waits
  have still : s.lawful → (loseValidity cascade .config none none s).overrun = false →
      (loseValidity cascade .config none none s).idle := fun law clear => by
    obtain ⟨-, -, -, held⟩ := boardingLaw_iff.1 law.boarding
    have quiet := loseValidity_quiet .config none none held clear
    obtain ⟨windows, sides⟩ := idle law
    refine ⟨fun g => ?_, fun c d waits => sides c d (quiet.waits c d waits)⟩
    by_contra busy
    exact nomatch (windows g).symm.trans (quiet.windows sides g (by simpa using busy))
  unfold Machine.axisChanged
  dsimp only
  generalize loseValidity cascade .config none none s = t at lost still ⊢
  obtain ⟨cleared, berthed⟩ := setBerth_eq .offStop { t with ptr := { t.ptr with
    first := if t.ptr.first == .afterReset then .afterReset else .afterReconfigure } }
  rw [berthed]
  exact lost.bind (fun law clear => .berth t { t.hac with berth := .offStop } cleared t.stops _ rfl fun _ => still law clear) id

theorem configure_meets (p : LineFields) (configurable : s.configurable = true) : Meets s (configure p s) := by
  have loaded := Onset.newCapacity p fun law => idle_of_configurable law configurable
  have mode : (newCapacity s.line p { s with line := some p }).lmu = s.lmu := by
    unfold newCapacity
    split <;> rfl
  unfold configure
  dsimp only
  generalize newCapacity s.line p { s with line := some p } = t at loaded mode ⊢
  split
  · exact loaded.meets (Tends.startTimers (f := .free) t).course
  · split
    · have configurable : t.configurable = true := by rw [State.configurable, mode]; exact configurable
      exact (loaded.trans (.axisChanged fun law => idle_of_configurable law configurable)).meets (.refl _)
    · exact loaded.meets (.refl t)

theorem storeStops_meets (l : List StopRec) (configurable : s.configurable = true) : Meets s (storeStops l s) := by
  unfold storeStops
  obtain ⟨cleared, berthed⟩ := setBerth_eq .offStop { s with stops := l, hac := { s.hac with plan := [], legMark := false } }
  rw [berthed]
  refine Onset.meets ?_ (.refl _)
  exact .berth s { s.hac with plan := [], legMark := false, berth := .offStop } cleared l s.ptr rfl fun law =>
    idle_of_configurable law configurable

/-! ## LOAD_GATES (R142) -/

/-- A gate record without a verdict, a query and an admission, OFFLINE. -/
abbrev GateRec.isFresh (g : GateRec) : Prop := ∃ a x, g = .fresh a x

theorem freshGates_fresh (l : List GateFields) : ∀ g ∈ freshGates l, g.isFresh := by
  unfold freshGates
  refine List.foldlRecOn (motive := fun acc => ∀ g ∈ acc, GateRec.isFresh g) l _ (fun _ none => nomatch none) fun acc all r _ => ?_
  split
  · intro g member
    rcases (mem_insertGate _ _ _).1 member with rfl | old
    · exact ⟨_, _, rfl⟩
    · exact all g old
  · exact all

/-- Fresh gates have no verdict, fit any window and count nobody. -/
theorem fresh_fits {g : GateRec} (s : State) (fresh : g.isFresh) : s.fits g := by
  obtain ⟨a, x, rfl⟩ := fresh
  exact ⟨nofun, nofun, nofun⟩

theorem fresh_pending (fresh : ∀ g ∈ s.glm.gates, g.isFresh) (c : Car) : s.pendingFor c = 0 := by
  rw [pendingFor_eq_sum, List.sum_eq_zero_iff]
  intro n member
  obtain ⟨g, in_list, rfl⟩ := List.mem_map.1 member
  obtain ⟨a, x, rfl⟩ := fresh g in_list
  rfl

theorem fresh_admits (fresh : ∀ g ∈ s.glm.gates, g.isFresh) (a k : Nat) : ¬s.admits a k := by
  rintro ⟨g, found, verdict⟩
  obtain ⟨_, _, rfl⟩ := fresh g (gate?_spec found).1
  exact nomatch verdict

/-- Where nothing boards the gate list may be replaced by fresh gates. -/
theorem Onset.freshGates (l : List GateRec) (fresh : ∀ g ∈ l, g.isFresh) (law : s.glm.law → GateLoop.law { s.glm with gates := l })
    (idle : s.lawful → s.idle) : Onset s { s with glm := { s.glm with gates := l } } where
  overrun := id
  laws lawful _ := by
    refine ⟨⟨law lawful.gates.list, lawful.gates.table, fun g member => fresh_fits _ (fresh g member), fun c => ?_⟩, lawful.boarding⟩
    refine ⟨?_, (lawful.gates.seats c).2⟩
    rw [fresh_pending (s := { s with glm := { s.glm with gates := l } }) fresh]
    exact (nobody_inFlight lawful.gates (idle lawful)).2 c
  admits _ _ a k admits := absurd admits (fresh_admits (s := { s with glm := { s.glm with gates := l } }) fresh a k)
  waits _ _ _ _ := id

theorem Tends.dropAccess (s : State) : Tends f s (Machine.dropAccess cascade s) := by
  unfold Machine.dropAccess
  refine .forEach _ _ (fun i t => ?_) s
  exact .ite (fun _ => .completeAccess cascade_steady _ _ _ t) (fun _ => .refl t)

theorem loadGates_meets {l : List GateFields} (good : gatesFault l = none) (configurable : s.configurable = true) :
    Meets s (loadGates cascade l s) := by
  have listed : Onset s { s with glm := { s.glm with gates := freshGates l } } :=
    .freshGates (Machine.freshGates l) (freshGates_fresh l) (fun law => ⟨freshGates_rising l (gatesFault_none good).2, law.2⟩)
      fun law => idle_of_configurable law configurable
  unfold loadGates
  dsimp only
  refine listed.meets (Tends.course (f := .free) (.trans (.dropAccess _) ?_))
  exact .ite (fun _ => .pollNext _) (fun _ => .refl _)

/-! ## Doors (R110, R111, R116) -/

theorem Tends.releaseAnswer (c : Car) (d : Side) (kind : ReleaseKind) (stop : Option Nat) (s : State)
    (may : s.rests ∧ s.releasable (some kind)) : Tends .free s (Machine.releaseAnswer c d kind stop s).1 := by
  have seemly : ∀ r e x, r.kind = some kind → r.state = .releasePending → (Act.sideTo c d r e x).Seemly s := fun r e x release pending =>
    ⟨fun _ => by rw [release]; exact may, fun _ released => nomatch pending.symm.trans released⟩
  unfold Machine.releaseAnswer
  split
  · dsimp only [releaseSide]
    exact cascade_steady.run .free _ s (fun _ => seemly _ _ _ rfl rfl) nofun nofun
  · exact .refl s

theorem Tends.withSide (car side : Nat) (h : Car → Side → Handler) (s : State) (all : ∀ c d, Tends .free s (h c d s).1) :
    Tends .free s (Machine.withSide car side h s).1 := by
  unfold Machine.withSide
  split
  · exact .refl s
  · exact .refl s
  · exact all _ _

theorem held_of_still (still : s.moving = false) : s.hac.state = .held := by
  by_contra moves
  exact nomatch still.symm.trans (moving_iff.2 moves)

/-- A line without the reasons against a release is at rest (R108). -/
theorem rests_of_still (still : s.moving = false) (applied : (!s.sbApplied) = false) (stands : (!s.ptr.standstill) = false) : s.rests :=
  ⟨held_of_still still, by simpa [State.sbApplied] using applied, by simpa using stands⟩

theorem Tends.handleDoorRelease (car side : Nat) (s : State) : Tends .free s (Machine.handleDoorRelease car side s).1 := by
  refine .withSide car side _ s fun c d => ?_
  split
  · rename_i none_present
    have absent := namesPresent_nil none_present
    have still : s.moving = false := absent (s.moving, .notHeld) (by simp)
    have carries : (!(s.lmu.mode == .service || s.lmu.mode == .reduced)) = false := absent (!(s.lmu.mode == .service || s.lmu.mode == .reduced), .mode) (by simp)
    have stop : s.hac.berth.stop.isNone = false := absent (s.hac.berth.stop.isNone, .offStop) (by simp)
    refine .releaseAnswer c d .manual _ s ⟨rests_of_still still (absent (!s.sbApplied, .brake) (by simp))
      (absent (!s.ptr.standstill, .standstill) (by simp)), .inl ⟨?_, held_of_still still, ?_⟩⟩
    · simpa only [Bool.not_eq_false', Bool.or_eq_true, beq_iff_eq] using carries
    · simpa [Option.isSome_iff_ne_none] using stop
  · exact .refl s

theorem Tends.handleEvacRelease (car side : Nat) (s : State) : Tends .free s (Machine.handleEvacRelease car side s).1 := by
  refine .withSide car side _ s fun c d => ?_
  split
  · rename_i none_present
    have absent := namesPresent_nil none_present
    have still : s.moving = false := absent (s.moving, .notHeld) (by simp)
    have mode : (s.lmu.mode != .evacuation) = false := absent (s.lmu.mode != .evacuation, .mode) (by simp)
    exact .releaseAnswer c d .evac _ s ⟨rests_of_still still (absent (!s.sbApplied, .brake) (by simp))
      (absent (!s.ptr.standstill, .standstill) (by simp)), .inr ⟨by simpa using mode, rfl⟩⟩
  · exact .refl s

theorem Tends.closeAnswer (c : Car) (d : Side) (mark : Bool) (s : State) : Tends .free s (Machine.closeAnswer c d mark s).1 := by
  unfold Machine.closeAnswer
  dsimp only
  exact cascade_steady.side c d _ _ _ s (fun waits => nomatch waits) (fun released => nomatch released)

theorem Tends.closeFaulted (c : Car) (d : Side) (s : State) : Tends .free s (Machine.closeFaulted c d s).1 := by
  unfold Machine.closeFaulted
  split
  · exact .refl s
  · split
    · dsimp only
      exact cascade_steady.side c d _ _ _ s (fun waits => nomatch waits) (fun released => nomatch released)
    · split
      · exact .closeAnswer c d true s
      · exact .refl s

theorem Tends.handleDoorClose (car side : Nat) (s : State) : Tends .free s (Machine.handleDoorClose car side s).1 := by
  refine .withSide car side _ s fun c d => ?_
  split
  case h_3 | h_4 | h_5 => exact .closeAnswer c d false s
  case h_6 =>
    split
    · exact .closeAnswer c d false s
    · exact .refl s
  case h_7 => exact .closeFaulted c d s
  all_goals exact .refl s

/-! ## TICKET_ANSWER (R154) -/

section
variable {a ticket : Nat} {h : GateRec}

theorem refuseAt_eq (car : Option Car) (ticket : Nat) (r : RefuseReason) (k e : Option Nat) (found : s.gate? a = some h) : ∃ q,
    refuseAt a car ticket r k e s = { s with glm := (s.setGate { h with verdict := some (.refuse r), carried := false }).glm, slp := q } := by
  have judged : setVerdict a (.refuse r) s = s.setGate { h with verdict := some (.refuse r), carried := false } := onGate_eq _ found
  obtain ⟨q, reported⟩ := admissionReport_eq a car (some ticket) .verdict (some (.refuse r)) k 0 none e
    (s.setGate { h with verdict := some (.refuse r), carried := false })
  exact ⟨q, by rw [refuseAt, judged, reported]; rfl⟩

/-- A querying gate whose query has ended is refused and goes to rest (R143, R154). -/
theorem Tends.refusedToRest (car : Option Car) (ticket : Nat) (r : RefuseReason) (k e : Option Nat) (found : s.gate? a = some h)
    (query : h.state = .query) (timer : h.queryTimer = none) :
    Tends f s (Machine.gateToRest a none (Machine.refuseAt a car ticket r k e s)) := by
  refine .trans (.refuseAt a car ticket r k e s) (.gateToRest fun g at_g fits => ?_)
  obtain ⟨q, refused⟩ := refuseAt_eq car ticket r k e found
  rw [refused] at at_g
  have at_g : (s.setGate { h with verdict := some (.refuse r), carried := false }).gate? a = some g := at_g
  rw [gate?_setGate_same (h := { h with verdict := some (.refuse r), carried := false }) found rfl] at at_g
  obtain rfl := Option.some.inj at_g
  refine ⟨timer, ?_⟩
  cases admission : h.admission with
  | none => rfl
  | some x => exact nomatch query.symm.trans (fits.2.2 x admission).1

/-- ADMIT-AS at a gate whose query has ended: a refusal, or the admission at its OPEN window (R154). -/
theorem admitAs_cases (g : GateRec) (ticket : Nat) (found : s.gate? a = some h) (group : g.group = h.group) (query : h.state = .query)
    (timer : h.queryTimer = none) : Tends .free s (admitAs a g ticket s).1 ∨
      (s.window g.group).state = .opened ∧ Grants s (admitAs a g ticket s).1 := by
  have refused : ∀ car r k e, Tends .free s (gateToRest a none (refuseAt a car ticket r k e s)) := fun car r k e =>
    .refusedToRest car ticket r k e found query timer
  unfold admitAs
  dsimp only
  split
  · rename_i c opened car
    have opened : (s.window g.group).state = .opened := by simpa using opened
    split
    · exact .inl (refused _ _ _ _)
    · rename_i e at_e
      have idle : s.fits h → h.queryTimer = none ∧ h.admission = none := fun fits => by
        refine ⟨timer, ?_⟩
        cases admission : h.admission with
        | none => rfl
        | some x => exact nomatch query.symm.trans (fits.2.2 x admission).1
      rcases judgeSeats_cases (ticket := ticket) (k := e.seats) found idle (fun _ => group ▸ opened) (group ▸ car)
        (fun law => seats_pos law at_e) with ⟨u, r, judged, x, is_refused⟩ | ⟨u, judged, grants, -⟩
      · rw [group, judged, is_refused]
        exact .inl (refused _ _ _ _)
      · rw [group, judged]
        exact .inr ⟨group ▸ opened, grants⟩
  · exact .inl (refused _ _ _ _)

theorem Tends.insertAnswer (offer : Option PassOffer) (s : State) (good : ∀ o ∈ offer, o.Good) :
    Tends f s (Machine.insertAnswer offer s).1 := by
  unfold Machine.insertAnswer
  split
  · exact .refl s
  · exact .table s _ fun law => PassTable.insert_law law (good _ rfl)

theorem insertAnswer_table (offer : Option PassOffer) (s : State) : ∃ t, (insertAnswer offer s).1 = { s with ptb := t } := by
  cases offer <;> exact ⟨_, rfl⟩

theorem answerQuery_meets {g : GateRec} {offer : Option PassOffer} (verdict : Nat) (good : ∀ o ∈ offer, o.Good)
    (found : s.gate? a = some g) (query : g.state = .query) : Meets s (answerQuery cascade a g ticket verdict offer s).1 := by
  unfold answerQuery
  dsimp only
  have ended : Tends .free s (onGate a (fun h => { h with queryTimer := none, queryTicket := none }) s) := by
    refine .onGateRest ?_ ?_ ?_ ?_ ?_ ?_ a s <;> intro g
    exacts [rfl, rfl, rfl, .inr rfl, rfl, fun _ => id]
  have at_t := gate?_onGate (upd := fun h => { h with queryTimer := none, queryTicket := none }) found rfl
  generalize onGate a (fun h => { h with queryTimer := none, queryTicket := none }) s = t at ended at_t ⊢
  have inserted := Tends.insertAnswer (f := .free) offer t good
  obtain ⟨table, written⟩ := insertAnswer_table offer t
  have at_u : (Machine.insertAnswer offer t).1.gate? a = some { g with queryTimer := none, queryTicket := none } := by
    rw [written]
    exact at_t
  generalize Machine.insertAnswer offer t = answer at inserted at_u ⊢
  obtain ⟨u, how⟩ := answer
  dsimp only at inserted at_u ⊢
  have examined : ∀ v, Tends .free v (examineWindow cascade g.group v) := fun v => .examineWindow cascade_steady g.group v
  split
  · rcases admitAs_cases g ticket at_u rfl query rfl with tends | ⟨opened, grants⟩
    · exact ((ended.trans inserted).trans (tends.trans (examined _))).meets
    · have unexamined : examineWindow cascade g.group (admitAs a g ticket u).1 = (admitAs a g ticket u).1 := by
        have same : (admitAs a g ticket u).1.window g.group = u.window g.group := by rw [State.window, grants.windows]; rfl
        unfold examineWindow
        dsimp only
        rw [same, opened]
        rfl
      rw [unexamined]
      exact (ended.trans inserted).course.grants grants
  · exact ((ended.trans inserted).trans (.trans (.refusedToRest _ _ _ _ _ at_u query rfl) (examined _))).meets

theorem handleTicketAnswer_meets (gate query verdict present : Nat) (e : PassFields) (s : State) :
    Meets s (handleTicketAnswer gate query verdict present e s).1 := by
  unfold handleTicketAnswer
  split
  · exact (Course.refl s).meets
  · split
    · exact (Course.refl s).meets
    · rename_i offer answered
      have good : ∀ o ∈ offer, o.Good := fun o is => by
        cases is
        exact answerEntry_good answered
      unfold matchAnswer
      split
      · exact (Course.refl s).meets
      · rename_i g found
        split
        · rename_i matching _
          have query : g.state = .query := by simp_all
          exact answerQuery_meets verdict good found query
        · split
          · exact (Tends.insertAnswer (f := .free) offer s good).meets
          · exact (Course.refl s).meets

end

/-! ## GATE_ACCESS (R160, R161) -/

theorem Tends.holdAccess (slot : SlotId) (r : AccessRequest) (s : State) : Tends f s (Machine.holdAccess slot r s) :=
  .loopRest s { s.glm with slots := s.glm.slots.take slot r } id rfl rfl

theorem Tends.acceptAccess {g : GateRec} (slot : SlotId) (c : AccessCommand) (arg : Nat) (found : s.gate? g.address = some g) :
    Tends f s (Machine.acceptAccess slot g c arg s) := by
  unfold Machine.acceptAccess
  dsimp only
  refine .ite (fun _ => .post _ s) (fun _ => ?_)
  split
  · split
    · rename_i car may
      unfold State.staffMay at may
      split at may
      · rename_i ready
        obtain ⟨serves, room⟩ := Option.filter_eq_some_iff.1 may
        exact .trans (.staffAdmission slot found (by simpa using ready) serves (by simpa using room)) (.holdAccess slot _ _)
      · exact nomatch may
    · exact .post _ s
  all_goals exact .holdAccess slot _ s

theorem Tends.handleGateAccess (slot gate command argument : Nat) (s : State) :
    Tends f s (Machine.handleGateAccess slot gate command argument s).1 := by
  unfold Machine.handleGateAccess
  split
  case h_4 =>
    rename_i found _
    split
    · exact .refl s
    · split
      · exact .refl s
      · exact .acceptAccess _ _ _ (by rw [(gate?_spec found).2]; exact found)
  all_goals exact .refl s

/-! ## Gate replies (R144 to R146) -/

theorem goodReply_meets (p : Poll) (m : GateMsg) (s : State) : Meets s (goodReply cascade p m s) := by
  unfold goodReply
  dsimp only
  have begins := Tends.replyBegins p.address m s
  generalize leaveFault p.address m (deliver p.address (comeOnline p.address (onGate p.address (fun g => { g with misses := 0 }) s))) = t
    at begins ⊢
  by_cases presents : ∃ ticket, m = .presented ticket
  · obtain ⟨ticket, rfl⟩ := presents
    show Meets s (pollNext (thirdPollPassed cascade p (presented p.address ticket t)))
    rcases presented_cases p.address ticket t with tends | ⟨grants, unstaffed⟩
    · exact (begins.trans (tends.trans (.replyEnds cascade_steady p _))).meets
    · exact begins.course.grants (grants.polls ((thirdPollPassed_polls unstaffed).trans (pollNext_polls _)))
  · have others : ∀ ticket, m ≠ .presented ticket := fun ticket is => presents ⟨ticket, is⟩
    exact (begins.trans (.trans (.replyContent cascade_steady p.address m t others) (.replyEnds cascade_steady p _))).meets

end

end Sys2Proof.Machine
end

section
/-! SUPPORT. Every command and every step under the laws of boarding. -/

namespace Sys2Proof.Machine

section
variable {s t u : State} {f : Frame}

/-! ## Requests -/

theorem Tends.setTable (t : PassTable) (s : State) (law : s.ptb.law → t.law) : Tends f s (Machine.setTable t s) := .table s t law

theorem Tends.handleBlock {upd : PassEntry → Option PassEntry} (keeps : KeepsEntry upd) (ids : List Nat) (s : State) :
    Tends f s (Machine.handleBlock upd ids s).1 := by
  unfold Machine.handleBlock
  split
  · exact .refl s
  · exact .setTable _ s (blockRun_law keeps ids s.ptb)

/-- The requests of the Pass Table (R129 to R134). -/
theorem Tends.handlePassInsert (l : List PassFields) (s : State) : Tends f s (Machine.handlePassInsert l s).1 := by
  unfold Machine.handlePassInsert
  split
  · exact .refl s
  · exact .setTable _ s fun law => insertAll_law l 0 _ law

theorem Tends.handlePassDelete (ids : List Nat) (s : State) : Tends f s (Machine.handlePassDelete ids s).1 := by
  unfold Machine.handlePassDelete
  split
  · exact .refl s
  · exact .setTable _ s (deleteRun_law ids s.ptb)

theorem Tends.handleSetDay (d : Nat) (s : State) : Tends f s (Machine.handleSetDay d s).1 := by
  unfold Machine.handleSetDay
  dsimp only
  split
  · exact .refl s
  · split
    · exact .refl s
    · exact .setTable _ s fun law => PassTable.forward_law law d

/-- The requests of the track tables that no law of boarding speaks of (R5, R7). -/
theorem Tends.handleLoadSegments (l : List SegmentFields) (s : State) : Tends f s (Machine.handleLoadSegments l s).1 := by
  unfold Machine.handleLoadSegments
  split
  · split
    · exact .refl s
    · exact .beside s.ptr s.osp s.clu s.slp _ s.stops s.markers s.pending rfl
  · exact .refl s

theorem Tends.handleLoadMarkers (l : List MarkerFields) (s : State) : Tends f s (Machine.handleLoadMarkers l s).1 := by
  unfold Machine.handleLoadMarkers
  split
  · split
    · exact .refl s
    · exact .beside s.ptr s.osp s.clu s.slp s.segs s.stops _ s.pending rfl
  · exact .refl s

/-- The requests of the plan (R27 to R29). -/
theorem Tends.handlePlanSet (l : List Nat) (s : State) : Tends f s (Machine.handlePlanSet l s).1 := by
  unfold Machine.handlePlanSet
  split
  · exact .refl s
  · split
    · exact .refl s
    · exact .haulRest s _ rfl rfl

theorem Tends.handlePlanAppend (i : Nat) (s : State) : Tends f s (Machine.handlePlanAppend i s).1 := by
  unfold Machine.handlePlanAppend
  split
  · exact .refl s
  · split
    · exact .refl s
    · split
      · exact .refl s
      · exact .haulRest s _ rfl rfl

theorem Tends.handleStop (s : State) : Tends .free s (Machine.handleStop s).1 := by
  unfold Machine.handleStop
  dsimp only
  exact .ite (fun _ => cascade_steady.stop _ _ s nofun) (fun _ => .refl s)

/-- The requests of the TSR list (R65, R66). -/
theorem Tends.handleTsrAdd (id start stop speed : Nat) (s : State) : Tends f s (Machine.handleTsrAdd id start stop speed s).1 := by
  unfold Machine.handleTsrAdd
  split
  · exact .refl s
  · dsimp only
    split
    · exact .refl s
    · exact .supervisor s _

theorem Tends.handleTsrRemove (id : Nat) (s : State) : Tends f s (Machine.handleTsrRemove id s).1 := by
  unfold Machine.handleTsrRemove
  split
  · exact .supervisor s _
  · exact .refl s

/-- The requests of the alarm (R99, R100). -/
theorem Tends.handleAlarmClear (car : Nat) (s : State) : Tends f s (Machine.handleAlarmClear car s).1 := by
  unfold Machine.handleAlarmClear
  split
  · exact .refl s
  · rename_i c _
    split
    · exact .refl s
    · split
      · exact .refl s
      · dsimp only [clearAlarm]
        split
        · exact .trans (.setCar s c { s.car c with alarm := false }) (.reportAlarm _ _)
        · exact .refl s

theorem Tends.route (r : AlarmRoute) (s : State) : Tends f s (setRoute r s) :=
  .beside s.ptr s.osp { s.clu with route := r } s.slp s.segs s.stops s.markers s.pending rfl

/-- The requests of a window (R150). -/
theorem Tends.handleBoardingExtend (group seconds : Nat) (s : State) : Tends f s (Machine.handleBoardingExtend group seconds s).1 := by
  unfold Machine.handleBoardingExtend
  split
  · exact .refl s
  · split
    · split
      · exact .extendDwell _ _ s
      · exact .refl s
    · exact .refl s

theorem Tends.handleBoardingClose (group : Nat) (s : State) : Tends .free s (Machine.handleBoardingClose group s).1 := by
  unfold Machine.handleBoardingClose
  split
  · exact .refl s
  · exact cascade_steady.seal _ _ s

/-- The requests of the Line Mode Unit beside SET_MODE (R176, R180, R182). -/
theorem Tends.handleSupervise (code : Nat) (s : State) : Tends .free s (Machine.handleSupervise code s).1 := by
  unfold Machine.handleSupervise
  split
  · exact .supervised s
  · dsimp only
    exact .ite (fun _ => .refl s) (fun _ => .supervisionExpired cascade_steady s)

theorem Tends.handleHealthSet (counter count exponent : Nat) (s : State) :
    Tends .free s (Machine.handleHealthSet counter count exponent s).1 := by
  unfold Machine.handleHealthSet
  split
  · exact .refl s
  · split
    · exact .refl s
    · split
      · exact .refl s
      · exact .writeHealth cascade_steady _ _ s

theorem Tends.handleRestart (s : State) : Tends f s (Machine.handleRestart s).1 := by
  unfold Machine.handleRestart
  split
  · exact .link s _
  · exact .refl s

/-- The requests of the configuration (R3, R6, R142). -/
theorem handleConfigureLine_meets (p : LineFields) (s : State) : Meets s (handleConfigureLine p s).1 := by
  unfold handleConfigureLine
  split
  · rename_i configurable
    split
    · exact (Course.refl s).meets
    · exact configure_meets p configurable
  · exact (Course.refl s).meets

theorem handleLoadStops_meets (l : List StopFields) (s : State) : Meets s (handleLoadStops l s).1 := by
  unfold handleLoadStops
  split
  · rename_i configurable
    split
    · exact (Course.refl s).meets
    · exact storeStops_meets _ configurable
  · exact (Course.refl s).meets

theorem handleLoadGates_meets (l : List GateFields) (s : State) : Meets s (handleLoadGates l s).1 := by
  unfold handleLoadGates
  split
  · rename_i configurable
    split
    · exact (Course.refl s).meets
    · exact loadGates_meets ‹_› configurable
  · exact (Course.refl s).meets

/-- The handling of every request meets what a step is asked. -/
theorem handlerOf_meets (i : Instr) (s : State) : Meets s (handlerOf i s).1 := by
  have tends : ∀ {u}, Tends .free s u → Meets s u := Tends.meets
  cases i
  case configureLine tag p => exact handleConfigureLine_meets p s
  case loadSegments tag l => exact tends (.handleLoadSegments l s)
  case loadStops tag l => exact handleLoadStops_meets l s
  case loadMarkers tag l => exact tends (.handleLoadMarkers l s)
  case planSet tag l => exact tends (.handlePlanSet l s)
  case planAppend tag i => exact tends (.handlePlanAppend i s)
  case planClear tag => exact tends (.haulRest s { s.hac with plan := [], legMark := false } rfl rfl)
  case depart tag => exact handleDepart_meets s
  case stop tag => exact tends (.handleStop s)
  case tsrAdd tag id a b v => exact tends (.handleTsrAdd id a b v s)
  case tsrRemove tag id => exact tends (.handleTsrRemove id s)
  case tripReset tag => exact handleTripReset_meets s
  case brakeTest tag b => exact handleBrakeTest_meets b s
  case alarmClear tag c => exact tends (.handleAlarmClear c s)
  case alarmRouteSet tag d => exact tends (.route _ s)
  case alarmRouteClear tag d => exact tends (.route _ s)
  case doorRelease tag c d => exact tends (.handleDoorRelease c d s)
  case evacRelease tag c d => exact tends (.handleEvacRelease c d s)
  case doorClose tag c d => exact tends (.handleDoorClose c d s)
  case passInsert tag l => exact tends (.handlePassInsert l s)
  case passDelete tag l => exact tends (.handlePassDelete l s)
  case passBlock tag l => exact tends (.handleBlock blockEntry_keeps l s)
  case passUnblock tag l => exact tends (.handleBlock unblockEntry_keeps l s)
  case passRead tag id =>
    have unchanged : (handlePassRead id s).1 = s := by
      unfold handlePassRead
      split
      · rfl
      · split <;> rfl
    show Meets s (handlePassRead id s).1
    rw [unchanged]
    exact (Course.refl s).meets
  case setDay tag d => exact tends (.handleSetDay d s)
  case loadGates tag l => exact handleLoadGates_meets l s
  case boardingExtend tag g n => exact tends (.handleBoardingExtend g n s)
  case boardingClose tag g => exact tends (.handleBoardingClose g s)
  case ticketAnswer tag g q v p e => exact handleTicketAnswer_meets g q v p e s
  case gateAccess tag i g c a => exact tends (.handleGateAccess i g c a s)
  case setMode tag m a b => exact handleSetMode_meets m a b s
  case supervise tag c => exact tends (.handleSupervise c s)
  case healthSet tag n c e => exact tends (.handleHealthSet n c e s)
  case restart tag => exact tends (.handleRestart s)
  case reportMaskSet tag c => exact tends (.link s _)
  case reportMaskClear tag c => exact tends (.link s _)
  all_goals exact (Course.refl s).meets

theorem handleFrame_meets (kind tag : Byte) (p : List Byte) (s : State) : Meets s (handleFrame kind tag p s).1 := by
  have counted : Meets s (countBad s) := (Tends.link (f := .free) s _).meets
  unfold handleFrame
  split
  · exact counted
  · split
    · exact counted
    · exact handlerOf_meets _ s

theorem receive_meets (tag kind : Byte) {h : Handler} (meets : ∀ s, Meets s (h s).1) (s : State) : Meets s (receive tag kind h s) := by
  unfold receive
  dsimp only
  split
  · exact (Tends.link (f := .free) s _).meets
  · split
    · exact Meets.aside (s := s) (pending := s.pending) (reset := s.inReset) (o := s.overrun) (meets { s with slp := s.slp.received })
    · exact (Tends.link (f := .free) s _).meets

/-! ## Resets (R181, R182) -/

/-- A state in which nothing boards, with fresh gates and the tallies of a reset. -/
structure State.afresh (s : State) : Prop where
  list : s.glm.law
  table : s.ptb.law
  gates : ∀ g ∈ s.glm.gates, g.isFresh
  tally : ∀ c, (s.tallyOf c).inFlight = 0 ∧ (s.tallyOf c).aboardMax ≤ s.capacity
  idle : s.idle
  mode : s.lmu.mode ≠ .tripped
  test : s.bsq.test = none

theorem lawful_of_afresh (afresh : s.afresh) : s.lawful := by
  obtain ⟨list, table, gates, tally, idle, mode, test⟩ := afresh
  refine ⟨⟨list, table, fun g member => fresh_fits s (gates g member), fun c => ?_⟩, boardingLaw_iff.2 ⟨fun g busy => ?_, fun c d waits => ?_,
    fun tripped => absurd tripped mode, fun runs => ?_⟩⟩
  · obtain ⟨none, room⟩ := tally c
    exact ⟨none.trans (fresh_pending gates c).symm, by rw [none]; exact room⟩
  · exact nomatch (idle.windows g).symm.trans busy
  · exact absurd waits (idle.sides c d)
  · exact nomatch (congrArg Option.isSome test).symm.trans runs

theorem blank_table : PassTable.law .reset := by
  obtain ⟨table, -⟩ := resetKeepsLaws
  exact table

theorem blankState_afresh (cause : ResetCause) (s : State) : (blankState cause s).afresh where
  list := ⟨.nil, Nat.zero_lt_succ 7⟩
  table := blank_table
  gates _ member := absurd member List.not_mem_nil
  tally c := by cases c <;> exact ⟨rfl, Nat.le_refl 0⟩
  idle := ⟨fun g => by cases g <;> rfl, fun c d waits => by cases c <;> cases d <;> exact nomatch waits⟩
  mode tripped := nomatch (show Mode.init = .tripped from tripped)
  test := rfl

theorem keptState_afresh (law : s.lawful) : (keptState s).afresh where
  list := keptState_gateLaw law.gates.list
  table := law.gates.table
  gates g member := by
    obtain ⟨h, -, rfl⟩ := List.mem_map.1 member
    exact ⟨_, _, rfl⟩
  tally c := by
    have capacity : (keptState s).capacity = (s.line.map LineFields.capacity).getD 0 := by
      cases line : s.line <;> simp [State.capacity, State.param, keptState, line]
    cases c <;> exact ⟨rfl, capacity.ge⟩
  idle := ⟨fun g => by cases g <;> rfl, fun c d waits => by cases c <;> cases d <;> exact nomatch waits⟩
  mode tripped := nomatch (show Mode.init = .tripped from tripped)
  test := rfl

/-- A reset leaves nothing waiting and no verdict. -/
theorem Onset.of_afresh (afresh : s.lawful → t.afresh) (stays : s.overrun = true → t.overrun = true) : Onset s t where
  overrun := stays
  laws law _ := lawful_of_afresh (afresh law)
  admits law _ a k admits := absurd admits (fresh_admits (afresh law).gates a k)
  waits law _ c d waits := absurd waits ((afresh law).idle.sides c d)

theorem Onset.blankState (cause : ResetCause) (s : State) : Onset s (Machine.blankState cause s) :=
  .of_afresh (fun _ => blankState_afresh cause s) id

theorem resetNow_meets (cause : ResetCause) (s : State) : Meets s (resetNow cause s) := by
  have starts : ∀ {u}, Onset s u → Meets s (pollNext (post (startUpReport u) u)) := fun begins =>
    begins.meets (Tends.course (f := .free) (.trans (.post _ _) (.pollNext _)))
  cases cause
  · exact starts (.blankState .powerOn s)
  · exact starts (.blankState .resetLine s)
  · exact starts (.of_afresh keptState_afresh id)

end

end Sys2Proof.Machine
end

section
/-! O53: the laws of boarding under every event, command and step. -/

namespace Sys2Proof.Machine

section
variable {s t u : State}

theorem Meets.refl (s : State) : Meets s s := (Course.refl s).meets

theorem Meets.ite {c : Bool} (h : c = true → Meets s t) (g : c = false → Meets s u) : Meets s (if c = true then t else u) := by
  cases c
  · exact g rfl
  · exact h rfl

/-! ## Events of the link (R184, R185, R194) -/

theorem setReceiver_link (r : Receiver) (gap : Timer) (s : State) : ∃ q, setReceiver r gap s = { s with slp := q } := ⟨_, rfl⟩

theorem Tends.setReceiver (r : Receiver) (gap : Timer) (s : State) : Tends .free s (Machine.setReceiver r gap s) := .link s _

theorem Tends.discardLength (s : State) : Tends .free s (Machine.discardLength s) :=
  .trans (.setReceiver .hunting none s) (.trans (.bumpHealth cascade_steady .frames 1 _ rfl) (.link _ _))

theorem Tends.discardCheck (s : State) : Tends .free s (Machine.discardCheck s) :=
  .trans (.setReceiver .hunting none s) (.trans (.bumpHealth cascade_steady .frames 1 _ rfl) (.link _ _))

theorem judgeSupervisory_meets (kind tag : Byte) (p : List Byte) (c : Check) (s : State) : Meets s (judgeSupervisory kind tag p c s) := by
  unfold judgeSupervisory
  split
  · exact receive_meets tag kind (handleFrame_meets kind tag p) s
  · exact (Tends.discardCheck s).meets

theorem receiveByte_meets (b : Byte) (s : State) : Meets s (receiveByte b s) := by
  have receiving : ∀ r gap, Meets s (setReceiver r gap s) := fun r gap => (Tends.setReceiver r gap s).meets
  unfold receiveByte
  split
  · unfold huntByte
    split
    · exact receiving _ _
    · exact (Tends.link (f := .free) s _).meets
  · unfold frameByte
    dsimp only
    split
    · exact .refl s
    · split
      · exact (Tends.discardLength s).meets
      · split
        · unfold judgeBytes
          split
          · exact judgeSupervisory_meets _ _ _ _ s
          · exact .refl s
        · exact receiving _ _

theorem transmissionEnds_meets (s : State) : Meets s (transmissionEnds s) := by
  unfold transmissionEnds
  split
  · exact .refl s
  · split
    · exact resetNow_meets .restart s
    · exact (Tends.link (f := .free) s _).meets

/-! ## Commands -/

theorem Sound.refl (law : s.lawful) : Sound s s := ⟨law, fun _ _ waits fresh => absurd waits fresh, fun _ x _ found entry => .inl ⟨x, found, entry⟩⟩

/-- The mark of depth, the queue and the reset line are beside what a step is asked. -/
theorem Meets.sound {o : Bool} {pending : List Instr} {reset : Option ResetCause}
    (h : Meets { s with overrun := o, pending := pending, inReset := reset } t) (law : s.lawful) (clear : t.overrun = false) : Sound s t := by
  obtain ⟨laws, rests, admits⟩ := h (lawful_of_eq (s := s) rfl rfl rfl rfl rfl rfl rfl rfl law) clear
  exact ⟨laws, rests, admits⟩

theorem whileRunning_sound {fn : State → State} (meets : ∀ s, Meets s (fn s)) (h : whileRunning fn s = .next t) (law : s.lawful) :
    Sound s t := by
  unfold whileRunning at h
  dsimp only at h
  split at h
  · cases h
    exact Meets.sound (o := false) (pending := s.pending) (reset := s.inReset) (.refl _) law rfl
  · obtain ⟨rfl, clear⟩ := finish_next h
    exact Meets.sound (o := false) (pending := s.pending) (reset := s.inReset) (meets _) law clear

theorem request_sound {tag : Byte} {kind : ReqKind} {h : Handler} (meets : ∀ s, Meets s (h s).1) (e : request tag kind h s = .next t)
    (law : s.lawful) : Sound s t := whileRunning_sound (receive_meets tag kind.code meets) e law

theorem reset_sound {u : State} {cause : ResetCause} (h : finish (resetNow cause u) = .next t)
    (same : ∃ o reset, u = { s with overrun := o, inReset := reset }) (law : s.lawful) : Sound s t := by
  obtain ⟨rfl, clear⟩ := finish_next h
  obtain ⟨o, reset, rfl⟩ := same
  exact Meets.sound (o := o) (pending := s.pending) (reset := reset) (resetNow_meets cause _) law clear

theorem holdReset_sound (cause : ResetCause) (b : Brakes) :
    Sound s (holdReset cause { s with overrun := false, bsq := b }) := by
  have afresh := blankState_afresh cause { s with overrun := false, bsq := b }
  have blank := lawful_of_afresh afresh
  refine ⟨lawful_of_eq (s := blankState cause { s with overrun := false, bsq := b }) rfl rfl rfl rfl rfl rfl rfl rfl blank,
    fun c d waits _ => absurd waits (afresh.idle.sides c d), fun a x k found entry => ?_⟩
  exact absurd ⟨x, found, entry⟩ (fresh_admits afresh.gates a k)

/-! ## Events that name a gate, a window or a frame -/

theorem gateReply_sound {bytes : List Byte} (h : execGateReply bytes s = .next t) (law : s.lawful) : Sound s t := by
  unfold execGateReply at h
  refine whileRunning_sound (fun s => ?_) h law
  split
  · exact .refl s
  · split
    · exact .refl s
    · exact goodReply_meets _ _ s

theorem gateReplyTimeout_sound (h : execGateReplyTimeout s = .next t) (law : s.lawful) : Sound s t := by
  unfold execGateReplyTimeout at h
  refine whileRunning_sound (fun s => ?_) h law
  split
  · exact .refl s
  · exact (Tends.missedPoll cascade_steady _ s).meets

theorem dwellExpiry_sound {g : Nat} (h : execDwellExpiry g s = .next t) (law : s.lawful) : Sound s t := by
  unfold execDwellExpiry at h
  refine whileRunning_sound (fun s => ?_) h law
  split
  · exact .refl s
  · exact .ite (fun _ => (cascade_steady.seal (f := .free) _ _ s).meets) (fun _ => .refl s)

theorem queryTimeout_sound {a : Nat} (h : execQueryTimeout a s = .next t) (law : s.lawful) : Sound s t := by
  unfold execQueryTimeout at h
  refine whileRunning_sound (fun s => ?_) h law
  split
  · exact .refl s
  · rename_i g found
    refine .ite (fun runs => ?_) (fun _ => .refl s)
    refine (Tends.queryExpired (f := .free) cascade_steady a s fun h at_a => ?_).meets
    rw [Option.some.inj (at_a.symm.trans found)]
    exact runs

theorem passageDeadline_sound {a : Nat} (h : execPassageDeadline a s = .next t) (law : s.lawful) : Sound s t := by
  unfold execPassageDeadline at h
  refine whileRunning_sound (fun s => ?_) h law
  split
  · exact .refl s
  · exact .ite (fun _ => (Tends.abandonAdmission (f := .free) cascade_steady _ s).meets) (fun _ => .refl s)

theorem supervisionExpiry_sound (h : execSupervisionExpiry s = .next t) (law : s.lawful) : Sound s t := by
  unfold execSupervisionExpiry at h
  refine whileRunning_sound (fun s => ?_) h law
  split
  · exact (Tends.supervisionExpired cascade_steady s).meets
  · exact .refl s
  · exact .refl s

theorem frameGapTimeout_sound (h : execFrameGapTimeout s = .next t) (law : s.lawful) : Sound s t := by
  unfold execFrameGapTimeout at h
  refine whileRunning_sound (fun s => ?_) h law
  split
  · exact .refl s
  · exact (Tends.link (f := .free) s _).meets

theorem badLengthDiscard_sound {n : Byte} (h : execBadLengthDiscard n s = .next t) (law : s.lawful) : Sound s t := by
  unfold execBadLengthDiscard at h
  refine whileRunning_sound (fun s => ?_) h law
  split
  · exact (Tends.discardLength s).meets
  · exact .refl s

theorem supervisoryFrame_sound {k tag : Byte} {p : List Byte} {c : Check} (h : execSupervisoryFrame k tag p c s = .next t)
    (law : s.lawful) : Sound s t := by
  unfold execSupervisoryFrame at h
  refine whileRunning_sound (fun s => ?_) h law
  split
  · exact judgeSupervisory_meets k tag p c s
  · exact .refl s

/-- What a command does meets what a step is asked. -/
theorem exec_sound (c : Instr) (h : exec c s = .next t) (law : s.lawful) : Sound s t := by
  have runs : ∀ {fn : State → State}, (∀ s, Meets s (fn s)) → whileRunning fn s = .next t → Sound s t := fun meets e =>
    whileRunning_sound meets e law
  have tends : ∀ {fn : State → State}, (∀ s, Tends .free s (fn s)) → whileRunning fn s = .next t → Sound s t := fun all e =>
    whileRunning_sound (fun s => (all s).meets) e law
  have requests : ∀ (i : Instr) {tag : Byte} {kind : ReqKind}, request tag kind (handlerOf i) s = .next t → Sound s t := fun i _ _ e =>
    request_sound (handlerOf_meets i) e law
  cases c
  case powerOn =>
    change (match s.inReset with
      | some _ => Host.Outcome.next (holdReset .powerOn { s with overrun := false })
      | none => finish (resetNow .powerOn { s with overrun := false })) = .next t at h
    split at h
    · cases h
      exact holdReset_sound .powerOn s.bsq
    · exact reset_sound h ⟨false, s.inReset, rfl⟩ law
  case resetLine =>
    change (match s.inReset with
      | some cause => finish (resetNow cause { s with overrun := false, inReset := none })
      | none => finish (resetNow .resetLine { s with overrun := false })) = .next t at h
    split at h
    · exact reset_sound h ⟨false, none, rfl⟩ law
    · exact reset_sound h ⟨false, s.inReset, rfl⟩ law
  case resetLineAssert =>
    change (match s.inReset with
      | some _ => Host.Outcome.next { s with overrun := false }
      | none => Host.Outcome.next (holdReset .resetLine { s with overrun := false })) = .next t at h
    split at h
    · cases h
      exact Meets.sound (o := false) (pending := s.pending) (reset := s.inReset) (.refl _) law rfl
    · cases h
      exact holdReset_sound .resetLine s.bsq
  case brakeContactChange b x y =>
    change (match s.inReset with
      | some cause => Host.Outcome.next (holdReset cause { s with
          overrun := false, bsq := { s.bsq with contacts := s.bsq.contacts.set b { applied := x, released := y } } })
      | none => whileRunning (contactsChanged cascade b { applied := x, released := y }) s) = .next t at h
    split at h
    · cases h
      exact holdReset_sound _ _
    · exact runs (contactsChanged_meets b _) h
  case encoderCount e d n => exact runs (fun s => (Onset.track s _).meets (.refl _)) h
  case positionSample a b x y => exact runs (sample_meets _) h
  case driveReferenceUpdate r f => exact tends (.driveUpdate cascade_steady r f) h
  case brakeResponseTimeout b => exact runs (fun s => .ite (fun _ => responseExpired_meets b s) (fun _ => .refl s)) h
  case decelerationCheckTimeout => exact tends (.checkExpired cascade_steady) h
  case brakeTestTimerExpiry => exact tends (.testExpired cascade_steady) h
  case carStatusFrame l bytes =>
    refine runs (fun s law => ?_) h
    obtain ⟨-, allowed, -⟩ := boardingLaw_iff.1 law.boarding
    exact (Tends.receiveStatus cascade_steady l _ s (allowed l)).meets law
  case carCommandTimer l => exact tends (fun s => .ite (fun _ => .sendCommand l s) (fun _ => .refl s)) h
  case carStaleTimeout c => exact tends (fun s => .ite (fun _ => cascade_steady.freshness c _ s rfl) (fun _ => .refl s)) h
  case carLostTimeout c => exact tends (fun s => .ite (fun _ => cascade_steady.freshness c _ s rfl) (fun _ => .refl s)) h
  case acknowledgementTimeout c d => exact tends (fun s => .ite (fun _ => .ackExpired cascade_steady c d s) (fun _ => .refl s)) h
  case closeTimeout c d => exact tends (fun s => .ite (fun _ => .closeExpired cascade_steady c d s) (fun _ => .refl s)) h
  case retryTimerExpiry c d => exact tends (fun s => .ite (fun _ => .retryExpired cascade_steady c d s) (fun _ => .refl s)) h
  case lineClockTick => exact tends (fun s => .setTable _ s PassTable.tick_law) h
  case gateReply bytes => exact gateReply_sound h law
  case gateReplyTimeout => exact gateReplyTimeout_sound h law
  case dwellExpiry g => exact dwellExpiry_sound h law
  case queryTimeout g => exact queryTimeout_sound h law
  case passageDeadline g => exact passageDeadline_sound h law
  case warmingTimeout => exact runs (fun s => .ite (fun _ => warmingExpired_meets s) (fun _ => .refl s)) h
  case supervisionExpiry => exact supervisionExpiry_sound h law
  case skippedByte b => exact runs (receiveByte_meets b) h
  case frameGapTimeout => exact frameGapTimeout_sound h law
  case badLengthDiscard n => exact badLengthDiscard_sound h law
  case supervisoryFrame k tag p c => exact supervisoryFrame_sound h law
  case transmitEnd => exact runs transmissionEnds_meets h
  case configureLine tag f => exact requests (.configureLine tag f) h
  case loadSegments tag l => exact requests (.loadSegments tag l) h
  case loadStops tag l => exact requests (.loadStops tag l) h
  case loadMarkers tag l => exact requests (.loadMarkers tag l) h
  case planSet tag l => exact requests (.planSet tag l) h
  case planAppend tag i => exact requests (.planAppend tag i) h
  case planClear tag => exact requests (.planClear tag) h
  case depart tag => exact requests (.depart tag) h
  case stop tag => exact requests (.stop tag) h
  case tsrAdd tag id a b v => exact requests (.tsrAdd tag id a b v) h
  case tsrRemove tag id => exact requests (.tsrRemove tag id) h
  case tripReset tag => exact requests (.tripReset tag) h
  case brakeTest tag b => exact requests (.brakeTest tag b) h
  case alarmClear tag c => exact requests (.alarmClear tag c) h
  case alarmRouteSet tag d => exact requests (.alarmRouteSet tag d) h
  case alarmRouteClear tag d => exact requests (.alarmRouteClear tag d) h
  case doorRelease tag c d => exact requests (.doorRelease tag c d) h
  case evacRelease tag c d => exact requests (.evacRelease tag c d) h
  case doorClose tag c d => exact requests (.doorClose tag c d) h
  case passInsert tag l => exact requests (.passInsert tag l) h
  case passDelete tag l => exact requests (.passDelete tag l) h
  case passBlock tag l => exact requests (.passBlock tag l) h
  case passUnblock tag l => exact requests (.passUnblock tag l) h
  case passRead tag id => exact requests (.passRead tag id) h
  case setDay tag d => exact requests (.setDay tag d) h
  case loadGates tag l => exact requests (.loadGates tag l) h
  case boardingExtend tag g n => exact requests (.boardingExtend tag g n) h
  case boardingClose tag g => exact requests (.boardingClose tag g) h
  case ticketAnswer tag g q v p e => exact requests (.ticketAnswer tag g q v p e) h
  case gateAccess tag i g c a => exact requests (.gateAccess tag i g c a) h
  case setMode tag m a b => exact requests (.setMode tag m a b) h
  case supervise tag c => exact requests (.supervise tag c) h
  case healthSet tag n c e => exact requests (.healthSet tag n c e) h
  case restart tag => exact requests (.restart tag) h
  case reportMaskSet tag c => exact requests (.reportMaskSet tag c) h
  case reportMaskClear tag c => exact requests (.reportMaskClear tag c) h
  all_goals exact request_sound (fun s => (.refl s)) h law

/-! ## Steps -/

theorem tick_gate? (a : Nat) {x : GateRec} (found : (s.glm.gates.map GateRec.tick).find? (fun g => g.address == a) = some x) :
    ∃ g, s.gate? a = some g ∧ x = g.tick := by
  rw [List.find?_map] at found
  obtain ⟨g, at_a, rfl⟩ := Option.map_eq_some_iff.1 found
  exact ⟨g, at_a, rfl⟩

theorem tick_window (l : GateLoop) (g : Group) : l.tick.windows.get g = (l.windows.get g).tick := by cases g <;> rfl

theorem tick_owed (g : GateRec) (c : Car) : g.tick.owed c = g.owed c := by
  cases admission : g.admission <;> simp [GateRec.owed, GateRec.pending, GateRec.tick, Admission.tick, admission]

/-- The timers of the gate loop are beside its laws. -/
theorem gatesOk_tick (ok : s.gatesOk) : State.gatesOk { s with glm := s.glm.tick } where
  list := by
    obtain ⟨rising, cycle⟩ := ok.list
    refine ⟨?_, cycle⟩
    show ((s.glm.gates.map GateRec.tick).map GateRec.address).Pairwise (· < ·)
    rw [List.map_map]
    exact rising
  table := ok.table
  windows g member := by
    obtain ⟨h, old, rfl⟩ := List.mem_map.1 member
    obtain ⟨ready, query, admission⟩ := ok.windows h old
    have window : State.window { s with glm := s.glm.tick } h.group = (s.window h.group).tick := tick_window s.glm h.group
    refine ⟨fun state => ?_, fun runs => query ?_, fun x at_x => ?_⟩
    · show (State.window { s with glm := s.glm.tick } h.group).state = .opened
      rw [window]
      exact ready state
    · simpa [GateRec.tick, Timer.tick] using runs
    · obtain ⟨y, at_y, rfl⟩ := Option.map_eq_some_iff.1 at_x
      show h.state = .passing ∧ 1 ≤ y.pending ∧ (State.window { s with glm := s.glm.tick } h.group).busy = true ∧
        (State.window { s with glm := s.glm.tick } h.group).car = some y.car
      rw [window]
      exact admission y at_y
  seats c := by
    refine ⟨(ok.seats c).1.trans ?_, (ok.seats c).2⟩
    rw [pendingFor_eq_sum, pendingFor_eq_sum]
    show _ = ((s.glm.gates.map GateRec.tick).map (fun g => g.owed c)).sum
    rw [List.map_map]
    congr 1
    exact List.map_congr_left fun g _ => (tick_owed g c).symm

/-- A millisecond keeps the laws and moves nothing they speak of but the timers (assumption log 2). -/
theorem tick_sound (law : s.lawful) : Sound s (tick s) := by
  unfold tick
  split
  · exact .refl law
  · obtain ⟨placed, allowed, trip, test⟩ := boardingLaw_iff.1 law.boarding
    have busy : ∀ g, (s.glm.tick.windows.get g).busy = (s.window g).busy := fun g => by rw [tick_window]; rfl
    have sides : ∀ c d, (((PerCar.mk (tickSides s.dru.sides.a) (tickSides s.dru.sides.b)).get c).get d).state = (s.side c d).state ∧
        (((PerCar.mk (tickSides s.dru.sides.a) (tickSides s.dru.sides.b)).get c).get d).kind = (s.side c d).kind := by
      intro c d
      cases c <;> cases d <;> exact ⟨rfl, rfl⟩
    have waits : ∀ c d, (((PerCar.mk (tickSides s.dru.sides.a) (tickSides s.dru.sides.b)).get c).get d).state = .releasePending →
        s.waits c d := fun c d w => (sides c d).1.symm.trans w
    refine ⟨⟨?_, boardingLaw_iff.2 ⟨fun g b => ?_, fun c d w => ?_, trip, fun runs => test ?_⟩⟩, fun c d w fresh => ?_,
      fun a x k found entry => ?_⟩
    · exact gatesOk_of_eq (s := { s with glm := s.glm.tick }) id rfl rfl rfl rfl rfl (gatesOk_tick law.gates)
    · exact placed g ((busy g).symm.trans b)
    · have releasable := allowed c d (waits c d w)
      rw [← (sides c d).2] at releasable
      exact releasable
    · simpa [Brakes.tick] using runs
    · exact absurd (waits c d w) fresh
    · obtain ⟨g, at_a, rfl⟩ := tick_gate? a found
      exact .inl ⟨g, at_a, entry⟩

/-- What every step is asked holds. -/
theorem step_sound (h : step s = .next t) (law : s.lawful) : Sound s t := by
  unfold step at h
  split at h
  · cases h
    exact tick_sound law
  · rename_i c rest _
    obtain ⟨laws, rests, admits⟩ := exec_sound c h (lawful_of_eq (s := s) rfl rfl rfl rfl rfl rfl rfl rfl law)
    exact ⟨laws, rests, admits⟩

/-- Settles O53: every command is a beginning that makes no side wait, hand-overs that release sides on a line at rest alone, and at most
one admission, at an OPEN window; and each of the three keeps the laws. -/
theorem boardingLawsKept : Obligations.BoardingLawsKept := by
  unfold Obligations.BoardingLawsKept
  have fresh := lawful_of_afresh (blankState_afresh .powerOn State.reset)
  refine ⟨⟨fresh.boarding, fresh.gates.windows, fresh.gates.seats⟩, fun s t list table boarding windows seats stepped => ?_⟩
  obtain ⟨laws, rests, admits⟩ := step_sound stepped ⟨⟨list, table, windows, seats⟩, boarding⟩
  refine ⟨laws.boarding, laws.gates.windows, laws.gates.seats, rests, fun a g k found entry new => ?_⟩
  rcases admits a g k found entry with ⟨h, at_a, old⟩ | opened
  · exact absurd old (new h at_a)
  · exact opened

end

end Sys2Proof.Machine
end

section
/-! SUPPORT. What sealing a window leaves: its record, the gates that follow, and the sides that auto-close orders closed (R115, R149). -/

namespace Sys2Proof.Machine

section
variable {k : Hand} {g : Group} {c : Car} {d : Side} {w : Window} {s t u : State}

/-! ## Gates that follow a window -/

theorem PerGroup.set_set {α : Type} (p : PerGroup α) (g : Group) (v x : α) : (p.set g v).set g x = p.set g x := by cases g <;> rfl

theorem gate?_withWindow (a : Nat) : (s.withWindow g w).gate? a = (s.gate? a).map (GateRec.follow g w.state) := by
  show (s.glm.gates.map (GateRec.follow g w.state)).find? (fun h => h.address == a) = _
  rw [List.find?_map]
  have alike : (fun h : GateRec => h.address == a) ∘ GateRec.follow g w.state = fun h => h.address == a :=
    funext fun h => by rw [Function.comp, (follow_leaves g w.state h).1]
  rw [alike]
  rfl

theorem follow_query (g : Group) (w : WindowState) (h : GateRec) : ((h.follow g w).state == .query) = (h.state == .query) := by
  unfold GateRec.follow
  split
  · rename_i opens
    simp only [Bool.and_eq_true, beq_iff_eq] at opens
    rw [opens.2]
    rfl
  · split
    · rename_i shuts
      simp only [Bool.and_eq_true, beq_iff_eq] at shuts
      rw [shuts.2]
      rfl
    · rfl

/-- A gate outside READY follows a window that leaves OPEN by staying as it is. -/
theorem follow_unready {w : WindowState} {h : GateRec} (unopened : w ≠ .opened) (unready : h.state ≠ .ready) : h.follow g w = h := by
  unfold GateRec.follow
  rw [if_neg (by simp [unopened]), if_neg (by simp [unready])]

theorem querying_withWindow (h : Group) : (s.withWindow g w).querying h = s.querying h := by
  show (s.glm.gates.map (GateRec.follow g w.state)).any _ = _
  rw [List.any_map]
  refine congrArg (s.glm.gates.any) (funext fun x => ?_)
  rw [Function.comp, follow_query, (follow_leaves g w.state x).2.1]

theorem pendingOver_withWindow (h : Group) : (s.withWindow g w).pendingOver h = s.pendingOver h := by
  show (((s.glm.gates.map (GateRec.follow g w.state)).filter _).map GateRec.pending).sum = _
  rw [List.filter_map, List.map_map]
  have group : (fun x : GateRec => x.group == h) ∘ GateRec.follow g w.state = fun x => x.group == h :=
    funext fun x => by rw [Function.comp, (follow_leaves g w.state x).2.1]
  have pending : GateRec.pending ∘ GateRec.follow g w.state = GateRec.pending :=
    funext fun x => by rw [Function.comp, GateRec.pending, (follow_leaves g w.state x).2.2.1]; rfl
  rw [group, pending]
  rfl

/-! ## The end of a sealing (R149) -/

/-- A window with nothing left to resolve. -/
abbrev State.resolved (s : State) (g : Group) : Prop := s.querying g = false ∧ s.pendingOver g = 0

theorem sealingEnd_resolved (resolved : s.resolved g) : s.sealingEnd g = .sealed := by
  rw [State.sealingEnd, resolved.1, resolved.2]
  rfl

theorem sealingEnd_unresolved (unresolved : ¬s.resolved g) : s.sealingEnd g = .sealing := by
  unfold State.sealingEnd
  split
  · rfl
  · rename_i over_now
    simp only [Bool.or_eq_true, not_or, Bool.not_eq_true, bne_eq_false_iff_eq] at over_now
    exact absurd over_now unresolved

/-- The examination of a window: a SEALING one with nothing left to resolve is SEALED, with the close orders of auto-close. -/
theorem examineWindow_sealing (sealing : (s.window g).state = .sealing) (resolved : s.resolved g) : ∃ q, examineWindow k g s =
    autoClose k (s.window g) { s.withWindow g { s.window g with state := .sealed } with slp := q } := by
  obtain ⟨q, set⟩ := setWindow_withWindow g { s.window g with state := .sealed } .passagesResolved s
  refine ⟨q, ?_⟩
  unfold examineWindow
  dsimp only
  rw [sealing, resolved.1, resolved.2, set]
  rfl

theorem examineWindow_waits (waits : (s.window g).state ≠ .sealing ∨ ¬s.resolved g) : examineWindow k g s = s := by
  refine if_neg fun ends => ?_
  simp only [Bool.and_eq_true, beq_iff_eq, Bool.not_eq_true'] at ends
  exact waits.elim (fun unsealing => unsealing ends.1.1) fun unresolved => unresolved ⟨ends.1.2, ends.2⟩

/-- Auto-close is on for a window that serves a car at a stop; else a sealed window gives no close order. -/
theorem autoClose_off (off : s.param LineFields.autoClose ≠ 1) (w : Window) : autoClose k w s = s := by
  unfold autoClose
  split
  · exact if_neg (by simpa using off)
  · rfl

/-- The examination where auto-close gives no order. -/
theorem examineWindow_eq (off : (s.window g).state ≠ .sealing ∨ s.param LineFields.autoClose ≠ 1) :
    ((s.window g).state ≠ .sealing ∨ ¬s.resolved g) ∧ examineWindow k g s = s ∨
      (s.window g).state = .sealing ∧ s.resolved g ∧
        ∃ q, examineWindow k g s = { s.withWindow g { s.window g with state := .sealed } with slp := q } := by
  by_cases waits : (s.window g).state ≠ .sealing ∨ ¬s.resolved g
  · exact .inl ⟨waits, examineWindow_waits waits⟩
  · obtain ⟨sealing, resolved⟩ := not_or.1 waits
    obtain ⟨q, examined⟩ := examineWindow_sealing (k := k) (not_not.1 sealing) (not_not.1 resolved)
    refine .inr ⟨not_not.1 sealing, not_not.1 resolved, q, examined.trans (autoClose_off ?_ _)⟩
    exact off.resolve_left sealing

/-- The window's record in which an OPEN window leaves a sealing. -/
abbrev State.sealedWindow (s : State) (g : Group) : Window := { s.window g with state := s.sealingEnd g, dwell := none }

/-- An OPEN window that is sealed: SEALING while something is left to resolve, else SEALED with the close orders of auto-close. -/
theorem sealWindowNow_eq (cause : WindowCause) (opened : (s.window g).state = .opened) : ∃ gates q,
    sealWindowNow k g cause s = (if s.sealingEnd g = .sealed then autoClose k { s.window g with state := .sealing, dwell := none } else id)
      { s with glm := { s.glm with windows := s.glm.windows.set g (s.sealedWindow g), gates := gates }, slp := q } := by
  have begins : ∃ q, sealWindowNow k g cause s =
      examineWindow k g { s.withWindow g { s.window g with state := .sealing, dwell := none } with slp := q } := by
    obtain ⟨q, set⟩ := setWindow_withWindow g { s.window g with state := .sealing, dwell := none } cause s
    refine ⟨q, ?_⟩
    rw [← set]
    exact if_pos (by rw [opened]; rfl)
  obtain ⟨q, begins⟩ := begins
  have window : State.window { s.withWindow g { s.window g with state := .sealing, dwell := none } with slp := q } g =
      { s.window g with state := .sealing, dwell := none } := window_withWindow_same _ _ _
  have resolves : State.resolved { s.withWindow g { s.window g with state := .sealing, dwell := none } with slp := q } g ↔ s.resolved g := by
    refine Iff.of_eq (congrArg₂ (fun x y => x = false ∧ y = 0) ?_ ?_)
    · exact querying_withWindow (s := s) g
    · exact pendingOver_withWindow (s := s) g
  rw [begins]
  by_cases resolved : s.resolved g
  · obtain ⟨q', examined⟩ := examineWindow_sealing (k := k) (g := g)
      (s := { s.withWindow g { s.window g with state := .sealing, dwell := none } with slp := q }) (by rw [window]) (resolves.2 resolved)
    rw [examined, window, State.sealedWindow, sealingEnd_resolved resolved, if_pos rfl]
    refine ⟨(s.glm.gates.map (GateRec.follow g .sealing)).map (GateRec.follow g .sealed), q', ?_⟩
    rw [← PerGroup.set_set s.glm.windows g { s.window g with state := .sealing, dwell := none }]
    rfl
  · rw [examineWindow_waits (.inr fun r => resolved (resolves.1 r)), State.sealedWindow, sealingEnd_unresolved resolved, if_neg (by decide)]
    exact ⟨_, q, rfl⟩

theorem sealWindowNow_unopened (cause : WindowCause) (unopened : (s.window g).state ≠ .opened) : sealWindowNow k g cause s = s :=
  if_neg (by simpa using unopened)

/-! ## Close orders (R115) -/

/-- A part of a cascade of close orders and sealings: SB and the depth stay as they are, and a window that is not OPEN stays so. -/
structure Shuts (s t : State) : Prop where
  applied : (s.brake .sb).cmd = .apply → (t.brake .sb).cmd = .apply
  overrun : t.overrun = s.overrun
  windows : ∀ g, (s.window g).state ≠ .opened → t.window g = s.window g

theorem Shuts.refl (s : State) : Shuts s s := ⟨id, rfl, fun _ _ => rfl⟩

theorem Shuts.trans (h : Shuts s t) (i : Shuts t u) : Shuts s u where
  applied a := i.applied (h.applied a)
  overrun := i.overrun.trans h.overrun
  windows g unopened := by
    have same := h.windows g unopened
    exact (i.windows g (by rw [same]; exact unopened)).trans same

/-- The OPEN windows are among some groups. -/
abbrev State.openIn (s : State) (l : List Group) : Prop := ∀ g, (s.window g).state = .opened → g ∈ l

theorem Shuts.openIn {l : List Group} (h : Shuts s t) (among : s.openIn l) : t.openIn l := by
  intro g opened
  by_contra outside
  have unopened : (s.window g).state ≠ .opened := fun o => outside (among g o)
  rw [h.windows g unopened] at opened
  exact unopened opened

theorem Shuts.forEach {α : Type} {P : State → Prop} (l : List α) (step : α → State → State) (kept : ∀ {s t}, Shuts s t → P s → P t)
    (h : ∀ a s, P s → Shuts s (step a s)) (s : State) (start : P s) : Shuts s (Machine.forEach l step s) := by
  unfold Machine.forEach
  induction l generalizing s with
  | nil => exact .refl s
  | cons a l ih => exact (h a s start).trans (ih _ (kept (h a s start) start))

theorem Shuts.autoClose {P : State → Prop} (kept : ∀ {s t}, Shuts s t → P s → P t) (h : ∀ c d s, P s → Shuts s (k (.closeSide c d) s))
    (w : Window) (s : State) (start : P s) : Shuts s (Machine.autoClose k w s) := by
  unfold Machine.autoClose
  split
  · split
    · exact .forEach _ _ kept (fun d t => h _ d t) s start
    · exact .refl s
  · exact .refl s

/-- SB is commanded APPLY and the OPEN windows are among some groups. -/
abbrev State.shutting (s : State) (l : List Group) : Prop := (s.brake .sb).cmd = .apply ∧ s.openIn l

theorem Shuts.shutting {l : List Group} (h : Shuts s t) (start : s.shutting l) : t.shutting l := ⟨h.applied start.1, h.openIn start.2⟩

/-- A side that closes while SB is commanded APPLY: its record, and the windows that this leaves unserved (R107, R149). -/
theorem enterClosing_eq {n : Nat} (applied : (s.brake .sb).cmd = .apply) : ∃ h q, enterClosing (run (n + 2)) c d s =
    sealUnreleased (run (n + 1)) { s.setSide c d (s.closedSide c d) with hac := h, slp := q } := by
  obtain ⟨q, taken⟩ := sideTaken_unreleased (c := c) (d := d) (event := .closing) (cause := some .closeOrder) (s := s)
    (r := s.closedSide c d) nofun
  refine ⟨s.haulageAfter (s.side c d) (s.closedSide c d), q, ?_⟩
  have closing : (s.side c d).closing s.closeBound = s.closedSide c d := by
    unfold DoorSide.closing State.closedSide
    congr 1
  rw [enterClosing, closing, run_succ, act, sideToNow_eq, taken, run_succ, act, interlockNow_applied (by exact applied)]
  have unopening : ((s.side c d).state == .releasePending && (s.closedSide c d).state == .released &&
      ((s.closedSide c d).kind == some .auto || (s.closedSide c d).kind == some .manual)) = false := by
    simp [State.closedSide]
  simp only [sideFollows, unopening, Bool.false_eq_true, if_false]

/-- A close order to a side (R115). -/
theorem closeSideNow_takes (c : Car) (d : Side) (s : State) :
    closeSideNow k c d s = if s.takesClose c d = true then enterClosing k c d s else s := by
  unfold closeSideNow State.takesClose
  dsimp only
  cases (s.side c d).state <;> try rfl
  all_goals cases (s.side c d).retryTimer <;> rfl

theorem sealUnreleased_shuts {n : Nat} {l : List Group}
    (seals : ∀ g cause s, s.shutting l → Shuts s (run n (.sealWindow g cause) s)) (s : State) (start : s.shutting l) :
    Shuts s (sealUnreleased (run n) s) := by
  refine .forEach (P := fun t => t.shutting l) _ _ Shuts.shutting (fun g t start => ?_) s start
  dsimp only
  split
  · exact seals g .doors t start
  · exact .refl t

theorem closeSide_shuts {n : Nat} {l : List Group}
    (seals : ∀ g cause s, s.shutting l → Shuts s (run (n + 1) (.sealWindow g cause) s)) (c : Car) (d : Side) (s : State)
    (start : s.shutting l) : Shuts s (run (n + 3) (.closeSide c d) s) := by
  rw [run_succ, act, closeSideNow_takes]
  split
  · obtain ⟨h, q, closes⟩ := enterClosing_eq (c := c) (d := d) (n := n) start.1
    rw [closes]
    have closed : Shuts s { s.setSide c d (s.closedSide c d) with hac := h, slp := q } := ⟨id, rfl, fun _ _ => rfl⟩
    exact closed.trans (sealUnreleased_shuts seals _ (closed.shutting start))
  · exact .refl s

/-- A sealing leaves one OPEN window less. -/
theorem sealWindow_shuts {n : Nat} {l : List Group} (closes : ∀ g ∈ l, ∀ c d s, s.shutting (l.erase g) → Shuts s (run n (.closeSide c d) s))
    (g : Group) (cause : WindowCause) (s : State) (start : s.shutting l) : Shuts s (run (n + 1) (.sealWindow g cause) s) := by
  rw [run_succ, act]
  by_cases opened : (s.window g).state = .opened
  · obtain ⟨gates, q, sealed⟩ := sealWindowNow_eq (k := run n) cause opened
    rw [sealed]
    have member := start.2 g opened
    have others : ∀ h, h ≠ g → (s.glm.windows.set g (s.sealedWindow g)).get h = s.window h := fun h other =>
      PerGroup.get_set_other _ _ other
    have written : Shuts s { s with
        glm := { s.glm with windows := s.glm.windows.set g (s.sealedWindow g), gates := gates }, slp := q } :=
      ⟨id, rfl, fun h unopened => others h fun same => unopened (same ▸ opened)⟩
    have less : State.shutting { s with
        glm := { s.glm with windows := s.glm.windows.set g (s.sealedWindow g), gates := gates }, slp := q } (l.erase g) := by
      refine ⟨start.1, fun h still => ?_⟩
      by_cases same : h = g
      · subst same
        have still : ((s.glm.windows.set h (s.sealedWindow h)).get h).state = .opened := still
        rw [PerGroup.get_set] at still
        unfold State.sealedWindow State.sealingEnd at still
        split at still <;> exact nomatch still
      · exact (List.mem_erase_of_ne same).2 (start.2 h ((congrArg Window.state (others h same)).symm.trans still))
    split
    · exact written.trans (.autoClose (P := fun t => t.shutting (l.erase g)) Shuts.shutting (closes g member) _ _ less)
    · exact written
  · rw [sealWindowNow_unopened cause opened]
    exact .refl s

/-- Close orders and sealings nest no deeper than three for each OPEN window, and change no other. -/
theorem close_shuts (m : Nat) : ∀ (l : List Group) (n : Nat), l.length = m → 3 * m ≤ n →
    (∀ g cause s, s.shutting l → Shuts s (run (n + 1) (.sealWindow g cause) s)) ∧
      ∀ c d s, s.shutting l → Shuts s (run (n + 3) (.closeSide c d) s) := by
  induction m with
  | zero =>
    intro l n size _
    have seals : ∀ g cause s, s.shutting l → Shuts s (run (n + 1) (.sealWindow g cause) s) :=
      sealWindow_shuts fun g member => by
        rw [List.length_eq_zero_iff.1 size] at member
        exact nomatch member
    exact ⟨seals, closeSide_shuts seals⟩
  | succ m ih =>
    intro l n size deep
    have seals : ∀ g cause s, s.shutting l → Shuts s (run (n + 1) (.sealWindow g cause) s) := by
      refine sealWindow_shuts fun g member => ?_
      obtain ⟨j, rfl⟩ : ∃ j, n = j + 3 := ⟨n - 3, by omega⟩
      exact (ih (l.erase g) j (by rw [List.length_erase_of_mem member, size]; rfl) (by omega)).2
    exact ⟨seals, closeSide_shuts seals⟩

/-! ## The platform sides that auto-close closes -/

/-- The OPEN windows serve the other car, which has a side released. -/
abbrev State.servesOther (s : State) (c : Car) : Prop :=
  ∀ h, (s.window h).state = .opened → (s.window h).car = some c.other ∧ s.anyReleased c.other = true

theorem other_ne (c : Car) : c.other ≠ c := by cases c <;> decide

/-- A close order where the OPEN windows serve the other car: nothing but the side moves, with the reference and the report. -/
theorem closeSide_eq {n : Nat} (applied : (s.brake .sb).cmd = .apply) (serves : s.servesOther c) : ∃ h q,
    run (n + 3) (.closeSide c d) s = { s.setSide c d (if s.takesClose c d = true then s.closedSide c d else s.side c d) with
      hac := h, slp := q } := by
  rw [run_succ, act, closeSideNow_takes]
  split
  · obtain ⟨h, q, closes⟩ := enterClosing_eq (c := c) (d := d) (n := n) applied
    refine ⟨h, q, closes.trans (sealUnreleased_served fun g opened => ?_)⟩
    obtain ⟨car, released⟩ := serves g opened
    have same : ∀ x, (s.setSide c d (s.closedSide c d)).side c.other x = s.side c.other x := fun x =>
      side_setSide_other s _ fun e => other_ne c (congrArg Prod.fst e)
    have served : (s.window g).car.any (s.setSide c d (s.closedSide c d)).anyReleased = true := by
      rw [car, Option.any_some, State.anyReleased]
      simp only [same]
      exact released
    exact served
  · refine ⟨s.hac, s.slp, ?_⟩
    cases c <;> cases d <;> rfl

/-- The sides of a list have been ordered to close, each other staying as it was, and nothing that a close order reads has changed. -/
structure ClosedAs (c : Car) (l : List Side) (s t : State) : Prop where
  sides : ∀ d, t.side c d = if d ∈ l ∧ s.takesClose c d = true then s.closedSide c d else s.side c d
  other : ∀ d, t.side c.other d = s.side c.other d
  brakes : t.bsq = s.bsq
  windows : t.glm = s.glm

theorem closeSides_closedAs {n : Nat} (l : List Side) (distinct : l.Nodup) : ∀ s : State, (s.brake .sb).cmd = .apply →
    s.servesOther c → ClosedAs c l s (forEach l (fun d t => run (n + 3) (.closeSide c d) t) s) := by
  induction l with
  | nil => exact fun s _ _ => ⟨fun d => by simp [forEach], fun _ => rfl, rfl, rfl⟩
  | cons d l ih =>
    intro s applied serves
    obtain ⟨unlisted, distinct⟩ := List.nodup_cons.1 distinct
    obtain ⟨h, q, closes⟩ := closeSide_eq (d := d) (n := n) applied serves
    show ClosedAs c (d :: l) s (forEach l _ (run (n + 3) (.closeSide c d) s))
    rw [closes]
    have at_d : (s.setSide c d (if s.takesClose c d = true then s.closedSide c d else s.side c d)).side c d =
        if s.takesClose c d = true then s.closedSide c d else s.side c d := side_setSide s _ _ _
    have elsewhere : ∀ e x, (e, x) ≠ (c, d) →
        (s.setSide c d (if s.takesClose c d = true then s.closedSide c d else s.side c d)).side e x = s.side e x := fun e x other =>
      side_setSide_other s _ other
    generalize hr : (if s.takesClose c d = true then s.closedSide c d else s.side c d) = r at at_d elsewhere
    have others : ∀ x, (s.setSide c d r).side c.other x = s.side c.other x := fun x =>
      elsewhere c.other x fun e => other_ne c (congrArg Prod.fst e)
    have still : State.servesOther { s.setSide c d r with hac := h, slp := q } c := fun g opened => by
      obtain ⟨car, released⟩ := serves g opened
      refine ⟨car, ?_⟩
      have same : (s.setSide c d r).anyReleased c.other = s.anyReleased c.other := by
        unfold State.anyReleased
        simp only [others]
      exact same.trans released
    obtain ⟨sides, other, brakes, windows⟩ := ih distinct { s.setSide c d r with hac := h, slp := q } applied still
    refine ⟨fun x => (sides x).trans ?_, fun x => (other x).trans (others x), brakes, windows⟩
    by_cases same : x = d
    · subst same
      rw [if_neg fun listed => unlisted listed.1]
      exact at_d.trans (by rw [← hr]; simp)
    · have alike : (s.setSide c d r).side c x = s.side c x := elsewhere c x fun e => same (congrArg Prod.snd e)
      have takes : State.takesClose { s.setSide c d r with hac := h, slp := q } c x = s.takesClose c x := by
        show (match ((s.setSide c d r).side c x).state with
          | .releasePending => true
          | .released | .opened => ((s.setSide c d r).side c x).retryTimer.isNone
          | .unproven => s.isFresh c
          | .secured | .closing | .fault => false) = _
        rw [alike]
        rfl
      have closed : State.closedSide { s.setSide c d r with hac := h, slp := q } c x = s.closedSide c x := by
        show ({ (s.setSide c d r).side c x with
          state := .closing, retries := 0, ackTimer := none, retryTimer := none, faultCause := none
          closeTimer := s.line.map (fun p => p.tClose * 1000) } : DoorSide) = _
        rw [alike]
        rfl
      rw [takes, closed, show State.side { s.setSide c d r with hac := h, slp := q } c x = s.side c x from alike]
      simp [same]

theorem platformSides_nodup (s : State) (c : Car) (i : Nat) : (s.platformSides c i).Nodup := by
  unfold State.platformSides
  cases s.stopAt? i with
  | none => exact List.nodup_nil
  | some r => exact (by cases (r.car.get c).sides <;> decide : ((r.car.get c).sides.sides).Nodup)

/-! ## A window sealed while SB is commanded APPLY -/

theorem sealingEnd_unopened (s : State) (g : Group) : s.sealingEnd g ≠ .opened := by
  unfold State.sealingEnd
  split <;> nofun

theorem openIn_all (s : State) : s.openIn allGroups := fun g _ => by cases g <;> decide

/-- A sealing by a whole step, SB being commanded APPLY: the window's record and the close orders that auto-close gives. -/
theorem sealWindow_applied (cause : WindowCause) (opened : (s.window g).state = .opened) (applied : (s.brake .sb).cmd = .apply) :
    (cascade (.sealWindow g cause) s).overrun = s.overrun ∧ (cascade (.sealWindow g cause) s).window g = s.sealedWindow g ∧
      s.closesOrdered (cascade (.sealWindow g cause) s) g := by
  obtain ⟨gates, q, sealed⟩ := sealWindowNow_eq (k := run 63) cause opened
  have seals : cascade (.sealWindow g cause) s = sealWindowNow (run 63) g cause s := rfl
  rw [seals, sealed]
  have window : ((s.glm.windows.set g (s.sealedWindow g)).get g) = s.sealedWindow g := PerGroup.get_set _ _ _
  by_cases ended : s.sealingEnd g = .sealed
  · rw [if_pos ended]
    have shuts : Shuts { s with glm := { s.glm with windows := s.glm.windows.set g (s.sealedWindow g), gates := gates }, slp := q }
        (autoClose (run 63) { s.window g with state := .sealing, dwell := none }
          { s with glm := { s.glm with windows := s.glm.windows.set g (s.sealedWindow g), gates := gates }, slp := q }) :=
      .autoClose (P := fun t => t.shutting allGroups) Shuts.shutting (close_shuts 4 allGroups 60 rfl (by decide)).2 _ _ ⟨applied, openIn_all _⟩
    refine ⟨shuts.overrun, (shuts.windows g ?_).trans window, fun _ on c i car stop alone => ?_⟩
    · rw [State.window, window]
      exact sealingEnd_unopened s g
    · have gives : ∀ t : State, t.line = s.line → t.stops = s.stops →
          autoClose (run 63) { s.window g with state := .sealing, dwell := none } t =
            forEach (s.platformSides c i) (fun d t => run 63 (.closeSide c d) t) t := by
        intro t line stops
        unfold autoClose
        dsimp only
        rw [car, stop]
        have on_there : (t.param LineFields.autoClose == 1) = true := by
          rw [beq_iff_eq, ← on, State.param, State.param, line]
        have sides : t.platformSides c i = s.platformSides c i := by
          unfold State.platformSides State.stopAt?
          rw [stops]
        dsimp only
        rw [if_pos on_there, sides]
      rw [gives { s with glm := { s.glm with windows := s.glm.windows.set g (s.sealedWindow g), gates := gates }, slp := q } rfl rfl]
      obtain ⟨sides, other, -⟩ := closeSides_closedAs (n := 60) (s.platformSides c i) (platformSides_nodup s c i)
        { s with glm := { s.glm with windows := s.glm.windows.set g (s.sealedWindow g), gates := gates }, slp := q } applied
        (c := c) fun h still => by
          by_cases same : h = g
          · subst same
            rw [State.window, window] at still
            exact absurd still (sealingEnd_unopened s h)
          · have unmoved : (s.glm.windows.set g (s.sealedWindow g)).get h = s.window h := PerGroup.get_set_other _ _ same
            rw [State.window, unmoved] at still ⊢
            exact alone h same still
      exact ⟨sides, other⟩
  · rw [if_neg ended]
    exact ⟨rfl, window, fun sealed => absurd sealed ended⟩

/-- A sealing that gives no close order changes the gate loop and the link alone. -/
theorem sealWindow_alone (cause : WindowCause) (opened : (s.window g).state = .opened)
    (off : s.param LineFields.autoClose ≠ 1 ∨ s.sealingEnd g = .sealing) : ∃ gates q, cascade (.sealWindow g cause) s =
      { s with glm := { s.glm with windows := s.glm.windows.set g (s.sealedWindow g), gates := gates }, slp := q } := by
  obtain ⟨gates, q, sealed⟩ := sealWindowNow_eq (k := run 63) cause opened
  refine ⟨gates, q, sealed.trans ?_⟩
  split
  · rename_i ended
    rcases off with off | sealing
    · exact autoClose_off (by exact off) _
    · exact nomatch ended.symm.trans sealing
  · rfl

end

end Sys2Proof.Machine
end

section
/-! SUPPORT. Exchanges of the gate loop at one gate: what a reply finds, what it leaves at the gate and its window, and the poll that
follows (R144 to R158). -/

namespace Sys2Proof.Machine

section
variable {k : Hand} {a : Nat} {g h : GateRec} {s t u : State}

/-! ## Gate lists but for what polls have carried -/

/-- The gates of one state are those of another, but for what polls have carried. -/
abbrev State.pollsOnly (s t : State) : Prop := t.glm.gates.map GateRec.unpolled = s.glm.gates.map GateRec.unpolled

theorem gate?_unpolled (s : State) (a : Nat) :
    (s.gate? a).map GateRec.unpolled = (s.glm.gates.map GateRec.unpolled).find? (fun g => g.address == a) := by
  rw [List.find?_map]
  rfl

theorem gate?_pollsOnly (polls : s.pollsOnly t) (a : Nat) : (t.gate? a).map GateRec.unpolled = (s.gate? a).map GateRec.unpolled := by
  rw [gate?_unpolled, gate?_unpolled, polls]

theorem querying_pollsOnly (polls : s.pollsOnly t) (x : Group) : t.querying x = s.querying x := by
  have unpolled : ∀ u : State, u.querying x = (u.glm.gates.map GateRec.unpolled).any (fun h => h.group == x && h.state == .query) :=
    fun u => by rw [List.any_map]; rfl
  rw [unpolled, unpolled, polls]

theorem pendingOver_pollsOnly (polls : s.pollsOnly t) (x : Group) : t.pendingOver x = s.pendingOver x := by
  have unpolled : ∀ u : State, u.pendingOver x =
      (((u.glm.gates.map GateRec.unpolled).filter (fun h => h.group == x)).map GateRec.pending).sum := fun u => by
    rw [List.filter_map, List.map_map]
    rfl
  rw [unpolled, unpolled, polls]

theorem windowsResolved_congr {x : Group} (querying : t.querying x = u.querying x) (pending : t.pendingOver x = u.pendingOver x) :
    s.windowsResolved t x = s.windowsResolved u x := by
  unfold State.windowsResolved
  rw [querying, pending]

theorem windowsResolved_pollsOnly (polls : t.pollsOnly u) (x : Group) : s.windowsResolved u x = s.windowsResolved t x :=
  windowsResolved_congr (querying_pollsOnly polls x) (pendingOver_pollsOnly polls x)

/-- The next poll: nothing changes but what polls have carried, and where the loop stands (R144). -/
theorem pollNext_eq (distinct : (s.glm.gates.map GateRec.address).Nodup) :
    ∃ l, pollNext s = { s with glm := l } ∧ l.windows = s.glm.windows ∧ s.pollsOnly { s with glm := l } := by
  unfold pollNext
  dsimp only
  split
  · split
    · rename_i cycle g next
      have member : g ∈ s.glm.gates := nextPoll_member _ _ _ _ next
      refine ⟨_, rfl, rfl, ?_⟩
      show (s.glm.gates.map (fun h => if (h.address == g.address) = true then { g with carried := g.verdict.isSome } else h)).map
        GateRec.unpolled = s.glm.gates.map GateRec.unpolled
      rw [List.map_map]
      refine List.map_congr_left fun x listed => ?_
      by_cases here : x.address = g.address
      · obtain rfl := List.inj_on_of_nodup_map distinct listed member here
        simp [GateRec.unpolled]
      · simp [here]
    · exact ⟨_, rfl, rfl, rfl⟩
  · exact ⟨_, rfl, rfl, rfl⟩

theorem addresses_setGate (s : State) (h : GateRec) : ((s.setGate h).glm.gates.map GateRec.address) = s.glm.gates.map GateRec.address := by
  show (s.glm.gates.map (fun x => if (x.address == h.address) = true then h else x)).map GateRec.address = _
  rw [List.map_map]
  refine List.map_congr_left fun x _ => ?_
  by_cases here : x.address = h.address <;> simp [here]

theorem addresses_withWindow (s : State) (x : Group) (w : Window) :
    ((s.withWindow x w).glm.gates.map GateRec.address) = s.glm.gates.map GateRec.address := by
  show (s.glm.gates.map (GateRec.follow x w.state)).map GateRec.address = _
  rw [List.map_map]
  exact List.map_congr_left fun y _ => (follow_leaves x w.state y).1

/-! ## A gate written and its window examined (R149) -/

/-- The resting state of a gate (R143). -/
theorem resting_eq (s : State) (g : GateRec) :
    s.resting g = if g.lockNote then .lockedOut else if (s.window g.group).state = .opened then .ready else .shut := by
  simp [State.resting]

/-- A resting gate is READY at an OPEN window alone. -/
theorem resting_unready (sealing : (s.window g.group).state = .sealing) : s.resting g ≠ .ready := fun ready =>
  nomatch sealing.symm.trans (resting_ready ready)

/-- The examination of a window where auto-close gives no order: the windows resolved, and a gate outside READY as it was. -/
theorem examineWindow_resolves {x : Group} (off : (s.window x).state ≠ .sealing ∨ s.param LineFields.autoClose ≠ 1)
    (found : s.gate? a = some h) (unready : (s.window x).state = .sealing → h.state ≠ .ready) : ∃ l q,
    examineWindow k x s = { s with glm := l, slp := q } ∧ l.windows = s.windowsResolved { s with glm := l, slp := q } x ∧
      State.gate? { s with glm := l, slp := q } a = some h ∧ l.gates.map GateRec.address = s.glm.gates.map GateRec.address := by
  rcases examineWindow_eq (k := k) off with ⟨waits, same⟩ | ⟨sealing, resolved, q, examined⟩
  · refine ⟨s.glm, s.slp, same, ?_, found, rfl⟩
    unfold State.windowsResolved
    rw [if_neg]
    rintro ⟨sealing, querying, pending⟩
    exact waits.elim (fun unsealing => unsealing sealing) fun unresolved => unresolved ⟨querying, pending⟩
  · refine ⟨_, q, examined, ?_, ?_, addresses_withWindow s x { s.window x with state := .sealed }⟩
    · have querying : State.querying (s.withWindow x { s.window x with state := .sealed }) x = false :=
        (querying_withWindow x).trans resolved.1
      have pending : State.pendingOver (s.withWindow x { s.window x with state := .sealed }) x = 0 :=
        (pendingOver_withWindow x).trans resolved.2
      exact (if_pos ⟨sealing, querying, pending⟩).symm
    · have at_a : (s.withWindow x { s.window x with state := .sealed }).gate? a = some h := by
        rw [gate?_withWindow, found]
        exact congrArg some (follow_unready (show WindowState.sealed ≠ .opened by decide) (unready sealing))
      exact at_a

/-! ## Good replies (R144 to R146) -/

/-- The record of an online gate that answers, when its content is taken: its misses are 0, and a verdict its poll carried has been
delivered. -/
abbrev GateRec.heard (g : GateRec) : GateRec := { g with misses := 0, carried := false }

theorem replyBegins_eq (m : GateMsg) (found : s.gate? a = some g) (online : g.state ≠ .offline) (unfaulted : g.state ≠ .fault)
    (kept : g.carried = true → g.verdict = none) :
    leaveFault a m (deliver a (comeOnline a (onGate a (fun g => { g with misses := 0 }) s))) = s.setGate g.heard := by
  have answered : onGate a (fun g => { g with misses := 0 }) s = s.setGate { g with misses := 0 } := onGate_eq _ found
  have at_answered := gate?_setGate_same (h := { g with misses := 0 }) found rfl
  have came : comeOnline a (s.setGate { g with misses := 0 }) = s.setGate { g with misses := 0 } := by
    unfold comeOnline
    rw [at_answered]
    exact if_neg (by simpa using online)
  have record : (if g.carried = true then { g with misses := 0, verdict := none, carried := false } else { g with misses := 0 }) =
      g.heard := by
    obtain ⟨_, _, _, _, _, _, verdict, carried, _, _, _, _, _⟩ := g
    cases carried
    · rfl
    · obtain rfl : verdict = none := kept rfl
      rfl
  have delivered : deliver a (s.setGate { g with misses := 0 }) = s.setGate g.heard := by
    have placed := onGate_eq (fun g => if g.carried = true then { g with verdict := none, carried := false } else g) at_answered
    rw [setGate_setGate (by dsimp only; split <;> rfl)] at placed
    exact placed.trans (congrArg s.setGate record)
  rw [answered, came, delivered]
  have at_heard := gate?_setGate_same (h := g.heard) found rfl
  unfold leaveFault
  rw [at_heard]
  exact if_neg (by simp [unfaulted])

/-- A good reply at an online gate whose poll carries no access request: its content, and the next poll. -/
theorem gateReply_next {p : Poll} {bytes : List Byte} {m : GateMsg} (running : s.isRunning) (poll : s.glm.poll = some p)
    (access : p.access = none) (reply : gateReplyOf? p.address bytes = some m) (found : s.gate? p.address = some g)
    (online : g.state ≠ .offline) (unfaulted : g.state ≠ .fault) (kept : g.carried = true → g.verdict = none)
    (content : replyContent cascade p.address m (State.setGate { s with overrun := false } g.heard) = u) (clear : u.overrun = false)
    (distinct : (u.glm.gates.map GateRec.address).Nodup) : exec (.gateReply bytes) s = .next (pollNext u) := by
  have replied : goodReply cascade p m { s with overrun := false } = pollNext u := by
    unfold goodReply
    dsimp only
    rw [replyBegins_eq (s := { s with overrun := false }) m found online unfaulted kept, content, thirdPollPassed, access]
  obtain ⟨l, polled, -⟩ := pollNext_eq distinct
  have arrives : exec (.gateReply bytes) s = whileRunning (fun s => match s.glm.poll with
      | none => s
      | some p => match gateReplyOf? p.address bytes with
        | none => s
        | some m => goodReply cascade p m s) s := rfl
  rw [arrives, whileRunning_next running]
  · dsimp only
    rw [poll]
    dsimp only
    rw [reply]
    exact congrArg Host.Outcome.next replied
  · dsimp only
    rw [poll]
    dsimp only
    rw [reply]
    dsimp only
    rw [replied, polled]
    exact clear

/-! ## Judging (R151 to R153) -/

section
variable {ticket : Nat} {c : Car}

theorem refuseAt_heard (car : Option Car) (r : RefuseReason) (n e : Option Nat) (found : s.gate? a = some g) : ∃ q,
    refuseAt a car ticket r n e (s.setGate g.heard) =
      { s.setGate { g.heard with verdict := some (.refuse r) } with slp := q } := by
  obtain ⟨q, refused⟩ := refuseAt_eq car ticket r n e (gate?_setGate_same (h := g.heard) found rfl)
  have twice := setGate_setGate (s := s) (g := g.heard) (h := { g.heard with verdict := some (.refuse r) }) rfl
  exact ⟨q, refused.trans (congrArg (fun u : State => { u with slp := q }) twice)⟩

theorem judge_ready (found : s.gate? a = some g) (car : (s.window g.group).car = some c) (listed : ticket ≠ 0) :
    judge a ticket s = match s.ptb.lookup (s.param LineFields.passback) ticket g.group with
      | .refused .unknown =>
        if s.param LineFields.queryEnable == 1 && !s.lmu.lost then startQuery a g.group c ticket s
        else refuseAt a (some c) ticket .unknown none none s
      | .refused r => refuseAt a (some c) ticket r none none s
      | .eligible _ seats => (judgeSeats a g.group c ticket seats s).1 := by
  unfold judge
  rw [found]
  dsimp only
  rw [car]
  exact if_neg listed

end

end

end Sys2Proof.Machine
end

section
/-! SUPPORT. The replies that judge a presentation, count passages or fail to come, as the claims about boarding speak of them (R145,
R146, R151 to R158). -/

namespace Sys2Proof.Machine

/-- A good reply m comes to the outstanding poll of an online gate, which carries no access request (R144, R146). -/
structure Replies (s : State) (p : Poll) (g : GateRec) (bytes : List Byte) (m : GateMsg) : Prop where
  running : s.isRunning
  law : s.glm.law
  poll : s.glm.poll = some p
  access : p.access = none
  reply : gateReplyOf? p.address bytes = some m
  found : s.gate? p.address = some g
  online : g.state ≠ .offline
  unfaulted : g.state ≠ .fault
  kept : g.carried = true → g.verdict = none

/-- The state in which the content of the reply is taken. -/
abbrev State.replied? (s : State) (g : GateRec) : State := State.setGate { s with overrun := false } g.heard

section
variable {s t u : State} {p : Poll} {g h : GateRec} {bytes : List Byte} {m : GateMsg} {ticket : Nat} {c : Car}

theorem Replies.at_heard (r : Replies s p g bytes m) : (s.replied? g).gate? p.address = some g.heard :=
  gate?_setGate_same (s := { s with overrun := false }) (h := g.heard) r.found rfl

/-- The content of the reply is followed by the next poll. -/
theorem Replies.next (r : Replies s p g bytes m) (content : replyContent cascade p.address m (s.replied? g) = u)
    (clear : u.overrun = false) (addresses : u.glm.gates.map GateRec.address = s.glm.gates.map GateRec.address) :
    ∃ l, exec (.gateReply bytes) s = .next { u with glm := l } ∧ l.windows = u.glm.windows ∧ u.pollsOnly { u with glm := l } := by
  have distinct : (u.glm.gates.map GateRec.address).Nodup := by
    rw [addresses]
    exact addresses_nodup r.law
  obtain ⟨l, polled, windows, polls⟩ := pollNext_eq distinct
  have answers := gateReply_next r.running r.poll r.access r.reply r.found r.online r.unfaulted r.kept content clear distinct
  exact ⟨l, answers.trans (congrArg Host.Outcome.next polled), windows, polls⟩

/-- What a reply leaves that writes its gate alone. -/
theorem Replies.answered {q : Link} (r : Replies s p g bytes m) (address : h.address = g.address)
    (content : replyContent cascade p.address m (s.replied? g) = { State.setGate { s with overrun := false } h with slp := q }) :
    ∃ t, exec (.gateReply bytes) s = .next t ∧ t = { s with overrun := false, glm := t.glm, slp := t.slp } ∧
      t.glm.windows = s.glm.windows ∧ (t.gate? p.address).map GateRec.unpolled = some h.unpolled := by
  obtain ⟨l, answers, windows, polls⟩ := r.next content rfl (addresses_setGate s h)
  have placed : State.gate? { State.setGate { s with overrun := false } h with slp := q } p.address = some h :=
    gate?_setGate_same (s := s) r.found address
  exact ⟨_, answers, rfl, windows, (gate?_pollsOnly polls p.address).trans (by rw [placed]; rfl)⟩

/-- What a reply leaves that refuses at its gate. -/
theorem Replies.refused {car : Option Car} {x : RefuseReason} {n e : Option Nat} (r : Replies s p g bytes m)
    (content : replyContent cascade p.address m (s.replied? g) = refuseAt p.address car ticket x n e (s.replied? g)) :
    ∃ t, exec (.gateReply bytes) s = .next t ∧ t = { s with overrun := false, glm := t.glm, slp := t.slp } ∧
      t.glm.windows = s.glm.windows ∧
      (t.gate? p.address).map GateRec.unpolled = some { g with misses := 0, verdict := some (.refuse x) }.unpolled := by
  obtain ⟨q, refused⟩ := refuseAt_heard (s := { s with overrun := false }) (ticket := ticket) car x n e r.found
  exact r.answered (h := { g.heard with verdict := some (.refuse x) }) rfl (content.trans refused)

/-! ## Presentations (R146, R151 to R153) -/

theorem presented_shut (r : Replies s p g bytes (.presented ticket)) (unjudged : g.verdict = none) (shut : g.state = .shut) :
    presented p.address ticket (s.replied? g) =
      refuseAt p.address (s.window g.group).car ticket .closed none none (s.replied? g) := by
  unfold presented
  rw [r.at_heard]
  dsimp only
  rw [unjudged, shut]
  rfl

theorem presented_ready (r : Replies s p g bytes (.presented ticket)) (unjudged : g.verdict = none) (ready : g.state = .ready) :
    presented p.address ticket (s.replied? g) = judge p.address ticket (s.replied? g) := by
  unfold presented
  rw [r.at_heard]
  dsimp only
  rw [unjudged, ready]
  rfl

/-- A presentation at a READY gate whose window serves a car. -/
structure Presents (s : State) (p : Poll) (g : GateRec) (bytes : List Byte) (ticket : Nat) (c : Car) : Prop extends
    Replies s p g bytes (.presented ticket) where
  unjudged : g.verdict = none
  ready : g.state = .ready
  car : (s.window g.group).car = some c

theorem Presents.content (r : Presents s p g bytes ticket c) :
    replyContent cascade p.address (.presented ticket) (s.replied? g) = judge p.address ticket (s.replied? g) :=
  presented_ready r.toReplies r.unjudged r.ready

theorem Presents.listed (r : Presents s p g bytes ticket c) (listed : ticket ≠ 0) :
    replyContent cascade p.address (.presented ticket) (s.replied? g) =
      match s.ptb.lookup (s.param LineFields.passback) ticket g.group with
      | .refused .unknown =>
        if s.param LineFields.queryEnable == 1 && !s.lmu.lost then startQuery p.address g.group c ticket (s.replied? g)
        else refuseAt p.address (some c) ticket .unknown none none (s.replied? g)
      | .refused x => refuseAt p.address (some c) ticket x none none (s.replied? g)
      | .eligible _ seats => (judgeSeats p.address g.group c ticket seats (s.replied? g)).1 :=
  r.content.trans (judge_ready (g := g.heard) r.at_heard r.car listed)

theorem Presents.noTicket (r : Presents s p g bytes ticket c) (none_presented : ticket = 0) :
    replyContent cascade p.address (.presented ticket) (s.replied? g) =
      refuseAt p.address (some c) ticket .unknown none none (s.replied? g) := by
  rw [r.content]
  unfold judge
  rw [r.at_heard]
  dsimp only
  rw [show (s.replied? g).window g.group = s.window g.group from rfl, r.car]
  exact if_pos none_presented

theorem Presents.refusedByLookup {x : RefuseReason} (r : Presents s p g bytes ticket c) (listed : ticket ≠ 0)
    (found : s.ptb.lookup (s.param LineFields.passback) ticket g.group = .refused x) (known : x ≠ .unknown) :
    replyContent cascade p.address (.presented ticket) (s.replied? g) =
      refuseAt p.address (some c) ticket x none none (s.replied? g) := by
  rw [r.listed listed, found]
  cases x
  case unknown => exact absurd rfl known
  all_goals rfl

/-- A ticket query for an unknown ticket (R153). -/
theorem Presents.queries (r : Presents s p g bytes ticket c) (listed : ticket ≠ 0)
    (found : s.ptb.lookup (s.param LineFields.passback) ticket g.group = .refused .unknown)
    (enabled : s.param LineFields.queryEnable = 1) (host : s.lmu.lost = false) :
    ∃ q, replyContent cascade p.address (.presented ticket) (s.replied? g) = { State.setGate { s with overrun := false } { g.heard with
      state := .query, queryNumber := (g.queryNumber + 1) % 256, queryTicket := some ticket, queryTimer := some 1500 } with slp := q } := by
  rw [r.listed listed, found]
  dsimp only
  rw [enabled, host]
  unfold startQuery
  rw [if_pos (by decide), r.at_heard]
  dsimp only
  rw [post_eq_taking, setGate_setGate (by rfl)]
  exact ⟨_, rfl⟩

theorem Presents.unqueried (r : Presents s p g bytes ticket c) (listed : ticket ≠ 0)
    (found : s.ptb.lookup (s.param LineFields.passback) ticket g.group = .refused .unknown)
    (off : s.param LineFields.queryEnable ≠ 1 ∨ s.lmu.lost = true) :
    replyContent cascade p.address (.presented ticket) (s.replied? g) =
      refuseAt p.address (some c) ticket .unknown none none (s.replied? g) := by
  rw [r.listed listed, found]
  refine if_neg fun on => ?_
  simp only [Bool.and_eq_true, beq_iff_eq, Bool.not_eq_true'] at on
  exact off.elim (fun disabled => disabled on.1) fun lost => nomatch on.2.symm.trans lost

theorem seats_suffice {k : Nat} (room : k + (s.tallyOf c).aboardMax + (s.tallyOf c).inFlight ≤ s.capacity) :
    ¬(s.replied? g).seatsLeft c < (k : Int) := by
  show ¬s.seatsLeft c < (k : Int)
  unfold State.seatsLeft
  omega

section
variable {kind : PassKind} {k : Nat} (r : Presents s p g bytes ticket c) (listed : ticket ≠ 0)
  (found : s.ptb.lookup (s.param LineFields.passback) ticket g.group = .eligible kind k)
include r listed found

theorem Presents.eligible : replyContent cascade p.address (.presented ticket) (s.replied? g) =
    (judgeSeats p.address g.group c ticket k (s.replied? g)).1 := by
  rw [r.listed listed, found]

theorem Presents.full (short : ¬k + (s.tallyOf c).aboardMax + (s.tallyOf c).inFlight ≤ s.capacity) :
    replyContent cascade p.address (.presented ticket) (s.replied? g) =
      refuseAt p.address (some c) ticket .full (some k) none (s.replied? g) := by
  have seats : (s.replied? g).seatsLeft c < (k : Int) := by
    show s.seatsLeft c < (k : Int)
    unfold State.seatsLeft
    omega
  rw [r.eligible listed found, judgeSeats, if_pos seats]

theorem Presents.unbalanced (room : k + (s.tallyOf c).aboardMax + (s.tallyOf c).inFlight ≤ s.capacity)
    (low : (s.project c k).descends = true ∧ (s.project c k).below = true) :
    replyContent cascade p.address (.presented ticket) (s.replied? g) =
      refuseAt p.address (some c) ticket .balance (some k) (some (s.project c k).aEff) (s.replied? g) := by
  have level : (((s.replied? g).project c k).descends && ((s.replied? g).project c k).below) = true := by
    show ((s.project c k).descends && (s.project c k).below) = true
    rw [low.1, low.2]
    rfl
  rw [r.eligible listed found, judgeSeats, if_neg (seats_suffice room)]
  dsimp only
  rw [if_pos level]
  rfl

/-- Where all checks pass the admission is made (R152). -/
theorem Presents.admits {table : PassTable} (room : k + (s.tallyOf c).aboardMax + (s.tallyOf c).inFlight ≤ s.capacity)
    (level : ¬((s.project c k).descends = true ∧ (s.project c k).below = true)) (taken : s.ptb.take ticket k g.group = .inl table) :
    ∃ q, replyContent cascade p.address (.presented ticket) (s.replied? g) = { s with
      overrun := false
      glm := (s.setGate (g.heard.admitted (s.newAdmission c (some ticket) k none))).glm
      tally := s.inFlightMore c k, ptb := table, slp := q } := by
  obtain ⟨taking, taking_is, rfl⟩ : ∃ taking, s.ptb.taking ticket k g.group = .inl taking ∧ taking.table = table := by
    unfold PassTable.take at taken
    split at taken
    · rename_i taking taking_is
      exact ⟨taking, taking_is, Sum.inl.inj taken⟩
    · exact nomatch taken
  have flat : (((s.replied? g).project c k).descends && ((s.replied? g).project c k).below) = false := by
    show ((s.project c k).descends && (s.project c k).below) = false
    rw [← Bool.not_eq_true, Bool.and_eq_true]
    exact level
  obtain ⟨q, admitted⟩ := judgeSeats_admits r.at_heard g.group (seats_suffice room) flat (ticket := ticket) (k := k)
    (taking := taking) taking_is
  have twice := setGate_setGate (s := s) (g := g.heard) (h := g.heard.admitted (s.newAdmission c (some ticket) k none)) rfl
  refine ⟨q, ?_⟩
  rw [r.eligible listed found, admitted]
  dsimp only
  rw [← twice]
  rfl

end

/-! ## Passages (R156) -/

/-- The tally of a car when n of those pending have passed. -/
abbrev Tally.boardedBy (n : Nat) (t : Tally) : Tally :=
  { t with aboardMin := t.aboardMin + n, aboardMax := t.aboardMax + n, inFlight := t.inFlight - n }

/-- The admission when n of those pending have passed. -/
abbrev Admission.passedBy (n : Nat) (x : Admission) : Admission := { x with pending := x.pending - n, passed := x.passed + n }

/-- The table when n persons have passed with the ticket of an admission. -/
abbrev PassTable.passages (t : PassTable) (x : Admission) (n : Nat) : PassTable :=
  t.settle x fun id => (fun y : PassTable => y.passage id)^[n] t

/-- The state at a gate where n persons of its admission have passed and others are pending. -/
abbrev State.passedBy (s : State) (g : GateRec) (x : Admission) (n : Nat) : State :=
  { s with glm := (s.setGate { g with admission := some (x.passedBy n) }).glm
           tally := s.retallied x (Tally.boardedBy n), ptb := s.ptb.passages x n }

theorem PerCar.set_set {α : Type} (p : PerCar α) (c : Car) (v x : α) : (p.set c v).set c x = p.set c x := by cases c <;> rfl

theorem tally_passed (s : State) (g : GateRec) (x : Admission) (n : Nat) :
    (s.passedBy g x n).retallied (x.passedBy n) Tally.boarded = s.retallied x (Tally.boardedBy (n + 1)) := by
  show (s.tally.set x.car _).set x.car (Tally.boarded ((s.tally.set x.car _).get x.car)) = _
  rw [PerCar.get_set, PerCar.set_set]
  rfl

theorem table_passed (s : State) (x : Admission) (n : Nat) :
    (s.ptb.passages x n).settle (x.passedBy n) (s.ptb.passages x n).passage = s.ptb.passages x (n + 1) := by
  obtain ⟨ticket, car, k, pending, passed, deadline, staff⟩ := x
  cases ticket with
  | none => rfl
  | some id => exact (Function.iterate_succ_apply' (fun y : PassTable => y.passage id) n s.ptb).symm

theorem repeatN_succ {α : Type} (f : α → α) (n : Nat) (v : α) : repeatN (n + 1) f v = f (repeatN n f v) := by
  induction n generalizing v with
  | zero => rfl
  | succ n ih => exact ih (f v)

section
variable {k : Hand} {a : Nat} {x : Admission}

theorem gate?_passedBy (found : s.gate? a = some g) (n : Nat) :
    (s.passedBy g x n).gate? a = some { g with admission := some (x.passedBy n) } :=
  gate?_setGate_same (h := { g with admission := some (x.passedBy n) }) found rfl

/-- Persons pass one by one while others are pending. -/
theorem passages_next (n : Nat) (found : s.gate? a = some g) (admission : g.admission = some x) (others : n + 1 < x.pending) :
    repeatN (n + 1) (onePassage k a) s = s.passedBy g x (n + 1) := by
  induction n with
  | zero => exact onePassage_next found admission (by omega)
  | succ n ih =>
    have another : (x.passedBy (n + 1)).pending - 1 ≠ 0 := by
      show x.pending - (n + 1) - 1 ≠ 0
      omega
    rw [repeatN_succ, ih (by omega), onePassage_next (gate?_passedBy found (n + 1)) rfl another, tally_passed, table_passed s]
    have twice := setGate_setGate (s := s) (g := { g with admission := some (x.passedBy (n + 1)) })
      (h := { g with admission := some (x.passedBy (n + 2)) }) rfl
    unfold State.passedBy
    rw [← twice]
    rfl

/-- When all pending have passed the gate goes to rest and its window is examined. -/
theorem passages_all (found : s.gate? a = some g) (admission : g.admission = some x) (some_pending : 1 ≤ x.pending) :
    ∃ q, repeatN x.pending (onePassage k a) s = examineWindow k g.group { s with
      glm := (s.setGate { g with admission := none, state := s.resting g }).glm
      tally := s.retallied x (Tally.boardedBy x.pending), ptb := s.ptb.passages x x.pending, slp := q } := by
  obtain ⟨n, pending⟩ : ∃ n, x.pending = n + 1 := ⟨x.pending - 1, by omega⟩
  rw [pending]
  cases n with
  | zero =>
    obtain ⟨q, passed⟩ := onePassage_last (k := k) found admission (by omega)
    exact ⟨q, passed⟩
  | succ n =>
    have last : (x.passedBy (n + 1)).pending - 1 = 0 := by
      show x.pending - (n + 1) - 1 = 0
      omega
    obtain ⟨q, passed⟩ := onePassage_last (k := k) (gate?_passedBy (x := x) found (n + 1)) rfl last
    refine ⟨q, ?_⟩
    rw [repeatN_succ, passages_next n found admission (by omega), passed, tally_passed, table_passed s]
    have twice := setGate_setGate (s := s) (g := { g with admission := some (x.passedBy (n + 1)) })
      (h := { g with admission := none, state := s.resting g }) rfl
    rw [← twice]
    rfl

end

/-- A PASSED reply that counts persons pending at a PASSING gate. -/
structure Passes (s : State) (p : Poll) (g : GateRec) (bytes : List Byte) (n : Nat) (x : Admission) : Prop extends
    Replies s p g bytes (.passed n) where
  passing : g.state = .passing
  admission : g.admission = some x
  some_pass : 1 ≤ n
  pending : n ≤ x.pending

theorem Passes.content {n : Nat} {x : Admission} (r : Passes s p g bytes n x) :
    replyContent cascade p.address (.passed n) (s.replied? g) = repeatN n (onePassage cascade p.address) (s.replied? g) := by
  show passed cascade p.address n (s.replied? g) = _
  unfold passed
  rw [r.at_heard]
  dsimp only
  have counts : min n g.pending = n := by
    rw [GateRec.pending, r.admission]
    exact Nat.min_eq_left r.pending
  have heard : g.heard.pending = g.pending := rfl
  rw [r.passing, if_pos (by decide), heard, counts, Nat.sub_self, if_pos rfl]

/-- Some of those pending pass. -/
theorem Passes.content_some {n : Nat} {x : Admission} (r : Passes s p g bytes n x) (others : n < x.pending) :
    replyContent cascade p.address (.passed n) (s.replied? g) = State.passedBy { s with overrun := false } g.heard x n := by
  obtain ⟨m, rfl⟩ : ∃ m, n = m + 1 := ⟨n - 1, by have := r.some_pass; omega⟩
  rw [r.content, passages_next m r.at_heard r.admission others]
  have twice := setGate_setGate (s := { s with overrun := false }) (g := g.heard)
    (h := { g.heard with admission := some (x.passedBy (m + 1)) }) rfl
  unfold State.passedBy
  rw [← twice]
  rfl

/-- All of those pending pass. -/
theorem Passes.content_all {x : Admission} (r : Passes s p g bytes x.pending x) : ∃ q,
    replyContent cascade p.address (.passed x.pending) (s.replied? g) = examineWindow cascade g.group { s with
      overrun := false
      glm := (s.setGate { g.heard with admission := none, state := s.resting g }).glm
      tally := s.retallied x (Tally.boardedBy x.pending), ptb := s.ptb.passages x x.pending, slp := q } := by
  obtain ⟨q, passed⟩ := passages_all (k := cascade) r.at_heard r.admission r.some_pass
  refine ⟨q, ?_⟩
  rw [r.content, passed]
  have twice := setGate_setGate (s := { s with overrun := false }) (g := g.heard)
    (h := { g.heard with admission := none, state := s.resting g }) rfl
  have same := congrArg (fun u : State => examineWindow cascade g.group { s with
    overrun := false, glm := u.glm, tally := s.retallied x (Tally.boardedBy x.pending), ptb := s.ptb.passages x x.pending, slp := q }) twice
  exact same

end

end Sys2Proof.Machine
end

section
/-! SUPPORT. The third miss at a PASSING gate (R145, R158). -/

namespace Sys2Proof.Machine

section
variable {k : Hand} {a : Nat} {g h : GateRec} {s t u : State} {x : Admission}

theorem completeAllFor_empty (result : AccessResult) (first : s.glm.slots.s1 = none) (second : s.glm.slots.s2 = none) :
    completeAllFor k a result s = s := by
  refine forEach_fixed fun i _ => if_neg ?_
  have empty : s.glm.slots.get i = none := by cases i <;> assumption
  rw [empty]
  exact nofun

/-- The tally of a car when the fate of those pending is unknown (R158). -/
abbrev Tally.lostBy (n : Nat) (t : Tally) : Tally := { t with inFlight := t.inFlight - n, aboardMax := t.aboardMax + n }

/-- The record of a gate that goes OFFLINE (R145). -/
abbrev GateRec.gone (g : GateRec) : GateRec :=
  { g with admission := none, verdict := none, carried := false, misses := 3, state := .offline }

/-- A PASSING gate goes OFFLINE: the fate of those pending is unknown (R145, R158). -/
theorem goOffline_passing (found : s.gate? a = some g) (passing : g.state = .passing) (admission : g.admission = some x)
    (first : s.glm.slots.s1 = none) (second : s.glm.slots.s2 = none) : ∃ q, goOffline k a s = examineWindow k g.group { s with
      glm := (s.setGate g.gone).glm, tally := s.retallied x (Tally.lostBy x.pending)
      ptb := s.ptb.settle x fun id => s.ptb.release id x.pending, slp := q } := by
  obtain ⟨q, fate⟩ := unknownFate_eq found admission
  have at_fate : (s.setGate { g with admission := none }).gate? a = some { g with admission := none } :=
    gate?_setGate_same (h := { g with admission := none }) found rfl
  generalize hu : ({ s with
    glm := (s.setGate { g with admission := none }).glm, tally := s.retallied x (Tally.lostBy x.pending)
    ptb := s.ptb.settle x fun id => s.ptb.release id x.pending, slp := q } : State) = v at fate
  have at_v : v.gate? a = some { g with admission := none } := by
    rw [← hu]
    exact at_fate
  have cleared := onGate_eq (fun h => { h with verdict := none, carried := false, misses := 3 }) at_v
  have at_cleared := gate?_setGate_same (s := v) (h := { g with admission := none, verdict := none, carried := false, misses := 3 }) at_v rfl
  have gone := onGate_eq (fun h => { h with state := .offline }) at_cleared
  rw [setGate_setGate (by rfl)] at gone
  obtain ⟨q', reported⟩ := gateReport_eq a .passing .offline (v.setGate g.gone)
  have written : ({ v.setGate g.gone with slp := q' } : State) = { s with
      glm := (s.setGate g.gone).glm, tally := s.retallied x (Tally.lostBy x.pending)
      ptb := s.ptb.settle x fun id => s.ptb.release id x.pending, slp := q' } := by
    rw [← hu]
    have twice := setGate_setGate (s := s) (g := { g with admission := none }) (h := g.gone) rfl
    have same := congrArg (fun u : State => ({ s with
      glm := u.glm, tally := s.retallied x (Tally.lostBy x.pending)
      ptb := s.ptb.settle x fun id => s.ptb.release id x.pending, slp := q' } : State)) twice
    exact same
  refine ⟨q', ?_⟩
  rw [← written]
  unfold goOffline
  rw [found]
  dsimp only
  rw [fate, passing]
  have slots : v.glm.slots = s.glm.slots := by rw [← hu]; rfl
  simp only [show (GateState.passing == GateState.query) = false from rfl, show (GateState.passing == GateState.lockedOut) = false from rfl,
    Bool.false_eq_true, if_false]
  rw [cleared, gone, completeAllFor_empty .noReply (by rw [← first, ← slots]; rfl) (by rw [← second, ← slots]; rfl), reported]

/-- The third miss at a PASSING gate: it is counted, and the gate goes OFFLINE (R145, R158). -/
theorem missedPoll_third {p : Poll} (access : p.access = none)
    (found : s.gate? p.address = some g) (misses : g.misses = 2) (passing : g.state = .passing) (admission : g.admission = some x)
    (first : s.glm.slots.s1 = none) (second : s.glm.slots.s2 = none) (uncrossed : s.uncrossed .gates 1) : ∃ q,
    missedPoll cascade p { s with overrun := false } = pollNext (examineWindow cascade g.group { s with
      overrun := false, lmu := (s.counted .gates 1).lmu, glm := (s.setGate g.gone).glm
      tally := s.retallied x (Tally.lostBy x.pending), ptb := s.ptb.settle x fun id => s.ptb.release id x.pending, slp := q }) := by
  have missed : onGate p.address (fun h => { h with misses := h.misses + 1 }) { s with overrun := false } =
      State.setGate { s with overrun := false } { g with misses := g.misses + 1 } := onGate_eq _ found
  have counted : bumpHealth cascade .gates 1 (State.setGate { s with overrun := false } { g with misses := g.misses + 1 }) =
      State.counted (State.setGate { s with overrun := false } { g with misses := g.misses + 1 }) .gates 1 :=
    bumpHealth_uncrossed uncrossed
  have at_counted : (State.counted (State.setGate { s with overrun := false } { g with misses := g.misses + 1 }) .gates 1).gate?
      p.address = some { g with misses := g.misses + 1 } :=
    gate?_setGate_same (s := s) (h := { g with misses := g.misses + 1 }) found rfl
  obtain ⟨q, gone⟩ := goOffline_passing (k := cascade) at_counted passing admission first second
  refine ⟨q, ?_⟩
  have online : ¬(g.state == .offline) = true := by rw [passing]; decide
  unfold missedPoll
  dsimp only
  rw [show State.gate? { s with overrun := false } p.address = some g from found]
  dsimp only
  rw [if_neg online, if_pos (by omega), missed, counted, gone, thirdPollPassed, access]
  dsimp only
  have twice := setGate_setGate (s := s) (g := { g with misses := g.misses + 1 }) (h := g.gone) rfl
  have same := congrArg (fun u : State => pollNext (examineWindow cascade g.group { s with
      overrun := false, lmu := (s.counted .gates 1).lmu, glm := u.glm
      tally := s.retallied x (Tally.lostBy x.pending), ptb := s.ptb.settle x fun id => s.ptb.release id x.pending, slp := q })) twice
  exact same

/-- An examination of a window where auto-close gives no order, and the poll that follows it: a gate outside READY stays as it was. -/
theorem examined_polled {y : Group} (off : (s.window y).state ≠ .sealing ∨ s.param LineFields.autoClose ≠ 1) (found : s.gate? a = some h)
    (unready : (s.window y).state = .sealing → h.state ≠ .ready) (distinct : (s.glm.gates.map GateRec.address).Nodup) : ∃ l q,
    pollNext (examineWindow k y s) = { s with glm := l, slp := q } ∧ l.windows = s.windowsResolved { s with glm := l, slp := q } y ∧
      (State.gate? { s with glm := l, slp := q } a).map GateRec.unpolled = some h.unpolled := by
  obtain ⟨l, q, examined, windows, placed, addresses⟩ := examineWindow_resolves (k := k) off found unready
  obtain ⟨l', polled, after, polls⟩ := pollNext_eq (s := { s with glm := l, slp := q }) (by rw [addresses]; exact distinct)
  refine ⟨l', q, (congrArg pollNext examined).trans polled, ?_, ?_⟩
  · exact (after.trans windows).trans (windowsResolved_pollsOnly polls y).symm
  · exact (gate?_pollsOnly polls a).trans (by rw [placed]; rfl)

theorem thirdMiss_acts {p : Poll} (running : s.isRunning) (law : s.glm.law) (poll : s.glm.poll = some p) (access : p.access = none)
    (found : s.gate? p.address = some g) (misses : g.misses = 2) (passing : g.state = .passing) (admission : g.admission = some x)
    (first : s.glm.slots.s1 = none) (second : s.glm.slots.s2 = none) (uncrossed : s.uncrossed .gates 1)
    (off : (s.window g.group).state ≠ .sealing ∨ s.param LineFields.autoClose ≠ 1) :
    ∃ t, exec .gateReplyTimeout s = .next t ∧
      t = { s with
        overrun := false, glm := t.glm, slp := t.slp, lmu := (s.counted .gates 1).lmu
        tally := s.retallied x (Tally.lostBy x.pending), ptb := s.ptb.settle x fun id => s.ptb.release id x.pending } ∧
      t.glm.windows = s.windowsResolved t g.group ∧ (t.gate? p.address).map GateRec.unpolled = some g.gone.unpolled := by
  obtain ⟨q, missed⟩ := missedPoll_third access found misses passing admission first second uncrossed
  obtain ⟨l, q', polled, windows, placed⟩ := examined_polled (k := cascade) (a := p.address) (h := g.gone) (y := g.group) (s := { s with
      overrun := false, lmu := (s.counted .gates 1).lmu, glm := (s.setGate g.gone).glm
      tally := s.retallied x (Tally.lostBy x.pending), ptb := s.ptb.settle x fun id => s.ptb.release id x.pending, slp := q })
    off (gate?_setGate_same (s := s) (h := g.gone) found rfl) (fun _ => nofun)
    (by exact (congrArg List.Nodup (addresses_setGate s g.gone)).mpr (addresses_nodup law))
  have missed := missed.trans polled
  have expires : exec .gateReplyTimeout s = whileRunning (fun s => match s.glm.poll with
      | none => s
      | some p => missedPoll cascade p s) s := rfl
  refine ⟨_, ?_, rfl, windows, placed⟩
  rw [expires, whileRunning_next running]
  · dsimp only
    rw [poll]
    exact congrArg Host.Outcome.next missed
  · dsimp only
    rw [poll]
    exact congrArg State.overrun missed

end

end Sys2Proof.Machine
end

section
/-! SUPPORT. The requests for windows and the timers of windows, queries and passages (R149, R150, R155, R157). -/

namespace Sys2Proof.Machine

/-! ## The requests for windows (R150) -/

section
variable {tag : Byte} {s : State} {group seconds : Nat} {g : Group} (listens : s.listening)
include listens

theorem boardingExtend_badGroup (bad : groupOf? group = none) : exec (.boardingExtend tag group seconds) s =
    .next (s.heard.replied tag .boardingExtend (.refused .badField (.field 0))) := by
  refine request_answers (h := handleBoardingExtend group seconds) listens ?_ rfl
  unfold handleBoardingExtend
  rw [bad]
  rfl

theorem boardingClose_badGroup (bad : groupOf? group = none) : exec (.boardingClose tag group) s =
    .next (s.heard.replied tag .boardingClose (.refused .badField (.field 0))) := by
  refine request_answers (h := handleBoardingClose group) listens ?_ rfl
  unfold handleBoardingClose
  rw [bad]
  rfl

variable (good : groupOf? group = some g)
include good

theorem boardingExtend_badSeconds (bad : seconds = 0 ∨ 65535 < seconds) : exec (.boardingExtend tag group seconds) s =
    .next (s.heard.replied tag .boardingExtend (.refused .badField (.field 1))) := by
  refine request_answers (h := handleBoardingExtend group seconds) listens ?_ rfl
  unfold handleBoardingExtend
  rw [good]
  exact if_neg (by omega)

theorem boardingExtend_tooLate (least : 1 ≤ seconds) (most : seconds ≤ 65535) (unopened : (s.window g).state ≠ .opened) :
    exec (.boardingExtend tag group seconds) s =
      .next (s.heard.replied tag .boardingExtend (.refused .tooLate (.window (s.window g).state))) := by
  refine request_answers (h := handleBoardingExtend group seconds) listens ?_ rfl
  unfold handleBoardingExtend
  rw [good]
  exact (if_pos ⟨least, most⟩).trans (if_neg fun opened => unopened (beq_iff_eq.1 opened))

theorem boardingExtend_reloads (least : 1 ≤ seconds) (most : seconds ≤ 65535) (opened : (s.window g).state = .opened) :
    exec (.boardingExtend tag group seconds) s = .next (State.replied { s.heard with glm := { s.glm with
      windows := s.glm.windows.set g { s.window g with dwell := some (min seconds 600 * 1000) } } } tag .boardingExtend
      (.accepted (.extended (min seconds 600)))) := by
  refine request_answers (h := handleBoardingExtend group seconds) listens ?_ rfl
  unfold handleBoardingExtend
  rw [good]
  exact (if_pos ⟨least, most⟩).trans (if_pos (beq_iff_eq.2 opened))

/-- BOARDING_CLOSE answers with the state in which its window is left. -/
theorem boardingClose_answers {t : State} (seals : cascade (.sealWindow g .host) s.heard = t) (clear : t.overrun = false) :
    exec (.boardingClose tag group) s =
      .next (t.replied tag .boardingClose (.accepted (.windowState (t.window g).state))) := by
  refine request_answers (h := handleBoardingClose group) listens ?_ clear
  unfold handleBoardingClose
  rw [good]
  dsimp only
  rw [seals]
  rfl

theorem boardingClose_leaves (unopened : (s.window g).state ≠ .opened) : exec (.boardingClose tag group) s =
    .next (s.heard.replied tag .boardingClose (.accepted (.windowState (s.window g).state))) :=
  boardingClose_answers listens good (sealWindowNow_unopened (k := run 63) .host unopened) rfl

theorem boardingClose_seals (opened : (s.window g).state = .opened)
    (off : s.param LineFields.autoClose ≠ 1 ∨ s.sealingEnd g = .sealing) : ∃ u : State,
    exec (.boardingClose tag group) s = .next (u.replied tag .boardingClose (.accepted (.windowState (s.sealingEnd g)))) ∧
      u = { s.heard with glm := u.glm, slp := u.slp } ∧ u.glm.windows = s.glm.windows.set g (s.sealedWindow g) := by
  obtain ⟨gates, q, seals⟩ := sealWindow_alone (s := s.heard) .host opened off
  have window : (s.glm.windows.set g (s.sealedWindow g)).get g = s.sealedWindow g := PerGroup.get_set _ _ _
  have answers := boardingClose_answers (tag := tag) listens good seals rfl
  refine ⟨{ s.heard with glm := { s.glm with windows := s.glm.windows.set g (s.sealedWindow g), gates := gates }, slp := q },
    answers.trans ?_, rfl, rfl⟩
  exact congrArg (fun w : Window => Host.Outcome.next (State.replied _ tag .boardingClose (.accepted (.windowState w.state)))) window

theorem boardingClose_orders (opened : (s.window g).state = .opened) (applied : (s.brake .sb).cmd = .apply) : ∃ u : State,
    exec (.boardingClose tag group) s = .next (u.replied tag .boardingClose (.accepted (.windowState (s.sealingEnd g)))) ∧
      u.window g = s.sealedWindow g ∧ s.closesOrdered u g := by
  obtain ⟨clear, window, orders⟩ := sealWindow_applied (s := s.heard) .host opened applied
  have answers := boardingClose_answers (tag := tag) listens good rfl (clear.trans rfl)
  refine ⟨_, answers.trans ?_, window, orders⟩
  exact congrArg (fun w : Window => Host.Outcome.next (State.replied _ tag .boardingClose (.accepted (.windowState w.state)))) window

end

/-- The record of a gate whose query has run out, in a given state (R155). -/
abbrev GateRec.queriedOut (h : GateRec) (ticket : Nat) (state : GateState) : GateRec :=
  { h with
    verdict := some (.refuse .unknown), carried := false, queryTimer := none, queryTicket := none
    lastQuery := some { number := h.queryNumber, ticket := ticket, how := .timeout }, state := state }

/-! ## The timers of windows, queries and passages (R149, R155, R157) -/

section
variable {s t : State} {group a : Nat} {g : Group} {h : GateRec} (running : s.isRunning)
include running

theorem dwellExpiry_acts (good : groupOf? group = some g) (timed : (s.window g).dwell.isSome = true)
    (seals : cascade (.sealWindow g .dwell) { s with overrun := false } = t) (clear : t.overrun = false) :
    exec (.dwellExpiry group) s = .next t := by
  have expires : exec (.dwellExpiry group) s = whileRunning (fun s => match groupOf? group with
      | none => s
      | some g => if (s.window g).dwell.isSome then cascade (.sealWindow g .dwell) s else s) s := rfl
  have acts : (match groupOf? group with
      | none => { s with overrun := false }
      | some g => if (State.window { s with overrun := false } g).dwell.isSome then cascade (.sealWindow g .dwell)
          { s with overrun := false } else { s with overrun := false }) = t := by
    rw [good]
    exact (if_pos timed).trans seals
  rw [expires, whileRunning_next running (by exact (congrArg State.overrun acts).trans clear)]
  exact congrArg Host.Outcome.next acts

/-- A dwell timer's expiry where auto-close gives no order. -/
theorem dwellExpiry_seals (good : groupOf? group = some g) (opened : (s.window g).state = .opened)
    (timed : (s.window g).dwell.isSome = true) (off : s.param LineFields.autoClose ≠ 1 ∨ s.sealingEnd g = .sealing) :
    ∃ t, exec (.dwellExpiry group) s = .next t ∧ t = { s with overrun := false, glm := t.glm, slp := t.slp } ∧
      t.glm.windows = s.glm.windows.set g (s.sealedWindow g) := by
  obtain ⟨gates, q, seals⟩ := sealWindow_alone (s := { s with overrun := false }) .dwell opened off
  exact ⟨_, dwellExpiry_acts running good timed seals rfl, rfl, rfl⟩

/-- A dwell timer's expiry while SB is commanded APPLY. -/
theorem dwellExpiry_orders (good : groupOf? group = some g) (opened : (s.window g).state = .opened)
    (timed : (s.window g).dwell.isSome = true) (applied : (s.brake .sb).cmd = .apply) :
    ∃ t, exec (.dwellExpiry group) s = .next t ∧ t.window g = s.sealedWindow g ∧ s.closesOrdered t g := by
  obtain ⟨clear, window, orders⟩ := sealWindow_applied (s := { s with overrun := false }) .dwell opened applied
  exact ⟨_, dwellExpiry_acts running good timed rfl (clear.trans rfl), window, orders⟩

/-- A timer of a gate that runs acts at its expiry. -/
theorem gateTimer_next {f : State → State} {timer : GateRec → Bool} (found : s.gate? a = some h) (timed : timer h = true)
    (acts : f { s with overrun := false } = t) (clear : t.overrun = false) : whileRunning (fun s => match s.gate? a with
      | none => s
      | some g => if timer g then f s else s) s = .next t := by
  have at_a : State.gate? { s with overrun := false } a = some h := found
  have expires : (match State.gate? { s with overrun := false } a with
      | none => { s with overrun := false }
      | some g => if timer g then f { s with overrun := false } else { s with overrun := false }) = t := by
    rw [at_a]
    exact (if_pos timed).trans acts
  rw [whileRunning_next running (by exact (congrArg State.overrun expires).trans clear)]
  exact congrArg Host.Outcome.next expires

variable (found : s.gate? a = some h) (off : (s.window h.group).state ≠ .sealing ∨ s.param LineFields.autoClose ≠ 1)
include found off

/-- A query timer's expiry (R155). -/
theorem queryTimeout_acts {ticket : Nat} (timed : h.queryTimer.isSome = true) (asked : h.queryTicket = some ticket) :
    ∃ t, exec (.queryTimeout a) s = .next t ∧ t = { s with overrun := false, glm := t.glm, slp := t.slp } ∧
      t.glm.windows = s.windowsResolved t h.group ∧ t.gate? a = some (h.queriedOut ticket (s.resting h)) := by
  obtain ⟨q, expired⟩ := queryExpired_eq (k := cascade) (s := { s with overrun := false }) found
  have record : ({ h.queryEnded .timeout with verdict := some (.refuse .unknown), carried := false, state := s.resting h } : GateRec) =
      h.queriedOut ticket (s.resting h) := by
    unfold GateRec.queryEnded
    rw [asked]
  obtain ⟨l, q', examined, windows, placed, -⟩ := examineWindow_resolves (k := cascade) (a := a) (x := h.group)
    (h := h.queriedOut ticket (s.resting h)) (s := { s with
      overrun := false, glm := (s.setGate (h.queriedOut ticket (s.resting h))).glm, slp := q }) off
    (gate?_setGate_same (s := s) (h := h.queriedOut ticket (s.resting h)) found rfl) (fun sealing => resting_unready sealing)
  have written := congrArg (fun r => examineWindow cascade h.group { s with
    overrun := false, glm := (s.setGate r).glm, slp := q }) record
  exact ⟨_, gateTimer_next (f := queryExpired cascade a) (timer := fun g => g.queryTimer.isSome) running found timed
    (expired.trans (written.trans examined)) rfl, rfl, windows, placed⟩

/-- A passage deadline (R157). -/
theorem passageDeadline_acts {x : Admission} (admission : h.admission = some x) (timed : x.deadline.isSome = true) :
    ∃ t, exec (.passageDeadline a) s = .next t ∧ t = { s with
        overrun := false, glm := t.glm, slp := t.slp
        tally := s.retallied x fun y => { y with inFlight := y.inFlight - x.pending }
        ptb := s.ptb.settle x fun id => s.ptb.abandon id x.pending (x.passed == 0) h.group } ∧
      t.glm.windows = s.windowsResolved t h.group ∧
      t.gate? a = some { h with admission := none, state := s.resting h } := by
  obtain ⟨q, abandoned⟩ := abandonAdmission_eq (k := cascade) (s := { s with overrun := false }) found admission
  obtain ⟨l, q', examined, windows, placed, -⟩ := examineWindow_resolves (k := cascade) (a := a) (x := h.group)
    (h := { h with admission := none, state := s.resting h })
    (s := { s with
      overrun := false, glm := (s.setGate { h with admission := none, state := s.resting h }).glm, slp := q
      tally := s.retallied x fun y => { y with inFlight := y.inFlight - x.pending }
      ptb := s.ptb.settle x fun id => s.ptb.abandon id x.pending (x.passed == 0) h.group }) off
    (gate?_setGate_same (s := s) (h := { h with admission := none, state := s.resting h }) found rfl)
    (fun sealing => resting_unready sealing)
  have due : (h.admission.any fun y : Admission => y.deadline.isSome) = true := by
    rw [admission]
    exact timed
  have expires := gateTimer_next (f := abandonAdmission cascade a) (timer := fun g => g.admission.any fun y => y.deadline.isSome)
    running found due (Eq.trans abandoned examined) rfl
  exact ⟨_, expires, rfl, windows, placed⟩

end

end Sys2Proof.Machine
end

section
/-! SUPPORT. What the replies of a gate leave, and the statement of the boarding events together. -/

namespace Sys2Proof.Machine

section
variable {s : State} {p : Poll} {g : GateRec} {bytes : List Byte} {ticket n : Nat} {c : Car} {x : Admission}

/-! ## What a reply leaves (R152, R153, R156) -/

/-- A ticket query is made (R153). -/
theorem Presents.queried (r : Presents s p g bytes ticket c) (listed : ticket ≠ 0)
    (found : s.ptb.lookup (s.param LineFields.passback) ticket g.group = .refused .unknown)
    (enabled : s.param LineFields.queryEnable = 1) (host : s.lmu.lost = false) :
    ∃ t, exec (.gateReply bytes) s = .next t ∧ t = { s with overrun := false, glm := t.glm, slp := t.slp } ∧
      t.glm.windows = s.glm.windows ∧ (t.gate? p.address).map GateRec.unpolled = some { g with
        misses := 0, state := .query, queryNumber := (g.queryNumber + 1) % 256, queryTicket := some ticket
        queryTimer := some 1500 }.unpolled := by
  obtain ⟨q, content⟩ := r.queries listed found enabled host
  exact r.answered (h := { g.heard with
    state := .query, queryNumber := (g.queryNumber + 1) % 256, queryTicket := some ticket, queryTimer := some 1500 }) rfl content

/-- An admission is made (R152). -/
theorem Presents.admitted {kind : PassKind} {k : Nat} {table : PassTable} (r : Presents s p g bytes ticket c) (listed : ticket ≠ 0)
    (found : s.ptb.lookup (s.param LineFields.passback) ticket g.group = .eligible kind k)
    (room : k + (s.tallyOf c).aboardMax + (s.tallyOf c).inFlight ≤ s.capacity)
    (level : ¬((s.project c k).descends = true ∧ (s.project c k).below = true)) (taken : s.ptb.take ticket k g.group = .inl table) :
    ∃ t, exec (.gateReply bytes) s = .next t ∧
      t = { s with overrun := false, glm := t.glm, slp := t.slp, ptb := table, tally := s.inFlightMore c k } ∧
      t.glm.windows = s.glm.windows ∧ (t.gate? p.address).map GateRec.unpolled =
        some ({ g with misses := 0 }.admitted (s.newAdmission c (some ticket) k none)).unpolled := by
  obtain ⟨q, content⟩ := r.admits listed found room level taken
  obtain ⟨l, answers, windows, polls⟩ := r.next content rfl (addresses_setGate s _)
  have placed : State.gate? { s with
      overrun := false
      glm := (s.setGate (g.heard.admitted (s.newAdmission c (some ticket) k none))).glm
      tally := s.inFlightMore c k, ptb := table, slp := q } p.address =
      some (g.heard.admitted (s.newAdmission c (some ticket) k none)) :=
    gate?_setGate_same (s := s) (h := g.heard.admitted (s.newAdmission c (some ticket) k none)) r.found rfl
  exact ⟨_, answers, rfl, windows, (gate?_pollsOnly polls p.address).trans (by rw [placed]; rfl)⟩

/-- Some of those pending have passed (R156). -/
theorem Passes.someLeft (r : Passes s p g bytes n x) (others : n < x.pending) :
    ∃ t, exec (.gateReply bytes) s = .next t ∧
      t = { s with overrun := false, glm := t.glm, slp := t.slp, tally := s.retallied x (Tally.boardedBy n), ptb := s.ptb.passages x n } ∧
      t.glm.windows = s.glm.windows ∧ (t.gate? p.address).map GateRec.unpolled =
        some { g with misses := 0, admission := some (x.passedBy n) }.unpolled := by
  obtain ⟨l, answers, windows, polls⟩ := r.toReplies.next (r.content_some others) rfl (addresses_setGate s _)
  have placed : (State.passedBy { s with overrun := false } g.heard x n).gate? p.address =
      some { g.heard with admission := some (x.passedBy n) } :=
    gate?_setGate_same (s := s) (h := { g.heard with admission := some (x.passedBy n) }) r.found rfl
  exact ⟨_, answers, rfl, windows, (gate?_pollsOnly polls p.address).trans (by rw [placed]; rfl)⟩

/-- All of those pending have passed (R156). -/
theorem Passes.noneLeft (r : Passes s p g bytes x.pending x)
    (off : (s.window g.group).state ≠ .sealing ∨ s.param LineFields.autoClose ≠ 1) :
    ∃ t, exec (.gateReply bytes) s = .next t ∧
      t = { s with
        overrun := false, glm := t.glm, slp := t.slp, tally := s.retallied x (Tally.boardedBy x.pending)
        ptb := s.ptb.passages x x.pending } ∧
      t.glm.windows = s.windowsResolved t g.group ∧ (t.gate? p.address).map GateRec.unpolled =
        some { g with misses := 0, admission := none, state := s.resting g }.unpolled := by
  obtain ⟨q, content⟩ := r.content_all
  obtain ⟨l, q', examined, windows, placed, addresses⟩ := examineWindow_resolves (k := cascade) (a := p.address) (x := g.group)
    (h := { g.heard with admission := none, state := s.resting g }) (s := { s with
      overrun := false
      glm := (s.setGate { g.heard with admission := none, state := s.resting g }).glm
      tally := s.retallied x (Tally.boardedBy x.pending), ptb := s.ptb.passages x x.pending, slp := q })
    off (gate?_setGate_same (s := s) (h := { g.heard with admission := none, state := s.resting g }) r.found rfl)
    (fun sealing => resting_unready sealing)
  obtain ⟨l', answers, after, polls⟩ := r.toReplies.next (content.trans examined) rfl (addresses.trans (addresses_setGate s _))
  refine ⟨_, answers, rfl, ?_, (gate?_pollsOnly polls p.address).trans (by rw [placed]; rfl)⟩
  exact (after.trans windows).trans (windowsResolved_pollsOnly polls g.group).symm

end

/-! ## The statement of the boarding events -/

/-- Settles O52: windows by their requests and timers, gates by their timers, and each reply by what its gate makes of it. -/
theorem boardingEventsAct : Obligations.BoardingEventsAct := by
  unfold Obligations.BoardingEventsAct
  refine ⟨fun tag s listens => ⟨fun group seconds bad => ⟨boardingExtend_badGroup listens bad, boardingClose_badGroup listens bad⟩,
    fun group g seconds good => ⟨boardingExtend_badSeconds listens good, boardingExtend_tooLate listens good,
      boardingExtend_reloads listens good, boardingClose_leaves listens good, boardingClose_seals listens good,
      fun opened applied _ => boardingClose_orders listens good opened applied⟩⟩,
    fun s running => ⟨fun group g good opened timed => ⟨dwellExpiry_seals running good opened timed,
        fun applied _ => dwellExpiry_orders running good opened timed applied⟩, ?queries, ?deadlines⟩, ?replies⟩
  case queries =>
    intro a g ticket found timed asked off
    rw [← resting_eq]
    exact queryTimeout_acts running found off timed asked
  case deadlines =>
    intro a g x found admission timed off
    rw [← resting_eq]
    exact passageDeadline_acts running found off admission timed
  case replies =>
    intro s p g running law poll access found first second a w rest gateIs
    refine ⟨fun bytes ticket reply unjudged => ?presentations,
      fun bytes n x reply passing admission one most undelivered off => ?passages,
      fun x misses passing admission uncrossed off => ?miss⟩
    case presentations =>
      have replies : g.state ≠ .offline → g.state ≠ .fault → Replies s p g bytes (.presented ticket) :=
        fun online unfaulted => ⟨running, law, poll, access, reply, found, online, unfaulted, fun _ => unjudged⟩
      refine ⟨fun shut => ?_, fun c ready car => ?_⟩
      · have r := replies (by rw [shut]; nofun) (by rw [shut]; nofun)
        exact r.refused (presented_shut r unjudged shut)
      · have r : Presents s p g bytes ticket c :=
          ⟨replies (by rw [ready]; nofun) (by rw [ready]; nofun), unjudged, ready, car⟩
        exact ⟨fun none_presented => r.refused (r.noTicket none_presented),
          fun x listed refuses known => r.refused (r.refusedByLookup listed refuses known),
          fun listed unknown off => r.refused (r.unqueried listed unknown off),
          r.queried,
          fun kind k listed eligible => ⟨fun short => r.refused (r.full listed eligible short),
            fun room low => r.refused (r.unbalanced listed eligible room low),
            fun table room level taken => r.admitted listed eligible room level taken⟩⟩
    case passages =>
      have r : Passes s p g bytes n x := ⟨⟨running, law, poll, access, reply, found, by rw [passing]; nofun, by rw [passing]; nofun,
        fun carried => nomatch undelivered.symm.trans carried⟩, passing, admission, one, most⟩
      rcases Nat.lt_or_eq_of_le most with others | rfl
      · obtain ⟨t, answers, leaves, windows, gate⟩ := r.someLeft others
        exact ⟨t, answers, by rw [leaves], congrArg State.tally leaves, congrArg State.ptb leaves,
          fun _ => ⟨windows, gate⟩, fun all => absurd all others.ne⟩
      · obtain ⟨t, answers, leaves, windows, gate⟩ := r.noneLeft off
        rw [resting_eq] at gate
        exact ⟨t, answers, by rw [leaves], congrArg State.tally leaves, congrArg State.ptb leaves,
          fun others => absurd rfl others.ne, fun _ => ⟨gate, windows⟩⟩
    case miss => exact thirdMiss_acts running law poll access found misses passing admission first second uncrossed off

end Sys2Proof.Machine
end
